-- ==== Sys2Proof/Word.lean ====
section
/-! DEFINITION. Word types and their plainest arithmetic. -/

namespace Sys2Proof

/-- A byte of memory (R5). -/
abbrev Byte := BitVec 8

/-- A 32-bit register or lane value (R28). -/
abbrev Word := BitVec 32

/-- A 64-bit address or register pair (R30). -/
abbrev Word64 := BitVec 64

/-- The mask with every lane set (R28: what p0 reads as). -/
abbrev allLanes : Word := 0xFFFFFFFF#32

end Sys2Proof
end

