-- ==== Sys2Proof/Config.lean ====
section
/-! DEFINITION. What the part fixes once (sizes, widths, fixed addresses) and the free values: constants without a
body, one for each value that the spec leaves open. -/

namespace Sys2Proof.Config

/-- A number the spec leaves open, such as which free slot is taken (log entry 2); the argument is the free-value counter
of State. -/
opaque freeNat : Nat → Nat

/-- A byte the spec leaves open (log entry 2). -/
opaque freeByte : Nat → Byte

/-- A byte that software has made undefined by breaking a rule (R1, log entry 2), of a context and an address, at a moment of
the run. -/
opaque openByte : Nat → Nat → Nat → Byte

/-- The reading of a device register that R443 and R444 name without giving its value (log entry 2). -/
opaque freeReg : Nat → Word64

/-- Cores (R9), and quadrants of a core (R10). -/
def cores : Nat := 128
def quadsPerCore : Nat := 4

/-- Cores of one die (R9). -/
def coresPerDie : Nat := 64

/-- Resident waves of one register bank and registers of one bank (R11). -/
def slots : Nat := 16
def bankRegs : Nat := 1536

/-- Accumulator units of a quadrant (R11). -/
def accUnits : Nat := 16

/-- Bytes of a cache line (R167). -/
def line : Nat := 128

/-- Lines of a core's L1 data cache and L1 instruction cache (R10), of a home slice and of a stack's victim cache (R14). -/
def l1Lines : Nat := 2048
def l1iLines : Nat := 512
def sliceLines : Nat := 24576
def victimLines : Nat := 196608

/-- Lines that may be pinned in a core's L1 data cache and in a home slice (R165). -/
def pinnedCore : Nat := 512
def pinnedSlice : Nat := 8192

/-- Copy and gather engines and decompression engines of a die (R9, R333). -/
def copyEngines : Nat := 16
def decompressors : Nat := 2

/-- HBM lies below this physical address (R161). -/
def hbmEnd : Nat := 2 ^ 39
/-- The alignment of a work area (R445). -/
def workAlign : Nat := 2 ^ 23

/-- Parity and the rebuild reserve of the part, and what is left for contexts (R13). -/
def parityBytes : Nat := 32 * 2 ^ 30
def reserveBytes : Nat := 32 * 2 ^ 30
def allocatable : Nat := hbmEnd - parityBytes - reserveBytes

/-- A stack's short-bitline layer and a parity group's share of it (R13, R460, R462). -/
def layerBytes : Nat := 4 * 2 ^ 30
def shareBytes : Nat := layerBytes / 2

/-- Channels of a parity group (R460). -/
def groupChannels : Nat := 16

/-- Device register space (R161). -/
def devBase : Nat := 2 ^ 44
def devSize : Nat := 2 ^ 25

/-- Host and peer memory starts here (R161). -/
def portBase : Nat := 2 ^ 48

/-- Physical addresses are 51 bits (R161). -/
def paEnd : Nat := 2 ^ 51

/-- Virtual addresses are 53 bits (R160). -/
def vaEnd : Nat := 2 ^ 53

/-- Nodes of a node store and ready nodes of a ready pool (R300). -/
def nodeSlots : Nat := 65536
def readyPool : Nat := 4096

/-- Entries of a reorder window (R321). -/
def window : Nat := 256

/-- Bytes of a die's work area (R445). -/
def workArea : Nat := 340 * 2 ^ 20

/-- Edges of an edge store (R445). -/
def edgeSlots : Nat := 262144

/-- Version data limit in bytes (R324). -/
def versionLimit : Nat := 48 * 2 ^ 20

/-- Largest outstanding count of a wave (R226). -/
def maxOutstanding : Nat := 65535

/-- Operand queue contexts of a quadrant (R187). -/
def queueContexts : Nat := 32

/-- Lines that a cluster atomic unit may own (R203), and its idle time in ticks. -/
def clusterLines : Nat := 256
def clusterIdle : Nat := 1024

/-- Entries of an exact reduction buffer (R215), its waiting bound in cc, and overflow entries of a die (R220). -/
def redoEntries : Nat := 4096
def redoWaitCc : Nat := 256
def overflowEntries : Nat := 1048576

/-- The wait counter of an overdue wave (R95). -/
def overdue : Nat := 48

/-- Time after which resources are reserved for a passed-over node, in ns (R311). -/
def passedOverNs : Nat := 50000

/-- The default lease length (R235) and watchdog period in ms (R439, R446). -/
def defaultLease : Nat := 256
def defaultWdogMs : Nat := 10000

/-- Bound of a save and of a restore in ns (R439, R441). -/
def saveNs : Nat := 2000000

/-- The measurement of an index for a firmware version and a fuse state, and its signature by ECDSA P-384 (0) or LMS (1) (R463, log
entry 2). -/
opaque measure : Nat → Nat → Nat → BitVec 64
opaque signature : Nat → BitVec 64 → BitVec 64

/-- Where a stripe's rotation stands: the hash is the part's own (R161, log entry 2). -/
opaque stripeHash : Nat → Nat

/-- How many bytes of a context save area the spill engine writes: the spec gives the area neither a length nor a layout (log entries
2 and 23). -/
opaque saveArea : Nat

/-- The peer port that serves an address of host and peer memory, none for the host link (log entry 2). -/
opaque peerPort : Nat → Option Nat

end Sys2Proof.Config
end

