-- ==== Sys2Proof/Syntax.lean ====
section
/-! DEFINITION. The rows of the opcode table as one inductive: wave instructions, Kite microinstructions and the
steps of the part's other agents. -/

namespace Sys2Proof

/-- An 11-bit operand field (R27): I and the number it holds. -/
structure Opd where
  ind : Bool
  num : BitVec 10
  deriving DecidableEq, Repr

/-- The fields of an instruction word below the major opcode (R24); HINT[7:0] is reserved (R43) and not kept. -/
structure Fields where
  mod : BitVec 6
  neg : Bool
  pred : BitVec 3
  d : Opd
  a : Opd
  b : Opd
  fea : Bool
  feb : Bool
  ext : BitVec 25
  hint : BitVec 8
  deriving DecidableEq, Repr

/-- The fields of a Kite microinstruction that an operation may use (R388). -/
structure KFields where
  kd : BitVec 3
  ka : BitVec 3
  kb : BitVec 3
  sub : BitVec 4
  imm : BitVec 32
  deriving DecidableEq, Repr

/-- The AtomicOps a host or peer may request (R202, R204, R443). -/
inductive PortOp where
  | fetchAdd | swap | cas
  deriving DecidableEq, Repr

/-- What a received flit carries (R458, R459): plain data, or the switch's acknowledgement of a step. -/
inductive FlitBody where
  | data
  | stepAck (step : Nat)
  deriving DecidableEq, Repr

/-- The causes of a core machine check (R426, R434). -/
inductive McCause where
  | residue | accum | core
  deriving DecidableEq, Repr

/-- One constructor per row of spec/opcode_table.json. -/
inductive Instr where
  /-- R100. Does nothing and continues at PC + 12. -/
  | nop (f : Fields)
  /-- R101. Branches unconditionally by a signed instruction offset, subject to rule W. -/
  | bra (f : Fields)
  /-- R102. Branches on a signed scalar condition: zero, nonzero, negative or non-negative. -/
  | brs (f : Fields)
  /-- R103. Branches on a mask ANDed with exec: any, all, none or not all. -/
  | brm (f : Fields)
  /-- R104. Writes PC + 12 to a scalar pair and jumps to the offset target. -/
  | call (f : Fields)
  /-- R104. Sets PC to the 64-bit value of a scalar pair. -/
  | ret (f : Fields)
  /-- R104. Jumps to a scalar pair value plus a signed byte offset. -/
  | jmpi (f : Fields)
  /-- R106. Decrements a 32-bit counter and branches while the result is nonzero. -/
  | loop (f : Fields)
  /-- R107. Gives the wave a new age stamp at its issue cycle. -/
  | yield (f : Fields)
  /-- R108. Parks the wave until a time, a full register or its wake latch, with an optional limit. -/
  | park (f : Fields)
  /-- R110. Ends the wave and enters Halting, after delivering any pending deferred fault. -/
  | halt (f : Fields)
  /-- R111. Writes a lane index, wave index, count, task, queue or location identity value. -/
  | getid (f : Fields)
  /-- R112. Writes the AND of two 32-bit masks. -/
  | mand (f : Fields)
  /-- R112. Writes the OR of two 32-bit masks. -/
  | mor (f : Fields)
  /-- R112. Writes the XOR of two 32-bit masks. -/
  | mxor (f : Fields)
  /-- R112. Writes A AND NOT B. -/
  | mandn (f : Fields)
  /-- R112. Writes the complement of a mask. -/
  | mnot (f : Fields)
  /-- R112. Copies a mask value. -/
  | mmov (f : Fields)
  /-- R112. Writes the number of set bits of a mask. -/
  | mpopc (f : Fields)
  /-- R112. Writes the index of the lowest set bit of a mask, or all ones if there is none. -/
  | mfirst (f : Fields)
  /-- R113. Gathers one bit of each active lane of a vector register into a mask. -/
  | mlane (f : Fields)
  /-- R114. Reduces the wave's active lanes to one truth value: any, all, uniform or equal. -/
  | vote (f : Fields)
  /-- R122. Adds two scalars, wrapping or saturating. -/
  | sadd (f : Fields)
  /-- R122. Subtracts two scalars, wrapping or saturating. -/
  | ssub (f : Fields)
  /-- R122. Multiplies two scalars. -/
  | smul (f : Fields)
  /-- R122. Writes the high half of a 32-bit scalar product. -/
  | smulh (f : Fields)
  /-- R123. Divides scalars on the quadrant divider, truncating, and never faults. -/
  | sdiv (f : Fields)
  /-- R123. Writes a scalar remainder with the dividend's sign, and never faults. -/
  | srem (f : Fields)
  /-- R122. Writes the bitwise AND of two scalars. -/
  | sand (f : Fields)
  /-- R122. Writes the bitwise OR of two scalars. -/
  | sor (f : Fields)
  /-- R122. Writes the bitwise XOR of two scalars. -/
  | sxor (f : Fields)
  /-- R125. Shifts a scalar left, with no reduction of the count. -/
  | sshl (f : Fields)
  /-- R125. Shifts a scalar right logically. -/
  | sshr (f : Fields)
  /-- R125. Shifts a scalar right arithmetically. -/
  | ssra (f : Fields)
  /-- R122. Writes the smaller of two scalars. -/
  | smin (f : Fields)
  /-- R122. Writes the larger of two scalars. -/
  | smax (f : Fields)
  /-- R126. Compares two scalars and writes 1 or 0, or a full or empty mask. -/
  | scmp (f : Fields)
  /-- R127. Selects A or B according to whether C is nonzero. -/
  | ssel (f : Fields)
  /-- R130. Loads an immediate into a scalar register or pair. -/
  | sli (f : Fields)
  /-- R130. Copies a scalar between the S, X and P kinds. -/
  | smov (f : Fields)
  /-- R128. Extracts a bit field from a scalar. -/
  | sbfe (f : Fields)
  /-- R128. Inserts a bit field into a scalar. -/
  | sbfi (f : Fields)
  /-- R129. Counts the leading zeros of a scalar. -/
  | sclz (f : Fields)
  /-- R129. Counts the set bits of a scalar. -/
  | spopc (f : Fields)
  /-- R131. Adds scalars with a carry taken from a predicate and writes the carry out. -/
  | saddx (f : Fields)
  /-- R122. Adds per lane and per element, wrapping or saturating. -/
  | vadd (f : Fields)
  /-- R122. Subtracts per lane and per element. -/
  | vsub (f : Fields)
  /-- R122. Multiplies per lane. -/
  | vmul (f : Fields)
  /-- R122. Writes the high half of a 32-bit product per lane. -/
  | vmulh (f : Fields)
  /-- R122. Multiplies and adds per lane, including the wide 64-bit form. -/
  | vmad (f : Fields)
  /-- R122. Writes the bitwise AND per lane. -/
  | vand (f : Fields)
  /-- R122. Writes the bitwise OR per lane. -/
  | vor (f : Fields)
  /-- R122. Writes the bitwise XOR per lane. -/
  | vxor (f : Fields)
  /-- R125. Shifts left per lane. -/
  | vshl (f : Fields)
  /-- R125. Shifts right logically per lane. -/
  | vshr (f : Fields)
  /-- R125. Shifts right arithmetically per lane. -/
  | vsra (f : Fields)
  /-- R122. Writes the per-lane minimum. -/
  | vmin (f : Fields)
  /-- R122. Writes the per-lane maximum. -/
  | vmax (f : Fields)
  /-- R122. Writes the per-lane absolute value. -/
  | vabs (f : Fields)
  /-- R126. Compares per lane and writes predicate bits in the active lanes. -/
  | vcmp (f : Fields)
  /-- R127. Selects A or B per lane by a predicate. -/
  | vsel (f : Fields)
  /-- R128. Extracts a bit field per lane. -/
  | vbfe (f : Fields)
  /-- R128. Inserts a bit field per lane. -/
  | vbfi (f : Fields)
  /-- R129. Counts the set bits per lane. -/
  | vpopc (f : Fields)
  /-- R129. Counts the leading zeros per lane. -/
  | vclz (f : Fields)
  /-- R130. Copies per lane. -/
  | vmov (f : Fields)
  /-- R132. Broadcasts one lane's value to the active lanes. -/
  | vbcast (f : Fields)
  /-- R131. Adds per lane with carry in and carry out in a predicate. -/
  | vaddx (f : Fields)
  /-- R132. Shuffles lanes by index, up, down or xor. -/
  | vshfl (f : Fields)
  /-- R133. Computes an inclusive scan over the active lanes in the fixed tree order. -/
  | vscan (f : Fields)
  /-- R144. Adds in FP64 with one rounding. -/
  | dadd (f : Fields)
  /-- R144. Subtracts in FP64 with one rounding. -/
  | dsub (f : Fields)
  /-- R144. Multiplies in FP64 with one rounding. -/
  | dmul (f : Fields)
  /-- R144. Computes a fused multiply-add in FP64 with one rounding. -/
  | dfma (f : Fields)
  /-- R145. Returns the FP64 minimum with the NaN rules. -/
  | dmin (f : Fields)
  /-- R145. Returns the FP64 maximum with the NaN rules. -/
  | dmax (f : Fields)
  /-- R146. Compares FP64 values into predicate bits. -/
  | dcmp (f : Fields)
  /-- R147. Tests FP64 values against a class mask. -/
  | dclass (f : Fields)
  /-- R148. Writes the bit-exact FP64 reciprocal estimate. -/
  | drcpe (f : Fields)
  /-- R148. Writes the bit-exact FP64 reciprocal square root estimate. -/
  | drsqe (f : Fields)
  /-- R150. Scales an FP64 value by 2^n. -/
  | dldx (f : Fields)
  /-- R150. Splits an FP64 value into its mantissa or its exponent. -/
  | dfrx (f : Fields)
  /-- R151. Reduces FP64 values across lanes in the pairwise tree. -/
  | dred (f : Fields)
  /-- R144. Adds in FP32 or packed 16-bit. -/
  | fadd (f : Fields)
  /-- R144. Subtracts in FP32 or packed 16-bit. -/
  | fsub (f : Fields)
  /-- R144. Multiplies in FP32 or packed 16-bit. -/
  | fmul (f : Fields)
  /-- R144. Computes a fused multiply-add in FP32 or packed 16-bit. -/
  | ffma (f : Fields)
  /-- R145. Returns the minimum. -/
  | fmin (f : Fields)
  /-- R145. Returns the maximum. -/
  | fmax (f : Fields)
  /-- R146. Compares values into predicate bits. -/
  | fcmp (f : Fields)
  /-- R147. Tests values against a class mask. -/
  | fclass (f : Fields)
  /-- R149. Writes the correctly rounded reciprocal. -/
  | frcp (f : Fields)
  /-- R149. Writes the correctly rounded reciprocal square root. -/
  | frsq (f : Fields)
  /-- R149. Writes 2^a, correctly rounded. -/
  | fex2 (f : Fields)
  /-- R149. Writes log2 a, correctly rounded. -/
  | flg2 (f : Fields)
  /-- R149. Writes sin(pi·a), correctly rounded. -/
  | fsin (f : Fields)
  /-- R149. Writes cos(pi·a), correctly rounded. -/
  | fcos (f : Fields)
  /-- R144. Computes a dot product of packed pairs plus an FP32 addend, rounded once. -/
  | fdot2 (f : Fields)
  /-- R151. Reduces values across lanes in the pairwise tree. -/
  | fred (f : Fields)
  /-- R154. Converts one element per lane between formats. -/
  | cvt (f : Fields)
  /-- R155. Converts FP32 to a narrow format with stateless stochastic rounding. -/
  | cvs (f : Fields)
  /-- R155. Packs values into DYN8 bytes. -/
  | pkd8 (f : Fields)
  /-- R156. Unpacks DYN8 bytes to FP32. -/
  | upd8 (f : Fields)
  /-- R155. Packs five signed bytes into a ternary code. -/
  | pkt3 (f : Fields)
  /-- R156. Unpacks a ternary byte into five signed bytes. -/
  | upt3 (f : Fields)
  /-- R157. Computes the E8M0 scale of an MX block from the active lanes. -/
  | mxsc (f : Fields)
  /-- R155. Packs scaled values into FP8 or MXINT8 elements. -/
  | pkf8 (f : Fields)
  /-- R156. Unpacks and scales FP8 or MXINT8 elements. -/
  | upf8 (f : Fields)
  /-- R179. Loads an element per active lane, with lane faults and replay. -/
  | ld (f : Fields)
  /-- R180. Acquire load that reads at the home and holds later loads until it returns. -/
  | lda (f : Fields)
  /-- R181. Loads one scalar value, blocking the wave until it arrives. -/
  | lds (f : Fields)
  /-- R182. Prefetches lines and reports per lane whether each request was taken. -/
  | prf (f : Fields)
  /-- R187. Binds a queue to an affine load stream on the wind-up engine. -/
  | astr (f : Fields)
  /-- R191. Unbinds a stream queue and frees its context. -/
  | aend (f : Fields)
  /-- R179. Loads without taking an L1 copy. -/
  | ldnt (f : Fields)
  /-- R183. Stores per active lane; the highest lane wins on overlap. -/
  | st (f : Fields)
  /-- R184. Release store, performed after earlier loads, acknowledgements and the lease wait. -/
  | stl (f : Fields)
  /-- R185. Stores one scalar value. -/
  | sts (f : Fields)
  /-- R187. Binds a queue to an affine store stream. -/
  | astw (f : Fields)
  /-- R183. Stores without allocating a home-slice line. -/
  | stnt (f : Fields)
  /-- R196. Loads from the local scratchpad. -/
  | spl (f : Fields)
  /-- R196. Stores to the local scratchpad. -/
  | sps (f : Fields)
  /-- R197. Loads from a cluster scratchpad address. -/
  | spcl (f : Fields)
  /-- R197. Stores to a cluster scratchpad address. -/
  | spcs (f : Fields)
  /-- R198. Copies from a cluster scratchpad address to the local scratchpad. -/
  | spcp (f : Fields)
  /-- R207. Performs an integer atomic at the scope's place and returns the old value. -/
  | atom (f : Fields)
  /-- R208. Performs a bitwise compare-and-swap that returns the old value. -/
  | acas (f : Fields)
  /-- R209. Performs a float atomic add, min or max that returns the old value. -/
  | atomf (f : Fields)
  /-- R207. Performs an integer atomic without a return value. -/
  | red (f : Fields)
  /-- R209. Performs a float atomic without a return value. -/
  | redf (f : Fields)
  /-- R216. Adds exact FP contributions into the reduction buffer entries of the home slice. -/
  | redo (f : Fields)
  /-- R223. Initialises a troupe word. -/
  | bini (f : Fields)
  /-- R225. Arrives at the troupe barrier and waits for the release. -/
  | barr (f : Fields)
  /-- R225. Waits until the troupe phase differs from a given value. -/
  | bwait (f : Fields)
  /-- R225. Arrives at the barrier, writes the phase and continues. -/
  | barw (f : Fields)
  /-- R224. Makes the wave a member of a troupe. -/
  | join (f : Fields)
  /-- R224. Removes the wave from its troupe and applies the completion test. -/
  | leave (f : Fields)
  /-- R226. Waits until the outstanding count is zero, then arrives as barr does. -/
  | drain (f : Fields)
  /-- R228. Arrives at the two-level gang barrier. -/
  | gbar (f : Fields)
  /-- R243. Holds later accesses until every earlier load has returned. -/
  | fenceAcq (f : Fields)
  /-- R244. Holds later accesses until loads return, outstanding items are acknowledged and the release mark has passed. -/
  | fenceRel (f : Fields)
  /-- R245. Holds later accesses until the lease clock passes a given value. -/
  | lwait (f : Fields)
  /-- R280. Queues a new array configuration word. -/
  | mcfg (f : Fields)
  /-- R285. Queues the load of one B slice into the shadow plane. -/
  | mlds (f : Fields)
  /-- R286. Queues an exchange of the active and shadow planes. -/
  | mswp (f : Fields)
  /-- R287. Queues the closing or clearing of a range of accumulators. -/
  | mclr (f : Fields)
  /-- R290. Queues the streaming of A rows through the passes of the active plane. -/
  | mstr (f : Fields)
  /-- R291. Reads accumulators back into a vector register, rounded once, and updates mbound. -/
  | mrd (f : Fields)
  /-- R292. Stores converted accumulator outputs to memory. -/
  | mst (f : Fields)
  /-- R293. Reads mbound and resets it after the earlier reads have updated it. -/
  | mbnd (f : Fields)
  /-- R304. Creates a node from a launch record, job card or parameter block. -/
  | tnew (f : Fields)
  /-- R305. Adds a dependence edge to an unsubmitted node. -/
  | tdep (f : Fields)
  /-- R307. Submits a node into its queue's reorder window. -/
  | tsub (f : Fields)
  /-- R310. Allocates addresses from an arena word as a device atomic. -/
  | talloc (f : Fields)
  /-- R309. Grows the accumulator grant at once, or fails. -/
  | tgrow (f : Fields)
  /-- R308. Frees an unsubmitted node together with its edges. -/
  | tabortNode (f : Fields)
  /-- R308. Ends the issuing task with status ABORTED. -/
  | tabortSelf (f : Fields)
  /-- R338. Queues a copy on an engine queue and returns a ticket. -/
  | ecpy (f : Fields)
  /-- R341. Queues a gather or scatter job card. -/
  | egat (f : Fields)
  /-- R343. Queues a Brerdore LZ decompression job card. -/
  | edcp (f : Fields)
  /-- R344. Queues an entry that orders its queue after the named queues. -/
  | efence (f : Fields)
  /-- R345. Waits for a ticket to be full and may return its word. -/
  | ewait (f : Fields)
  /-- R354. Acquires the lease of a pseudo-channel's Abacus registers, or reports BUSY. -/
  | bkmodeAcq (f : Fields)
  /-- R354. Enters all-bank mode. -/
  | bkmodeAll (f : Fields)
  /-- R354. Leaves all-bank mode. -/
  | bkmodeOne (f : Fields)
  /-- R354. Releases the bank lease. -/
  | bkmodeRel (f : Fields)
  /-- R360. Writes lanes into an Abacus register of several banks. -/
  | bkbc (f : Fields)
  /-- R361. Multiplies walk columns by scalars and accumulates in the banks. -/
  | bkmac (f : Fields)
  /-- R362. Applies an elementwise operation to walk columns. -/
  | bkop (f : Fields)
  /-- R364. Reads Abacus registers back into vector registers. -/
  | bkrd (f : Fields)
  /-- R249. Writes back dirty on-chip lines of the named bank-local pages before later bank commands. -/
  | bkfnIn (f : Fields)
  /-- R249. Waits for earlier bank commands, invalidates on-chip copies and delivers a GWCT. -/
  | bkfnOut (f : Fields)
  /-- R366. Hands a parameter block to a base-die reduction engine. -/
  | bred (f : Fields)
  /-- R363. Stores an Abacus register to walk columns. -/
  | bkst (f : Fields)
  /-- R380. Binds a Kite program, layout and root to a binding slot. -/
  | kbind (f : Fields)
  /-- R381. Casts rays from the active lanes with a continuation at PC + 12 and clears their exec bits. -/
  | trace (f : Fields)
  /-- R381. Casts rays with an explicit continuation address. -/
  | tracec (f : Fields)
  /-- R397. Fetches the live values of the continuation records. -/
  | cgetLive (f : Fields)
  /-- R397. Fetches the hit record and status of each continuation record. -/
  | cgetHit (f : Fields)
  /-- R398. Frees the wave's continuation records and their ray slots. -/
  | cend (f : Fields)
  /-- R411. Samples a texture, nearest or bilinear. -/
  | tex (f : Fields)
  /-- R412. Evaluates a neural material on a latent texture. -/
  | texn (f : Fields)
  /-- R411. Gathers one channel of the four footprint texels. -/
  | texg (f : Fields)
  /-- R413. Emits triangles to the front end for culling and binning, opening the pass if it is idle. -/
  | pemit (f : Fields)
  /-- R416. Closes an open visibility pass. -/
  | pemitClose (f : Fields)
  /-- R418. Stores attributes for survivor keys of a finished pass. -/
  | aemit (f : Fields)
  /-- R418. Reads a sample of the visibility buffer. -/
  | vbrd (f : Fields)
  /-- R418. Reads the reprojection status of a pixel. -/
  | rpq (f : Fields)
  /-- R420. Decompresses colour tiles to state 00. -/
  | ccdcDec (f : Fields)
  /-- R420. Compresses colour tiles losslessly. -/
  | ccdcEnc (f : Fields)
  /-- R420. Fast-clears colour tiles to one colour. -/
  | ccfc (f : Fields)
  /-- R433. Raises the TRAP fault with a number. -/
  | trap (f : Fields)
  /-- R433. Returns from the trap handler and restores exec. -/
  | tret (f : Fields)
  /-- R433. Reads a wave system register. -/
  | srd (f : Fields)
  /-- R433. Writes a wave system register. -/
  | swr (f : Fields)
  /-- R437. Stops the wave for debug, or traps. -/
  | brk (f : Fields)
  /-- R433. Reads the lease clock into a scalar pair. -/
  | ctime (f : Fields)
  /-- R49. Hint that may bring lines into a cache level. -/
  | hprf (f : Fields)
  /-- R50. Hint that raises the wave's issue preference for n instructions. -/
  | hpri (f : Fields)
  /-- R51. Hint that names the likely target of a branch ahead. -/
  | hbranch (f : Fields)
  /-- R47. A class 31 word with OP 3 to 31 executes as a no-operation. -/
  | hintNop (w : BitVec 96)
  /-- R45. A fetched word of class 21 to 30, or with an unassigned OP, raises the illegal-instruction fault. -/
  | reservedWord (w : BitVec 96)
  /-- R389. Reloads the node buffer from NODE. -/
  | kiteNld (k : KFields)
  /-- R389. Sets NODE to the binding's root and loads it. -/
  | kiteNldRoot (k : KFields)
  /-- R389. Sets NODE to a child and loads it. -/
  | kiteNldChild (k : KFields)
  /-- R390. Tests a box and writes its entry key. -/
  | kiteBxi (k : KFields)
  /-- R391. Tests a triangle and writes t, uv and the primitive index. -/
  | kiteTxi (k : KFields)
  /-- R389. Pushes a child address with tag 0. -/
  | kitePush (k : KFields)
  /-- R389. Pushes a tagged entry. -/
  | kitePushTag (k : KFields)
  /-- R389. Pops a stack entry. -/
  | kitePop (k : KFields)
  /-- R389. Sorts Kite registers ascending. -/
  | kiteSrt (k : KFields)
  /-- R389. Compares two registers into COND. -/
  | kiteCmp (k : KFields)
  /-- R389. Compares a register with an immediate into COND. -/
  | kiteCmpImm (k : KFields)
  /-- R389. Branches if COND is 1. -/
  | kiteBr (k : KFields)
  /-- R389. Branches if COND is 0. -/
  | kiteBrn (k : KFields)
  /-- R389. Jumps to an immediate word number. -/
  | kiteJmp (k : KFields)
  /-- R389. Jumps to a register value. -/
  | kiteJmpReg (k : KFields)
  /-- R389. Accepts a hit and ends the ray with HITEND. -/
  | kiteHit (k : KFields)
  /-- R389. Accepts a hit and shrinks TMAX. -/
  | kiteAcpt (k : KFields)
  /-- R389. Saves the return word and jumps. -/
  | kiteCall (k : KFields)
  /-- R389. Enters an instance by reading its record. -/
  | kiteIxf (k : KFields)
  /-- R389. Leaves the instance. -/
  | kiteItl (k : KFields)
  /-- R389. Copies a register. -/
  | kiteMov (k : KFields)
  /-- R389. Loads an immediate. -/
  | kiteMovImm (k : KFields)
  /-- R389. Reads a word of the node buffer. -/
  | kiteMovN (k : KFields)
  /-- R389. Reads TMIN or TMAX. -/
  | kiteMovT (k : KFields)
  /-- R389. Adds two registers. -/
  | kiteAdd (k : KFields)
  /-- R389. Adds an immediate. -/
  | kiteAddImm (k : KFields)
  /-- R389. Ends the ray with DONE and makes its continuation record ready. -/
  | kiteEnd (k : KFields)
  /-- R463. The ROM loader verifies and starts the firmware image, or stays in recovery. -/
  | powerOn (ecdsaOk lmsOk : Bool) (version fuses : Nat)
  /-- R454. After a function reset the part reruns accepted, unretired tasks from the journal before reading rings. -/
  | functionReset
  /-- R447. A host write of a descriptor address creates a context, and CSTAT reports the outcome. -/
  | create (desc : Nat)
  /-- R251. A host write of a ring's write index, performed after earlier posted writes and their GWCT. -/
  | doorbell (asid ring index : Nat)
  /-- R428. A fault reply that releases a replay, entry, ray, command, job or debug stop. -/
  | replyRelease (asid seq : Nat)
  /-- R428. A fault reply that ends the faulting work or sends the wave to the trap path. -/
  | replyEnd (asid seq : Nat)
  /-- R438. A fault reply that resumes a debug-stopped wave for one instruction. -/
  | replyStep (asid seq : Nat)
  /-- R449. A host write that raises the context's generation and sets BUSY. -/
  | gen (asid : Nat)
  /-- R449. Older walks have ended and the TLBs are current; BUSY clears and held releases take effect. -/
  | generationRaiseComplete (asid : Nat)
  /-- R453. Leaves OVERRUN and continues the ring at a given index. -/
  | qctlResume (asid queue index : Nat)
  /-- R453. Restarts a stopped queue by rerunning its stopped task. -/
  | qctlRerun (asid queue : Nat)
  /-- R453. Retires the stopped task with its status and continues the queue. -/
  | qctlSkip (asid queue : Nat)
  /-- R440. Starts a context save. -/
  | ctxSave (asid : Nat)
  /-- R441. Starts the restore of a saved context. -/
  | ctxRestore (asid : Nat)
  /-- R447. Ends every task of the context without records and frees its ASID. -/
  | ctxDestroy (asid : Nat)
  /-- R455. Benches the context by displacing its waves. -/
  | ctxSlice (asid : Nat)
  /-- R455. Ends the bench and resumes dispatch. -/
  | ctxUnslice (asid : Nat)
  /-- R457. Starts the migration of one 8 KiB page, line by line under home-slice locks. -/
  | migrate (asid block : Nat)
  /-- R457. Writes the new leaf, raises the generation, releases parked accesses and writes the completion word. -/
  | migrationComplete (asid : Nat)
  /-- R444. A host write to a register with no behaviour of its own, such as WORK0, WORK1 or a debug comparator. -/
  | registerWrite (bar offset : Nat) (value : BitVec 64)
  /-- R251. A host posted write to device memory, performed at its home with a GWCT. -/
  | hostWrite (asid va : Nat) (bytes : List Byte)
  /-- R251. A host read of device memory, performed at the home and returning committed data. -/
  | hostRead (asid va len : Nat)
  /-- R202. A host or peer AtomicOp request performed at the line's home. -/
  | hostAtomic (asid va : Nat) (op : PortOp) (size : Nat) (arg cmp : BitVec 64)
  /-- R463. An SPDM measurement request, answered with signed measurements. -/
  | spdmRequest (index : Nat)
  /-- R458. A flit received on a peer port, checked by CRC and acknowledged or replayed. -/
  | peerFlit (port seq : Nat) (crcOk : Bool) (body : FlitBody)
  /-- R459. A switch timeout or abort that makes the port resend the step's contributions. -/
  | switchStepAbort (port step : Nat)
  /-- R458. A failed lane is retired, the link retrains and unacknowledged flits repeat. -/
  | linkLaneFailure (port : Nat)
  /-- R461. Retires the channel, parks the group, switches it to 15-way interleave and RECOVERY. -/
  | channelFailure (stack channel : Nat)
  /-- R461. Traffic to the parity group resumes within 40 ms. -/
  | channelTrafficResume (stack group : Nat)
  /-- R462. The lost channel is rebuilt into the reserve, and the share leaves RECOVERY. -/
  | rebuildComplete (stack group : Nat)
  /-- R435. A failed parity rebuild raises a machine check that discards the task's version. -/
  | dataloss (access : Nat)
  /-- R434. Stops the core, takes it out of service and discards or reruns the families on it. -/
  | coreMachineCheck (core : Nat) (cause : McCause)
  /-- R374. A parity error in Abacus registers or a bank queue raises a machine check of the holder. -/
  | bankParityError (stack channel pch : Nat)
  /-- R465. Above 95 °C or the power limit, the core clock drops in 100 MHz steps. -/
  | thermalThrottle
  /-- R465. At 105 °C the part saves every context and stops. -/
  | thermalShutdown
  /-- R439. The hang watchdog period passes, and a WATCHDOG record and a save follow. -/
  | watchdogExpiry (asid : Nat)
  /-- R439. A context save ends and a SAVED event record is written. -/
  | saveComplete (asid : Nat)
  /-- R439. A save exceeding 2 ms is stopped, and the context is marked LOST. -/
  | saveTimeout (asid : Nat)
  /-- R441. A restore ends, and a RESTORED event record is written. -/
  | restoreComplete (asid : Nat)
  /-- R109. A park's time or limit n expires and the wave wakes. -/
  | parkTimeout (wave : Nat)
  /-- R95. A Ready wave's wait counter reaches 48 and the wave becomes overdue. -/
  | waveOverdue (wave : Nat)
  /-- R237. An L1 copy's lease expires and loads no longer use it. -/
  | l1LeaseExpiry (core asid line : Nat)
  /-- R203. After 1,024 ticks without a cluster atomic, the cluster atomic unit returns the line to its home. -/
  | clusterLineIdle (die asid line : Nat)
  /-- R220. After 256 cc waiting on a full buffer, an entry moves to the overflow table. -/
  | redoOverflowMove (slice : Nat)
  /-- R311. A ready node passed over for 50 µs gets resources reserved as they are freed. -/
  | nodePassedOver (node : Nat)
  /-- R38. A load, read-back or fetch result lands and its destination becomes full. -/
  | longLatencyResult (group : Nat)
  /-- R236. A store or atomic acknowledgement arrives with its GWCT and lowers the outstanding count. -/
  | acknowledgement (access : Nat)
  /-- R236. A load served at the home slice, granting the L1 copy a lease. -/
  | loadAtHome (access : Nat)
  /-- R236. A store performed at its line's performing place, computing its GWCT. -/
  | storeAtHome (access : Nat)
  /-- R210. An atomic lane performed indivisibly at its scope's place. -/
  | atomicAtPlace (access : Nat)
  /-- R216. A redo lane's contribution is added exactly into its buffer entry. -/
  | redoContribution (access : Nat)
  /-- R218. Deferred atomics are performed once the sealed generation has closed. -/
  | deferredAtomic (access : Nat)
  /-- R229. A die's gang word forwards one arrival to the root, which counts DIEARR. -/
  | gangForwardArrival (task die : Nat)
  /-- R229. The root's release reaches the other die's gang word, which releases too. -/
  | gangReleaseMessage (task die : Nat)
  /-- R189. The wind-up engine reads stream elements into a queue entry. -/
  | streamFetch (stream : Nat)
  /-- R190. The engine stores the elements of a pushed astw entry. -/
  | streamStore (stream : Nat)
  /-- R110. A Halting wave's outstanding work ends, it becomes Halted and frees resources, and task completion is checked. -/
  | haltingEnd (wave : Nat)
  /-- R316. The Puppeteer swaps a closure of quadrants between their active and shadow banks. -/
  | shadowBankSwap (core quad : Nat)
  /-- R318. After in-flight results land, the spill engine writes displaced waves to the save area. -/
  | spill (wave : Nat)
  /-- R316. A used shadow bank is re-armed within 20 µs. -/
  | shadowBankRearm (core quad : Nat)
  /-- R452. The part reads a ring packet, journals it and creates its node, or enters OVERRUN. -/
  | ringSlotRead (asid ring : Nat)
  /-- R312. The Puppeteer offers a free resource to the first eligible ready node. -/
  | nodeDispatch (node : Nat)
  /-- R313. A further wave of a task is placed in a quadrant as resources allow. -/
  | wavePlacement (node : Nat)
  /-- R323. An owner in HOLD becomes the oldest, its version commits, held writes are performed and it goes DIRECT. -/
  | holdCommit (family : Nat)
  /-- R321. The oldest complete task commits, closes redo entries, writes its record and releases its dependents. -/
  | taskRetirement (asid queue : Nat)
  /-- R248. An engine entry starts once its ordering conditions hold and an engine is free. -/
  | engineEntryStart (entry : Nat)
  /-- R336. An entry's writes are acknowledged and passed, and the ticket word is written. -/
  | engineEntryComplete (entry : Nat)
  /-- R285. An mlds finishes loading the shadow plane and sets its tag. -/
  | planeLoadComplete (core quad bank : Nat)
  /-- R267. A pass contribution is checked and applied to its accumulator. -/
  | arrayContributionApply (core quad bank : Nat)
  /-- R249. A bank command is performed at its bank queue. -/
  | bankCommandPerform (command : Nat)
  /-- R368. A reduction job starts, writes back the sources and sums them in the pairwise tree. -/
  | bredJobStart (job : Nat)
  /-- R369. The reduction engine writes DST and the flag word with release semantics. -/
  | bredJobComplete (job : Nat)
  /-- R394. A Kite takes a ray from a ray queue and reloads its buffers. -/
  | kiteRayTake (core asid ray : Nat)
  /-- R394. A Kite writes a ray's record and releases it on a fault, swap or priority need. -/
  | raySuspend (asid ray : Nat)
  /-- R395. A continuation group closes on a timeout or when no ray of its owner remains, and starts a continuation wave. -/
  | contGroupClose (asid owner : Nat) (cont : BitVec 64)
  /-- R414. A triangle index is appended to a bin at its home, with an early tile flush when the bin fills. -/
  | binAppend (append : Nat)
  /-- R416. After binning, the pass rasterises, reprojects, writes the survivors and the flag. -/
  | passCloseProcess (asid desc : Nat)
  /-- R234. The lease clock advances one tick per ns, ending waits for a reading to pass a release mark, a GWCT or an lwait value. -/
  | leaseClockTick
  /-- R95. A multi-cycle datapath unit such as the divider finishes its occupancy and is held for the first wave in its order. -/
  | functionalUnitFree (core quad unit : Nat)
  /-- R294. The array starts the next command of its array command queue (mcfg, mswp, mstr, mclr, mrd, mst, mbnd) once its ordering conditions hold. -/
  | arrayCommandStart (core quad bank : Nat)
  /-- R463. The host loads a firmware image through the recovery registers at BAR0 0x1000 while the part is in recovery. -/
  | recoveryImageLoad (ecdsaOk lmsOk : Bool) (version : Nat)
  /-- R443. The PCIe link trains at 128 GT/s ×16 or falls back to a lower speed or width. -/
  | hostLinkTraining (speed width : Nat)
  deriving DecidableEq, Repr

end Sys2Proof
end

