-- ==== Sys2Proof/Machine/Shape.lean ====
section
/-! DEFINITION. The fixed shape of every instruction word: which MOD and EXT values it assigns, which operand fields
it uses and which register kinds they accept (R24 to R44 and the encoding tables of the class chapters). -/

namespace Sys2Proof.Machine

/-- Register kinds of R28. -/
inductive RK where
  | v | s | p | x | q | k
  deriving DecidableEq, Repr

/-- How many registers an operand takes: one, a pair of R30, a quad of R176 or a group of R153. -/
inductive OW where
  | one | pair | quad | grp (n : Nat)
  deriving DecidableEq, Repr

/-- The format an inline constant takes in an operand (R36). -/
inductive CF where
  | int (n : Nat) | f64 | f32 | f16x2 | bf16x2 | f16 | bf16 | pack (n : Nat) | narrow
  deriving DecidableEq, Repr

/-- The guard rules of R37. -/
inductive GRule where
  | lane | wave | full
  deriving DecidableEq, Repr

/-- An operand field that an instruction uses. `fe` says that a full/empty control bit belongs to it, and `feq` that the bit
may be set where it names a queue (R39, R409). -/
structure OpUse where
  ks : List RK
  w : OW := .one
  fe : Bool := false
  feq : Bool := true
  c : CF := .int 32
  deriving DecidableEq, Repr

/-- The shape of one instruction word. `op5` holds the decode checks of R45 step 5 that concern a field that is no
operand (the register number of `srd` and `swr`, R432). -/
structure Shape where
  rule : GRule
  modOk : Bool
  extOk : Bool
  imm : Bool := false
  op5 : Bool := true
  d : Option OpUse := none
  a : Option OpUse := none
  b : Option OpUse := none
  c : Option OpUse := none
  deriving DecidableEq, Repr

end Sys2Proof.Machine

namespace Sys2Proof

/-- The kind of a register number, or none where R28 reserves it. -/
def regKind (n : BitVec 10) : Option Machine.RK :=
  let m := n.toNat
  if m < 384 then some .v
  else if m < 512 then none
  else if m < 576 then some .s
  else if m < 585 then some .p
  else if m < 588 then none
  else if m < 592 then some .x
  else if m < 600 then none
  else if m < 608 then some .q
  else if m < 768 then none
  else if m < 976 then some .k
  else if m < 992 then none
  else if m < 995 then some .k
  else none

/-- Bits [hi:lo] of EXT as a number. -/
def Fields.e (f : Fields) (hi lo : Nat) : Nat := (f.ext.toNat >>> lo) % 2 ^ (hi + 1 - lo)

/-- Bits [hi:lo] of MOD as a number. -/
def Fields.m (f : Fields) (hi lo : Nat) : Nat := (f.mod.toNat >>> lo) % 2 ^ (hi + 1 - lo)

/-- The offset held in EXT, Sext(EXT, 25). -/
def Fields.off (f : Fields) : Int := f.ext.toInt

/-- Operand C of EXT[10:0] (R32). -/
def Fields.c (f : Fields) : Opd := ⟨f.e 10 10 == 1, BitVec.ofNat 10 (f.e 9 0)⟩

/-- FEC of EXT[11] (R32). -/
def Fields.fec (f : Fields) : Bool := f.e 11 11 == 1

/-- The 32-bit immediate IMM[31:0] of R33. -/
def Fields.imm32 (f : Fields) : Word := BitVec.ofNat 32 ((f.b.num.toNat % 128) * 2 ^ 25 + f.ext.toNat)

end Sys2Proof

namespace Sys2Proof.Machine

/-- WD, the width field of SIA and VIA (R118). -/
def wd (f : Fields) : Nat := f.m 4 3
/-- SG, the sign field of SIA and VIA (R118). -/
def sg (f : Fields) : Bool := f.m 2 2 == 1
/-- VR, the variant field of SIA and VIA (R118). -/
def vr (f : Fields) : Nat := f.m 1 0
/-- IM, the immediate bit of SIA and VIA (R118). -/
def im (f : Fields) : Bool := f.m 5 5 == 1
/-- FMT of VFD and VFS (R140). -/
def fmtF (f : Fields) : Nat := f.m 5 4
/-- RM of VFD, VFS and CVT (R140, R153). -/
def rmF (f : Fields) : Nat := f.m 3 1
/-- FTZ of VFD, VFS and CVT (R140, R153). -/
def ftzF (f : Fields) : Bool := f.m 0 0 == 1
/-- TY of LD, ST and SPD (R176, R195). -/
def tyF (f : Fields) : Nat := f.m 2 0

/-- Source kinds of a vector operand (R119, R141). -/
def srcV : List RK := [.v, .s, .k, .q]
def srcSX : List RK := [.s, .x, .p, .k]
def sxk : List RK := [.s, .x, .k]
def sx : List RK := [.s, .x]

/-- A 64-bit scalar pair address operand. -/
def sPair : OpUse := { ks := [.s], w := .pair, c := .int 64 }
/-- A 64-bit address operand of kind V pair or S pair (R177). -/
def vsPair : OpUse := { ks := [.v, .s], w := .pair, fe := true, c := .int 64 }
/-- An address operand of a command: 32-bit S, X or K. -/
def opSXK : OpUse := { ks := sxk }
def opSX : OpUse := { ks := sx }
/-- A 32-bit vector source with a full/empty control. -/
def opV32 : OpUse := { ks := srcV, fe := true }
/-- A vector register destination. -/
def dstV : OpUse := { ks := [.v] }

/-- Integer operand width and constant format at WD (R118, R36). -/
def wdUse (w : Nat) (ks : List RK) (fe : Bool) : OpUse :=
  match w with
  | 1 => { ks := ks.filter fun k => k != .x && k != .p, w := .pair, fe := fe, c := .int 64 }
  | 2 => { ks := ks, fe := fe, c := .pack 16 }
  | 3 => { ks := ks, fe := fe, c := .pack 8 }
  | _ => { ks := ks, fe := fe, c := .int 32 }

/-- R121 for a scalar operation with sources A and, unless it is immediate, B. -/
def siaShape (f : Fields) (wds vrs : List Nat) (immOk : Bool) (a b : Bool) (cnt : Bool := false) : Shape :=
  { rule := .wave
    modOk := (immOk || !im f) && wds.contains (wd f) && vrs.contains (vr f)
    extOk := im f || f.e 24 0 == 0
    imm := im f
    d := some (wdUse (wd f) [.s, .x, .p] false)
    a := if a then some (wdUse (wd f) srcSX false) else none
    b := if b && !im f then some (if cnt then { ks := srcSX } else wdUse (wd f) srcSX false) else none }

/-- R121 for a vector operation with sources A and, unless it is immediate, B. -/
def viaShape (f : Fields) (wds vrs : List Nat) (immOk : Bool) (b : Bool) (cnt : Bool := false) : Shape :=
  { rule := .lane
    modOk := (!im f || (immOk && wd f < 2)) && wds.contains (wd f) && vrs.contains (vr f)
    extOk := im f || f.e 24 0 == 0
    imm := im f
    d := some (wdUse (wd f) [.v, .q] false)
    a := some (wdUse (wd f) srcV true)
    b := if b && !im f then some (if cnt then opV32 else wdUse (wd f) srcV true) else none }

/-- The constant format of a VFD operand or of FMT in VFS (R140, R36). -/
def fpCF (dbl : Bool) (fmt : Nat) : CF :=
  if dbl then .f64 else match fmt with | 1 => .f16x2 | 2 => .bf16x2 | _ => .f32

def fpUse (dbl : Bool) (fmt : Nat) (ks : List RK) (fe : Bool) : OpUse :=
  { ks := ks, w := if dbl then .pair else .one, fe := fe, c := fpCF dbl fmt }

/-- R142: shape of a VFD (`dbl`) or VFS operation. -/
def fpShape (dbl : Bool) (f : Fields) (rounds ftz : Bool) (b c : Bool) (extOk : Bool) : Shape :=
  let fmtOk := if dbl then fmtF f == 0 else fmtF f < 3
  let rmOk := if rounds then rmF f < 6 else rmF f == 0
  { rule := .lane
    modOk := fmtOk && rmOk && (ftz || !ftzF f)
    extOk := extOk
    d := some (fpUse dbl (fmtF f) [.v, .q] false)
    a := some (fpUse dbl (fmtF f) srcV true)
    b := if b then some (fpUse dbl (fmtF f) srcV true) else none
    c := if c then some (fpUse dbl (fmtF f) srcV true) else none }

/-- R146: a compare writes P; the combine is 0 unless the format is packed. -/
def fcmpShape (dbl : Bool) (f : Fields) : Shape :=
  { fpShape dbl f false true true false (f.e 24 5 == 0 && (fmtF f != 0 || f.e 4 3 == 0)) with
    d := some { ks := [.p] } }

/-- R147. -/
def fclassShape (dbl : Bool) (f : Fields) : Shape :=
  { fpShape dbl f false false false false (f.e 24 12 == 0 && (fmtF f != 0 || f.e 11 10 == 0)) with
    d := some { ks := [.p] } }

/-- R151. -/
def fredShape (dbl : Bool) (f : Fields) : Shape :=
  { fpShape dbl f (f.e 1 0 == 0) true false false (f.e 24 2 == 0 && f.e 1 0 != 3) with
    d := some (fpUse dbl (fmtF f) [.v, .q, .s] false) }

/-- Conversion formats by code (R152). -/
inductive Fmt where
  | b8 | b16 | b32 | b64 | f16 | bf16 | f32 | f64 | e4m3 | e5m2 | dyn8 | t3 | s4 | s8 | s16 | s32 | s64
  deriving DecidableEq, Repr

def fmtOf (n : Nat) : Option Fmt :=
  [Fmt.b8, .b16, .b32, .b64, .f16, .bf16, .f32, .f64, .e4m3, .e5m2, .dyn8, .t3, .s4, .s8, .s16, .s32, .s64][n]?

def Fmt.isFloat : Fmt → Bool
  | .f16 | .bf16 | .f32 | .f64 | .e4m3 | .e5m2 | .dyn8 => true
  | _ => false

def Fmt.bits : Fmt → Nat
  | .b8 | .s8 | .e4m3 | .e5m2 | .dyn8 | .t3 => 8
  | .b16 | .s16 | .f16 | .bf16 => 16
  | .b32 | .s32 | .f32 => 32
  | .b64 | .s64 | .f64 => 64
  | .s4 => 4

def Fmt.signed : Fmt → Bool
  | .s4 | .s8 | .s16 | .s32 | .s64 => true
  | _ => false

def Fmt.cf : Fmt → CF
  | .f64 => .f64 | .f32 => .f32 | .f16 => .f16 | .bf16 => .bf16
  | .e4m3 | .e5m2 | .dyn8 | .t3 | .s4 => .narrow
  | g => .int g.bits

/-- R153, R154: the shape of `cvt`. -/
def cvtShape (f : Fields) : Shape :=
  match fmtOf (f.e 4 0), fmtOf (f.e 9 5) with
  | some s, some d =>
    let bad (g : Fmt) := g == .t3 || g == .s4
    let ii := !s.isFloat && !d.isFloat
    { rule := .lane
      modOk := f.m 5 5 == 0 && (f.m 4 4 == 0 || ii)
        && (if ii || d == .dyn8 then rmF f == 0 else rmF f < 6) && (s.isFloat || !ftzF f)
      extOk := !bad s && !bad d && f.e 24 10 == 0
      d := some { ks := [.v, .q], w := if d.bits == 64 then .pair else .one }
      a := some { ks := srcV, w := if s.bits == 64 then .pair else .one, fe := true, c := s.cf } }
  | _, _ => { rule := .lane, modOk := true, extOk := false }

/-- The element count P of EXT[11:10], 0 where reserved (R153). -/
def pCount (f : Fields) : Nat := match f.e 11 10 with | 0 => 1 | 1 => 2 | 2 => 4 | _ => 0
/-- The element position b of EXT[13:12] (R153). -/
def pPos (f : Fields) : Nat := f.e 13 12

/-- R153: P elements of w bits at positions b to b + P - 1 of a word. -/
def posOk (f : Fields) (w : Nat) : Bool :=
  pCount f != 0 && pPos f + pCount f ≤ 32 / w && pPos f % pCount f == 0

def packShape (f : Fields) (modOk extOk : Bool) (d a : OpUse) (b : Option OpUse := none) : Shape :=
  { rule := .lane, modOk := modOk, extOk := extOk && f.e 24 14 == 0, d := some d, a := some a, b := b }

/-- The register form of a memory element TY (R176). -/
def tyW (t : Nat) : OW := match t with | 5 => .pair | 6 => .quad | _ => .one
def tySize (t : Nat) : Nat := match t with | 0 | 1 => 1 | 2 | 3 => 2 | 4 => 4 | 5 => 8 | _ => 16
def tyCF (t : Nat) : CF := .int (8 * tySize t)

/-- A store's data operand (R177). -/
def dataUse (t : Nat) : OpUse :=
  { ks := if t == 6 then [.v] else srcV, w := tyW t, c := tyCF t }

/-- R177: `ld`, `ldnt`, `st`, `stnt`. -/
def memShape (f : Fields) (tys : List Nat) (d : OpUse) : Shape :=
  { rule := .lane, modOk := tys.contains (tyF f) && f.m 5 4 == 0, extOk := true
    d := some d, a := some vsPair, b := if f.m 3 3 == 1 then some opV32 else none }

/-- R177: `lda`, `stl`, whose scope is `.cluster`, `.device` or `.system`. -/
def ordShape (f : Fields) (tys : List Nat) (d : OpUse) : Shape :=
  { rule := .lane, modOk := tys.contains (tyF f) && [2, 3, 4].contains (f.m 5 3), extOk := true
    d := some d, a := some vsPair }

/-- R187: `astr`, `astw`. -/
def strShape (f : Fields) (tys : List Nat) : Shape :=
  { rule := .wave, modOk := tys.contains (tyF f) && f.m 5 4 < 3, extOk := f.e 24 0 == 0
    d := some { ks := [.q] }
    a := some (if f.m 3 3 == 1 then { ks := [.s] } else sPair)
    b := some { ks := [.s], w := .grp (2 * (f.m 5 4 + 1)) } }

/-- R195. -/
def spdShape (f : Fields) (tys : List Nat) (d b : Option OpUse) : Shape :=
  { rule := .lane, modOk := tys.contains (tyF f) && f.m 5 3 == 0, extOk := true, d := d, a := some opV32, b := b }

/-- The address operand of an atomic (R206). -/
def atmA (f : Fields) : OpUse := if f.m 5 3 == 1 then opV32 else vsPair

/-- Element format of an atomic's data: 64 bits, and the constant format (R205). -/
def atmUse (f : Fields) (flt : Bool) (ks : List RK) (fe : Bool) : OpUse :=
  if flt then match f.m 2 1 with
    | 0 => { ks := ks, fe := fe, c := .f32 }
    | 1 => { ks := ks, w := .pair, fe := fe, c := .f64 }
    | 2 => { ks := ks, fe := fe, c := .f16x2 }
    | _ => { ks := ks, fe := fe, c := .bf16x2 }
  else if f.m 2 2 == 1 then { ks := ks, w := .pair, fe := fe, c := .int 64 } else { ks := ks, fe := fe }

/-- R205. -/
def atmShape (f : Fields) (flt ret : Bool) (ops : Nat) : Shape :=
  { rule := .lane
    modOk := [1, 2, 3, 4].contains (f.m 5 3) && (f.m 0 0 == 0 || f.m 5 3 == 1)
    extOk := f.e 24 21 < ops
    d := if ret then some (atmUse f flt [.v] false) else none
    a := some (atmA f), b := some (atmUse f flt srcV true) }

def synShape (f : Fields) (modMax : Nat) (d a : Option OpUse) : Shape :=
  { rule := .wave, modOk := f.mod.toNat ≤ modMax, extOk := f.e 24 0 == 0, d := d, a := a }

/-- The number field of R387's register group of BNK commands: code, first bank and constraint (R360). -/
def bkbcOk (f : Fields) : Bool :=
  let reg := f.e 3 0; let b0 := f.e 7 4
  f.e 24 8 == 0 && reg < 11 &&
    (if f.m 0 0 == 1 then b0 == 0 else if reg < 8 then b0 % 2 == 0 else b0 % 4 == 0)

/-- R364. -/
def bkrdOk (f : Fields) : Bool :=
  let reg := f.e 3 0; let b0 := f.e 7 4; let n := f.e 10 8 + 1
  f.e 24 11 == 0 &&
    (if reg < 8 then b0 % 2 == 0 && b0 + 2 * n ≤ 16
     else if reg < 11 then b0 % 4 == 0 && b0 + 4 * n ≤ 16
     else reg == 11 && b0 == 0 && n == 1)

/-- R362: unused selectors are zero. -/
def bkopOk (f : Fields) : Bool :=
  let op := f.m 2 0
  f.e 24 8 == 0 && (op < 5 || f.e 3 3 == 0) && (op ≥ 4 || f.e 7 4 == 0) && (f.m 3 3 == 0 || f.e 2 0 == 0)

/-- The system register numbers of R429 that an instruction may name. -/
def sysRegs : List Nat :=
  [0x000, 0x001, 0x002, 0x003, 0x010, 0x011, 0x012, 0x013, 0x014, 0x015, 0x016, 0x017, 0x018, 0x019, 0x01A]

/-- R429, R432: numbers `swr` may name. -/
def sysWritable : List Nat := [0x000, 0x001, 0x003, 0x012, 0x013, 0x017]

/-- A REN instruction's descriptor C (R409). -/
def renShape (modOk extOk : Bool) (d a b : Option OpUse) (rule : GRule := .lane) : Shape :=
  { rule := rule, modOk := modOk, extOk := extOk, d := d, a := a, b := b, c := some sPair }

def vGrp (n : Nat) (fe : Bool) : OpUse := { ks := [.v], w := .grp n, fe := fe }
/-- Operands of REN, whose control bits apply to V sources alone (R409, R423). -/
def renGrp (n : Nat) : OpUse := { vGrp n true with feq := false }
def renV : OpUse := { opV32 with feq := false }
def keyUse : OpUse := { ks := [.v, .s, .k], fe := true, feq := false }

def maskUse : OpUse := { ks := [.p, .s, .k] }
def dPS : OpUse := { ks := [.p, .s] }
def mskShape (d : OpUse) (two : Bool) (f : Fields) : Shape :=
  { rule := .wave, modOk := f.m 5 0 == 0, extOk := f.e 24 0 == 0
    d := some d, a := some maskUse, b := if two then some maskUse else none }

/-- A CTL word with no MOD (R100). -/
def ctlShape (f : Fields) (ext : Bool) (d a : Option OpUse := none) (modOk : Bool := true) : Shape :=
  { rule := .wave, modOk := modOk, extOk := ext || f.e 24 0 == 0, d := d, a := a }

/-- The shape of every wave instruction; none for Kite microinstructions and events. The position rule of R153 is given for
packing; the model holds the unpacking `upd8` and `upf8` to it too (log entry 34). -/
def shape : Instr → Option Shape
  -- CTL, R100
  | .nop f => some (ctlShape f false (modOk := f.m 5 0 == 0))
  | .bra f => some (ctlShape f true (modOk := f.m 5 0 == 0))
  | .brs f => some (ctlShape f true none (some { ks := srcSX }) (f.m 5 0 < 4))
  | .brm f => some (ctlShape f true none (some { ks := [.p] }) (f.m 5 2 == 0))
  | .call f => some (ctlShape f true (some sPair) none (f.m 5 0 == 0))
  | .ret f => some (ctlShape f false none (some sPair) (f.m 5 0 == 0))
  | .jmpi f => some (ctlShape f true none (some sPair) (f.m 5 0 == 0))
  | .loop f => some (ctlShape f true (some opSX) none (f.m 5 0 == 0))
  | .yield f => some (ctlShape f false (modOk := f.m 5 0 == 0))
  | .park f => some (ctlShape f true none (if f.m 1 0 == 1 then some { ks := [.v] } else none) (f.m 5 0 < 3))
  | .halt f => some (ctlShape f false (modOk := f.m 5 0 == 0))
  | .getid f => some (ctlShape f false (some { ks := if f.m 2 0 == 0 then [.v, .q] else [.s] }) none (f.m 5 0 < 6))
  -- MSK, R112
  | .mand f => some (mskShape dPS true f)
  | .mor f => some (mskShape dPS true f)
  | .mxor f => some (mskShape dPS true f)
  | .mandn f => some (mskShape dPS true f)
  | .mnot f => some (mskShape dPS false f)
  | .mmov f => some (mskShape dPS false f)
  | .mpopc f => some (mskShape opSX false f)
  | .mfirst f => some (mskShape opSX false f)
  | .mlane f => some { rule := .wave, modOk := f.m 5 0 == 0, extOk := f.e 24 0 == 0, d := some dPS,
                       a := some opV32, b := some opSXK }
  | .vote f => some { rule := .wave, modOk := f.m 5 2 == 0, extOk := f.e 24 0 == 0, d := some dPS,
                      a := some (if f.m 1 0 == 3 then opV32 else { ks := [.p] }) }
  -- SIA, R121
  | .sadd f => some (siaShape f [0, 1] [0, 1] true true true)
  | .ssub f => some (siaShape f [0, 1] [0, 1] true true true)
  | .smul f => some (siaShape f [0, 1] [0, 1] true true true)
  | .smulh f => some (siaShape f [0] [0] true true true)
  | .sdiv f => some (siaShape f [0] [0] true true true)
  | .srem f => some (siaShape f [0] [0] true true true)
  | .sand f => some (siaShape f [0, 1] [0] true true true)
  | .sor f => some (siaShape f [0, 1] [0] true true true)
  | .sxor f => some (siaShape f [0, 1] [0] true true true)
  | .sshl f => some (siaShape f [0, 1] [0] true true true (cnt := true))
  | .sshr f => some (siaShape f [0, 1] [0] true true true (cnt := true))
  | .ssra f => some (siaShape f [0, 1] [0] true true true (cnt := true))
  | .smin f => some (siaShape f [0, 1] [0] true true true)
  | .smax f => some (siaShape f [0, 1] [0] true true true)
  | .scmp f => some { siaShape f [0, 1] [0] false true true with
      extOk := f.e 24 3 == 0 && f.e 2 0 < 6, d := some { ks := [.s, .x, .p] } }
  | .ssel f => some { siaShape f [0, 1] [0] false true true with
      extOk := f.e 24 11 == 0, c := some (wdUse (wd f) srcSX false) }
  | .sli f => some { siaShape f [0, 1] [0] true false false with
      modOk := im f && wd f < 2 && vr f == 0 }
  | .smov f => some (siaShape f [0, 1] [0] false true false)
  | .sbfe f => some { siaShape f [0, 1] [0] false true false with
      extOk := f.e 24 13 == 0 && f.e 5 0 + f.e 12 6 ≤ 32 * (wd f + 1) }
  | .sbfi f => some { siaShape f [0, 1] [0] false true true with
      extOk := f.e 24 13 == 0 && f.e 5 0 + f.e 12 6 ≤ 32 * (wd f + 1) }
  | .sclz f => some { siaShape f [0, 1] [0] false true false with d := some { ks := [.s, .x, .p] } }
  | .spopc f => some { siaShape f [0, 1] [0] false true false with d := some { ks := [.s, .x, .p] } }
  | .saddx f => some { siaShape f [0] [0, 1] false true true with extOk := f.e 24 3 == 0 && f.e 2 0 != 0 }
  -- VIA, R121
  | .vadd f => some (viaShape f [0, 1, 2, 3] [0, 1] true true)
  | .vsub f => some (viaShape f [0, 1, 2, 3] [0, 1] true true)
  | .vmul f => some (viaShape f [0, 1] [0, 1] true true)
  | .vmulh f => some (viaShape f [0] [0] true true)
  | .vmad f => some { viaShape f [0] [0, 1, 2] false true with
      extOk := f.e 24 12 == 0
      d := some (wdUse (if vr f == 2 then 1 else 0) [.v, .q] false)
      c := some (wdUse (if vr f == 2 then 1 else 0) srcV true) }
  | .vand f => some (viaShape f [0, 1] [0] true true)
  | .vor f => some (viaShape f [0, 1] [0] true true)
  | .vxor f => some (viaShape f [0, 1] [0] true true)
  | .vshl f => some (viaShape f [0, 1] [0] true true (cnt := true))
  | .vshr f => some (viaShape f [0, 1] [0] true true (cnt := true))
  | .vsra f => some (viaShape f [0, 1] [0] true true (cnt := true))
  | .vmin f => some (viaShape f [0, 1, 2, 3] [0] true true)
  | .vmax f => some (viaShape f [0, 1, 2, 3] [0] true true)
  | .vabs f => some (viaShape f [0, 1, 2, 3] [0, 1] false false)
  | .vcmp f => some { viaShape f [0, 1] [0] false true with
      extOk := f.e 24 3 == 0 && f.e 2 0 < 6, d := some { ks := [.p] } }
  | .vsel f => some { viaShape f [0, 1] [0] false true with extOk := f.e 24 3 == 0 }
  | .vbfe f => some { viaShape f [0, 1] [0] false false with
      extOk := f.e 24 13 == 0 && f.e 5 0 + f.e 12 6 ≤ 32 * (wd f + 1) }
  | .vbfi f => some { viaShape f [0, 1] [0] false true with
      extOk := f.e 24 13 == 0 && f.e 5 0 + f.e 12 6 ≤ 32 * (wd f + 1) }
  | .vpopc f => some { viaShape f [0, 1] [0] false false with d := some { ks := [.v, .q] } }
  | .vclz f => some { viaShape f [0, 1] [0] false false with d := some { ks := [.v, .q] } }
  | .vmov f => some (viaShape f [0, 1] [0] false false)
  | .vbcast f => some { viaShape f [0, 1] [0] false true with b := some opSXK }
  | .vaddx f => some { viaShape f [0] [0, 1] false true with extOk := f.e 24 3 == 0 && f.e 2 0 != 0 }
  | .vshfl f => some { viaShape f [0, 1] [0, 1, 2, 3] false true with
      b := some { ks := [.v, .s, .k], fe := true } }
  | .vscan f => some { viaShape f [0, 1] [0] false false with extOk := f.e 24 3 == 0 && f.e 2 0 < 7 }
  -- VFD, R142
  | .dadd f => some (fpShape true f true true true false (f.e 24 0 == 0))
  | .dsub f => some (fpShape true f true true true false (f.e 24 0 == 0))
  | .dmul f => some (fpShape true f true true true false (f.e 24 0 == 0))
  | .dfma f => some (fpShape true f true true true true (f.e 24 12 == 0))
  | .dmin f => some (fpShape true f false true true false (f.e 24 0 == 0))
  | .dmax f => some (fpShape true f false true true false (f.e 24 0 == 0))
  | .dcmp f => some (fcmpShape true f)
  | .dclass f => some (fclassShape true f)
  | .drcpe f => some (fpShape true f false true false false (f.e 24 0 == 0))
  | .drsqe f => some (fpShape true f false true false false (f.e 24 0 == 0))
  | .dldx f => some { fpShape true f true true true false (f.e 24 0 == 0) with b := some opV32 }
  | .dfrx f => some { fpShape true f false true false false (f.e 24 1 == 0) with
      d := some { ks := [.v, .q], w := if f.e 0 0 == 0 then .pair else .one } }
  | .dred f => some (fredShape true f)
  -- VFS, R142
  | .fadd f => some (fpShape false f true true true false (f.e 24 0 == 0))
  | .fsub f => some (fpShape false f true true true false (f.e 24 0 == 0))
  | .fmul f => some (fpShape false f true true true false (f.e 24 0 == 0))
  | .ffma f => some (fpShape false f true true true true (f.e 24 12 == 0))
  | .fmin f => some (fpShape false f false true true false (f.e 24 0 == 0))
  | .fmax f => some (fpShape false f false true true false (f.e 24 0 == 0))
  | .fcmp f => some (fcmpShape false f)
  | .fclass f => some (fclassShape false f)
  | .frcp f => some (fpShape false f false true false false (f.e 24 0 == 0))
  | .frsq f => some (fpShape false f false true false false (f.e 24 0 == 0))
  | .fex2 f => some (fpShape false f false true false false (f.e 24 0 == 0))
  | .flg2 f => some (fpShape false f false true false false (f.e 24 0 == 0))
  | .fsin f => some (fpShape false f false true false false (f.e 24 0 == 0))
  | .fcos f => some (fpShape false f false true false false (f.e 24 0 == 0))
  | .fdot2 f =>
    let sh := fpShape false f true true true true (f.e 24 12 == 0)
    some { sh with modOk := sh.modOk && fmtF f != 0, d := some (fpUse false 0 [.v, .q] false),
                   c := some (fpUse false 0 srcV true) }
  | .fred f => some (fredShape false f)
  -- CVT, R153
  | .cvt f => some (cvtShape f)
  | .cvs f =>
    let w := if [4, 5].contains (f.e 9 5) then 16 else 8
    some (packShape f (f.m 5 1 == 0) (f.e 4 0 == 6 && [4, 5, 8, 9, 10].contains (f.e 9 5) && posOk f w)
      dstV (vGrp (pCount f) true))
  | .pkd8 f => some (packShape f (f.m 5 1 == 0) (f.e 9 0 == 0 && posOk f 8) dstV (vGrp (pCount f) true))
  | .upd8 f => some (packShape f (f.m 5 0 == 0) (f.e 9 0 == 0 && posOk f 8) (vGrp (pCount f) false) opV32)
  | .pkt3 f => some (packShape f (f.m 5 0 == 0) (f.e 11 0 == 0) dstV { ks := [.v, .s], w := .pair, fe := true })
  | .upt3 f => some (packShape f (f.m 5 0 == 0) (f.e 11 0 == 0) { ks := [.v], w := .pair } opV32)
  | .mxsc f => some (packShape f (f.m 5 4 < 3 && rmF f == 0) (f.e 24 0 == 0) { ks := [.v, .s] }
      { ks := [.v, .s, .q], fe := true, c := .f32 })
  | .pkf8 f => some (packShape f (f.m 5 4 < 3 && rmF f < 6) (f.e 9 0 == 0 && posOk f 8) dstV
      (vGrp (pCount f) true) (some opV32))
  | .upf8 f => some (packShape f (f.m 5 4 < 3 && rmF f < 6) (f.e 9 0 == 0 && posOk f 8)
      (vGrp (pCount f) false) opV32 (some opV32))
  -- LD, ST, R177
  | .ld f => some (memShape f [0, 1, 2, 3, 4, 5, 6] { ks := [.v], w := tyW (tyF f) })
  | .lda f => some (ordShape f [0, 1, 2, 3, 4, 5] { ks := [.v], w := tyW (tyF f) })
  | .lds f => some { rule := .lane, modOk := [4, 5].contains (f.m 5 0), extOk := true,
                     d := some { ks := [.s], w := tyW (tyF f) }, a := some sPair }
  | .prf f => some { rule := .lane, modOk := f.m 5 0 < 3, extOk := true, d := some { ks := [.p] }, a := some vsPair }
  | .astr f => some (strShape f [0, 1, 2, 3, 4, 5])
  | .aend f => some { rule := .wave, modOk := f.m 5 0 == 0, extOk := f.e 24 0 == 0, a := some { ks := [.q] } }
  | .ldnt f => some (memShape f [0, 1, 2, 3, 4, 5, 6] { ks := [.v], w := tyW (tyF f) })
  | .st f => some (memShape f [0, 2, 4, 5, 6] (dataUse (tyF f)))
  | .stl f => some (ordShape f [0, 2, 4, 5] (dataUse (tyF f)))
  | .sts f => some { rule := .lane, modOk := [4, 5].contains (f.m 5 0), extOk := true,
                     d := some { ks := [.s, .k], w := tyW (tyF f), c := tyCF (tyF f) }, a := some sPair }
  | .astw f => some (strShape f [0, 2, 4, 5])
  | .stnt f => some (memShape f [0, 2, 4, 5, 6] (dataUse (tyF f)))
  -- SPD, R195
  | .spl f => some (spdShape f [0, 1, 2, 3, 4, 5, 6] (some { ks := [.v], w := tyW (tyF f) }) none)
  | .sps f => some (spdShape f [0, 2, 4, 5, 6] (some (dataUse (tyF f))) none)
  | .spcl f => some (spdShape f [0, 1, 2, 3, 4, 5, 6] (some { ks := [.v], w := tyW (tyF f) }) none)
  | .spcs f => some (spdShape f [0, 2, 4, 5, 6] (some (dataUse (tyF f))) none)
  | .spcp f => some (spdShape f [0, 2, 4, 5, 6] none (some opV32))
  -- ATM, R205
  | .atom f => some (atmShape f false true 9)
  | .acas f => some { atmShape f false true 16 with
      modOk := [1, 2, 3, 4].contains (f.m 5 3) && (f.m 0 0 == 0 || f.m 5 3 == 1) && f.m 1 1 == 0
      extOk := f.e 24 12 == 0, c := some (atmUse f false srcV true) }
  | .atomf f => some (atmShape f true true 3)
  | .red f => some (atmShape f false false 9)
  | .redf f => some (atmShape f true false 3)
  | .redo f => some { atmShape f true false 1 with modOk := f.m 5 3 == 3 && f.m 2 1 < 2 && f.m 0 0 == 0 }
  -- SYN, R222
  | .bini f => some (synShape f 1 none (some opSXK))
  | .barr f => some (synShape f 0 none none)
  | .bwait f => some (synShape f 0 none (some opSXK))
  | .barw f => some (synShape f 0 (some opSX) none)
  | .join f => some (synShape f 1 none (some opSXK))
  | .leave f => some (synShape f 0 none none)
  | .drain f => some (synShape f 1 none none)
  | .gbar f => some (synShape f 0 none none)
  -- ORD, R241
  | .fenceAcq f => some { rule := .wave, modOk := [1, 2, 3, 4].contains (f.m 5 3) && f.m 2 0 == 0, extOk := f.e 24 0 == 0 }
  | .fenceRel f => some { rule := .wave, modOk := [1, 2, 3, 4].contains (f.m 5 3) && f.m 2 0 == 1, extOk := f.e 24 0 == 0 }
  | .lwait f => some (synShape f 0 none (some sPair))
  -- MXL, MXS, R279
  | .mcfg f => some { rule := .full, modOk := f.m 4 0 == 0, extOk := f.m 5 5 == 1 || f.e 24 0 == 0, imm := f.m 5 5 == 1,
                      a := if f.m 5 5 == 1 then none else some { ks := [.s] } }
  | .mlds f => some { rule := .full, modOk := f.m 5 2 == 0, extOk := f.e 24 3 == 0,
                      a := some (if f.m 0 0 == 1 then { ks := [.s] } else sPair), b := some opSXK }
  | .mswp f => some { rule := .full, modOk := f.m 5 0 == 0, extOk := f.e 24 0 == 0 }
  | .mclr f => some { rule := .full, modOk := f.m 5 2 == 0,
                      extOk := f.e 24 11 == 0 && (f.m 1 1 == 1 || f.e 10 0 == 0),
                      a := some opSXK, b := some opSXK, c := if f.m 1 1 == 1 then some opSXK else none }
  | .mstr f => some { rule := .full, modOk := f.m 5 1 == 0,
                      extOk := f.e 24 24 == 0 && (if f.m 0 0 == 1 then f.e 23 21 == 0 else f.e 20 13 == 0),
                      d := some opSXK, a := some { ks := if f.m 0 0 == 1 then [.s] else [.q] }, b := some opSXK }
  | .mrd f => some { rule := .full, modOk := f.m 5 0 < 6, extOk := f.e 24 0 == 0, d := some dstV, a := some opSXK }
  | .mst f => some { rule := .full, modOk := f.m 5 5 == 0 && f.m 2 0 < 6, extOk := f.e 24 20 == 0,
                     d := some opSXK, a := some (if f.m 4 4 == 1 then { ks := [.s] } else sPair), b := some opSXK }
  | .mbnd f => some { rule := .wave, modOk := f.m 5 0 == 0, extOk := f.e 24 0 == 0, d := some opSX }
  -- TSK, R303
  | .tnew f => some { rule := .wave, modOk := f.m 5 0 < 3, extOk := f.e 24 0 == 0, d := some opSX, a := some sPair, b := some opSXK }
  | .tdep f => some { rule := .wave, modOk := f.m 5 0 == 0, extOk := f.e 24 0 == 0, d := some opSX, a := some opSX, b := some opSX }
  | .tsub f => some { rule := .wave, modOk := f.m 5 0 == 0, extOk := f.e 24 0 == 0, d := some opSX, a := some opSX }
  | .talloc f => some { rule := .lane, modOk := f.m 5 0 == 0, extOk := f.e 24 0 == 0,
                        d := some { ks := [.v], w := .pair }, a := some sPair, b := some opV32 }
  | .tgrow f => some { rule := .wave, modOk := f.m 5 0 == 0, extOk := f.e 24 0 == 0, d := some opSX, a := some opSXK }
  | .tabortNode f => some { rule := .wave, modOk := f.m 5 0 == 0, extOk := f.e 24 0 == 0, d := some opSX, a := some opSX }
  | .tabortSelf f => some { rule := .wave, modOk := f.m 5 0 == 1, extOk := f.e 24 0 == 0 }
  -- ENG, R335
  | .ecpy f => some { rule := .wave, modOk := f.m 5 5 == 0, extOk := f.e 24 11 == 0, d := some dstV, a := some sPair,
                      b := some sPair, c := some opSXK }
  | .egat f => some { rule := .wave, modOk := f.m 5 4 == 0, extOk := f.e 24 0 == 0, d := some dstV, a := some sPair }
  | .edcp f => some { rule := .wave, modOk := f.m 5 4 == 0, extOk := f.e 24 0 == 0, d := some dstV, a := some sPair }
  | .efence f => some { rule := .wave, modOk := f.m 5 4 == 0, extOk := f.e 24 16 == 0, d := some dstV }
  | .ewait f => some { rule := .wave, modOk := f.m 5 1 == 0, extOk := f.e 24 0 == 0,
                       d := if f.m 0 0 == 1 then some opSX else none, a := some { ks := [.v] } }
  -- BNK, R357
  | .bkmodeAcq f => some { rule := .wave, modOk := f.m 5 0 == 0, extOk := f.e 24 0 == 0, d := some opSX, a := some sPair }
  | .bkmodeAll f => some { rule := .wave, modOk := f.m 5 0 == 1, extOk := f.e 24 0 == 0, d := some opSX, a := some sPair }
  | .bkmodeOne f => some { rule := .wave, modOk := f.m 5 0 == 2, extOk := f.e 24 0 == 0, d := some opSX, a := some sPair }
  | .bkmodeRel f => some { rule := .wave, modOk := f.m 5 0 == 3, extOk := f.e 24 0 == 0, d := some opSX, a := some sPair }
  | .bkbc f => some { rule := .lane, modOk := f.m 5 1 == 0, extOk := bkbcOk f, a := some sPair, b := some opV32 }
  | .bkmac f => some { rule := .wave, modOk := f.m 5 0 < 3, extOk := f.e 24 10 == 0 && f.e 2 0 + f.e 5 3 + 1 ≤ 8,
                       a := some sPair, b := some opSXK }
  | .bkop f => some { rule := .wave, modOk := f.m 2 0 < 6 && f.m 5 4 < 2, extOk := bkopOk f, a := some sPair, b := some opSXK }
  | .bkrd f => some { rule := .lane, modOk := f.m 5 0 == 0, extOk := bkrdOk f, d := some (vGrp (f.e 10 8 + 1) false), a := some sPair }
  | .bkfnIn f => some { rule := .wave, modOk := f.m 5 0 == 0, extOk := f.e 24 0 == 0, a := some sPair, b := some opSXK }
  | .bkfnOut f => some { rule := .wave, modOk := f.m 5 0 == 1, extOk := f.e 24 0 == 0, a := some sPair, b := some opSXK }
  | .bred f => some { rule := .wave, modOk := f.m 5 0 == 0, extOk := f.e 24 0 == 0, d := some opSX, a := some sPair }
  | .bkst f => some { rule := .wave, modOk := f.m 5 0 == 0,
                      extOk := f.e 24 6 == 0 && f.e 3 0 < 11 && f.e 5 4 < 3 && (f.e 5 4 == 0 || f.e 3 0 < 8), a := some sPair }
  -- RAY, R379
  | .kbind f => some { rule := .wave, modOk := f.m 5 0 == 0, extOk := f.e 24 4 == 0, d := some opSX, a := some sPair }
  | .trace f => some { rule := .lane, modOk := f.m 5 4 == 0, extOk := f.e 24 0 == 0, d := some dstV, a := some (vGrp 8 true), b := some opSXK }
  | .tracec f => some { rule := .lane, modOk := f.m 5 4 == 0, extOk := f.e 24 11 == 0, d := some dstV, a := some (vGrp 8 true),
                        b := some opSXK, c := some sPair }
  | .cgetLive f => some { rule := .lane, modOk := f.m 5 0 == 0, extOk := f.e 24 0 == 0, d := some dstV, b := some opSXK }
  | .cgetHit f => some { rule := .lane, modOk := f.m 5 0 == 1, extOk := f.e 24 0 == 0, d := some (vGrp 5 false) }
  | .cend f => some { rule := .wave, modOk := f.m 5 0 == 0, extOk := f.e 24 0 == 0 }
  -- REN, R409
  | .tex f => some (renShape (f.m 5 1 == 0) (f.e 24 11 == 0) (some (vGrp 4 false)) (some (renGrp 2)) none)
  | .texn f => some (renShape (f.m 5 0 == 0) (f.e 24 18 == 0 && f.e 11 11 == 0) (some (vGrp 4 false)) (some (renGrp 2)) none)
  | .texg f => some (renShape (f.m 5 2 == 0) (f.e 24 11 == 0) (some (vGrp 4 false)) (some (renGrp 2)) none)
  | .pemit f => some (renShape (f.m 5 2 == 0 && f.m 1 0 < 3) (f.e 24 11 == 0) (some { ks := [.p] }) (some (renGrp 12)) (some keyUse))
  | .pemitClose f => some (renShape (f.m 5 0 == 4) (f.e 24 11 == 0) none none none .wave)
  | .aemit f => some (renShape (f.m 5 0 == 0) (f.e 24 16 == 0 && f.e 11 11 == 0) (some { ks := [.p] })
      (some (renGrp (f.e 15 12 + 1))) (some keyUse))
  | .vbrd f => some (renShape (f.m 5 0 == 0) (f.e 24 15 == 0 && f.e 11 11 == 0) (some (vGrp 2 false)) (some renV) none)
  | .rpq f => some (renShape (f.m 5 0 == 0) (f.e 24 11 == 0) (some (vGrp 2 false)) (some renV) none)
  | .ccdcDec f => some (renShape (f.m 5 0 == 0) (f.e 24 11 == 0) none (some renV) none)
  | .ccdcEnc f => some (renShape (f.m 5 0 == 1) (f.e 24 11 == 0) none (some renV) none)
  | .ccfc f => some (renShape (f.m 5 0 == 0) (f.e 24 11 == 0) none (some renV) (some keyUse))
  -- SYS, R432
  | .trap f => some (ctlShape f true none none (f.m 5 0 == 0 && f.e 24 16 == 0))
  | .tret f => some (ctlShape f false none none (f.m 5 0 == 0))
  | .srd f => some { rule := .wave, modOk := f.m 5 0 == 0, extOk := f.e 24 10 == 0, d := some opSX,
                     op5 := sysRegs.contains (f.e 9 0) && f.e 9 0 != 3 }
  | .swr f => some { rule := .wave, modOk := f.m 5 0 == 0, extOk := f.e 24 10 == 0, a := some opSXK,
                     op5 := sysWritable.contains (f.e 9 0) }
  | .brk f => some (ctlShape f true none none (f.m 5 0 == 0 && f.e 24 16 == 0))
  | .ctime f => some (ctlShape f false (some sPair) none (f.m 5 0 == 0))
  -- HINT, R49 to R51
  | .hprf f => some { rule := .lane, modOk := f.m 5 0 < 3, extOk := true, a := some vsPair }
  | .hpri f => some { rule := .wave, modOk := f.m 5 0 == 0, extOk := f.e 24 8 == 0 }
  | .hbranch f => some { rule := .wave, modOk := f.m 5 4 == 0, extOk := true }
  | _ => none

/-- A field that the instruction does not use is zero (R27). -/
def opdZero (o : Opd) : Bool := !o.ind && o.num == 0#10

/-- A full/empty control bit may be 1 only on a used source of kind V or Q (R39). An indirect field counts as kind V here,
also where its number lies outside 0 to 383: the spec gives no order between the reserved bit of step 4 and the illegal number
of step 5 in such a field, and the model lets step 5 answer (log entry 32). -/
def feOk (bit : Bool) (u : Option OpUse) (o : Opd) : Bool :=
  !bit || match u with
    | some u => u.fe && (o.ind || regKind o.num == some .v || (u.feq && regKind o.num == some .q))
    | none => false

/-- Steps 3 and 4 of R45: MOD is assigned and every reserved bit is zero. -/
def shapeOk (sh : Shape) (f : Fields) : Bool :=
  sh.modOk && sh.extOk
    && (sh.d.isSome || opdZero f.d)
    && (sh.a.isSome || opdZero f.a)
    && (if sh.imm then !f.b.ind && f.b.num.toNat < 128 else sh.b.isSome || opdZero f.b)
    && feOk f.fea sh.a f.a && feOk f.feb sh.b f.b
    && (sh.c.isNone || feOk f.fec sh.c f.c)

/-- The hint form of the same check: full/empty bits of class 31 are reserved (R49). -/
def hintOk (sh : Shape) (f : Fields) : Bool := shapeOk sh f && !f.fea && !f.feb

end Sys2Proof.Machine
end

