-- ==== Sys2Proof/Machine/Opmap.lean ====
section
/-! DEFINITION. The opcode map of R44: which class and operation each constructor has, and the fields of a word. -/

namespace Sys2Proof.Machine

/-- An 11-bit operand field (R27). -/
def opdOf (b : BitVec 11) : Opd := ⟨b.getLsbD 10, b.extractLsb' 0 10⟩

/-- The bits of an operand field (R27). -/
def opdBits (o : Opd) : BitVec 11 := BitVec.ofBool o.ind ++ o.num

/-- CLASS and OP, the major opcode (R24). -/
def classOf (w : BitVec 96) : Nat := (w.extractLsb' 91 5).toNat
def opNumOf (w : BitVec 96) : Nat := (w.extractLsb' 86 5).toNat

/-- The fields of an instruction word (R24). -/
def fieldsOf (w : BitVec 96) : Fields :=
  { mod := w.extractLsb' 80 6, neg := w.getLsbD 79, pred := w.extractLsb' 76 3
    d := opdOf (w.extractLsb' 65 11), a := opdOf (w.extractLsb' 54 11), b := opdOf (w.extractLsb' 43 11)
    fea := w.getLsbD 42, feb := w.getLsbD 41, ext := w.extractLsb' 16 25, hint := w.extractLsb' 8 8 }

/-- The word with CLASS, OP and the given fields; HINT[7:0] is zero (R43). -/
def wordOf (cls op : Nat) (f : Fields) : BitVec 96 :=
  BitVec.ofNat 5 cls ++ BitVec.ofNat 5 op ++ f.mod ++ BitVec.ofBool f.neg ++ f.pred ++ opdBits f.d ++ opdBits f.a
    ++ opdBits f.b ++ BitVec.ofBool f.fea ++ BitVec.ofBool f.feb ++ f.ext ++ f.hint ++ 0#8

/-- Class 0 of R44. -/
def ctor0 (op : Nat) (f : Fields) : Option Instr :=
  match op with
  | 0 => some (.nop f)
  | 1 => some (.bra f)
  | 2 => some (.brs f)
  | 3 => some (.brm f)
  | 4 => some (.call f)
  | 5 => some (.ret f)
  | 6 => some (.jmpi f)
  | 7 => some (.loop f)
  | 8 => some (.yield f)
  | 9 => some (.park f)
  | 10 => some (.halt f)
  | 11 => some (.getid f)
  | _ => none

/-- Class 1 of R44. -/
def ctor1 (op : Nat) (f : Fields) : Option Instr :=
  match op with
  | 0 => some (.mand f)
  | 1 => some (.mor f)
  | 2 => some (.mxor f)
  | 3 => some (.mandn f)
  | 4 => some (.mnot f)
  | 5 => some (.mmov f)
  | 6 => some (.mpopc f)
  | 7 => some (.mfirst f)
  | 8 => some (.mlane f)
  | 9 => some (.vote f)
  | _ => none

/-- Class 2 of R44. -/
def ctor2 (op : Nat) (f : Fields) : Option Instr :=
  match op with
  | 0 => some (.sadd f)
  | 1 => some (.ssub f)
  | 2 => some (.smul f)
  | 3 => some (.smulh f)
  | 4 => some (.sdiv f)
  | 5 => some (.srem f)
  | 6 => some (.sand f)
  | 7 => some (.sor f)
  | 8 => some (.sxor f)
  | 9 => some (.sshl f)
  | 10 => some (.sshr f)
  | 11 => some (.ssra f)
  | 12 => some (.smin f)
  | 13 => some (.smax f)
  | 14 => some (.scmp f)
  | 15 => some (.ssel f)
  | 16 => some (.sli f)
  | 17 => some (.smov f)
  | 18 => some (.sbfe f)
  | 19 => some (.sbfi f)
  | 20 => some (.sclz f)
  | 21 => some (.spopc f)
  | 22 => some (.saddx f)
  | _ => none

/-- Class 3 of R44. -/
def ctor3 (op : Nat) (f : Fields) : Option Instr :=
  match op with
  | 0 => some (.vadd f)
  | 1 => some (.vsub f)
  | 2 => some (.vmul f)
  | 3 => some (.vmulh f)
  | 4 => some (.vmad f)
  | 5 => some (.vand f)
  | 6 => some (.vor f)
  | 7 => some (.vxor f)
  | 8 => some (.vshl f)
  | 9 => some (.vshr f)
  | 10 => some (.vsra f)
  | 11 => some (.vmin f)
  | 12 => some (.vmax f)
  | 13 => some (.vabs f)
  | 14 => some (.vcmp f)
  | 15 => some (.vsel f)
  | 16 => some (.vbfe f)
  | 17 => some (.vbfi f)
  | 18 => some (.vpopc f)
  | 19 => some (.vclz f)
  | 20 => some (.vmov f)
  | 21 => some (.vbcast f)
  | 22 => some (.vaddx f)
  | 23 => some (.vshfl f)
  | 24 => some (.vscan f)
  | _ => none

/-- Class 4 of R44. -/
def ctor4 (op : Nat) (f : Fields) : Option Instr :=
  match op with
  | 0 => some (.dadd f)
  | 1 => some (.dsub f)
  | 2 => some (.dmul f)
  | 3 => some (.dfma f)
  | 4 => some (.dmin f)
  | 5 => some (.dmax f)
  | 6 => some (.dcmp f)
  | 7 => some (.dclass f)
  | 8 => some (.drcpe f)
  | 9 => some (.drsqe f)
  | 10 => some (.dldx f)
  | 11 => some (.dfrx f)
  | 12 => some (.dred f)
  | _ => none

/-- Class 5 of R44. -/
def ctor5 (op : Nat) (f : Fields) : Option Instr :=
  match op with
  | 0 => some (.fadd f)
  | 1 => some (.fsub f)
  | 2 => some (.fmul f)
  | 3 => some (.ffma f)
  | 4 => some (.fmin f)
  | 5 => some (.fmax f)
  | 6 => some (.fcmp f)
  | 7 => some (.fclass f)
  | 8 => some (.frcp f)
  | 9 => some (.frsq f)
  | 10 => some (.fex2 f)
  | 11 => some (.flg2 f)
  | 12 => some (.fsin f)
  | 13 => some (.fcos f)
  | 14 => some (.fdot2 f)
  | 15 => some (.fred f)
  | _ => none

/-- Class 6 of R44. -/
def ctor6 (op : Nat) (f : Fields) : Option Instr :=
  match op with
  | 0 => some (.cvt f)
  | 1 => some (.cvs f)
  | 2 => some (.pkd8 f)
  | 3 => some (.upd8 f)
  | 4 => some (.pkt3 f)
  | 5 => some (.upt3 f)
  | 6 => some (.mxsc f)
  | 7 => some (.pkf8 f)
  | 8 => some (.upf8 f)
  | _ => none

/-- Class 7 of R44. -/
def ctor7 (op : Nat) (f : Fields) : Option Instr :=
  match op with
  | 0 => some (.ld f)
  | 1 => some (.lda f)
  | 2 => some (.lds f)
  | 3 => some (.prf f)
  | 4 => some (.astr f)
  | 5 => some (.aend f)
  | 6 => some (.ldnt f)
  | _ => none

/-- Class 8 of R44. -/
def ctor8 (op : Nat) (f : Fields) : Option Instr :=
  match op with
  | 0 => some (.st f)
  | 1 => some (.stl f)
  | 2 => some (.sts f)
  | 3 => some (.astw f)
  | 4 => some (.stnt f)
  | _ => none

/-- Class 9 of R44. -/
def ctor9 (op : Nat) (f : Fields) : Option Instr :=
  match op with
  | 0 => some (.spl f)
  | 1 => some (.sps f)
  | 2 => some (.spcl f)
  | 3 => some (.spcs f)
  | 4 => some (.spcp f)
  | _ => none

/-- Class 10 of R44. -/
def ctor10 (op : Nat) (f : Fields) : Option Instr :=
  match op with
  | 0 => some (.atom f)
  | 1 => some (.acas f)
  | 2 => some (.atomf f)
  | 3 => some (.red f)
  | 4 => some (.redf f)
  | 5 => some (.redo f)
  | _ => none

/-- Class 11 of R44. -/
def ctor11 (op : Nat) (f : Fields) : Option Instr :=
  match op with
  | 0 => some (.bini f)
  | 1 => some (.barr f)
  | 2 => some (.bwait f)
  | 3 => some (.barw f)
  | 4 => some (.join f)
  | 5 => some (.leave f)
  | 6 => some (.drain f)
  | 7 => some (.gbar f)
  | _ => none

/-- Class 12 of R44. -/
def ctor12 (op : Nat) (f : Fields) : Option Instr :=
  match op with
  | 0 => some (if f.m 0 0 == 0 then .fenceAcq f else .fenceRel f)
  | 1 => some (.lwait f)
  | _ => none

/-- Class 13 of R44. -/
def ctor13 (op : Nat) (f : Fields) : Option Instr :=
  match op with
  | 0 => some (.mcfg f)
  | 1 => some (.mlds f)
  | 2 => some (.mswp f)
  | 3 => some (.mclr f)
  | _ => none

/-- Class 14 of R44. -/
def ctor14 (op : Nat) (f : Fields) : Option Instr :=
  match op with
  | 0 => some (.mstr f)
  | 1 => some (.mrd f)
  | 2 => some (.mst f)
  | 3 => some (.mbnd f)
  | _ => none

/-- Class 15 of R44. -/
def ctor15 (op : Nat) (f : Fields) : Option Instr :=
  match op with
  | 0 => some (.tnew f)
  | 1 => some (.tdep f)
  | 2 => some (.tsub f)
  | 3 => some (.talloc f)
  | 4 => some (.tgrow f)
  | 5 => some (if f.m 0 0 == 0 then .tabortNode f else .tabortSelf f)
  | _ => none

/-- Class 16 of R44. -/
def ctor16 (op : Nat) (f : Fields) : Option Instr :=
  match op with
  | 0 => some (.ecpy f)
  | 1 => some (.egat f)
  | 2 => some (.edcp f)
  | 3 => some (.efence f)
  | 4 => some (.ewait f)
  | _ => none

/-- Class 17 of R44. -/
def ctor17 (op : Nat) (f : Fields) : Option Instr :=
  match op with
  | 0 => some (match f.m 1 0 with | 0 => .bkmodeAcq f | 1 => .bkmodeAll f | 2 => .bkmodeOne f | _ => .bkmodeRel f)
  | 1 => some (.bkbc f)
  | 2 => some (.bkmac f)
  | 3 => some (.bkop f)
  | 4 => some (.bkrd f)
  | 5 => some (if f.m 0 0 == 0 then .bkfnIn f else .bkfnOut f)
  | 6 => some (.bred f)
  | 7 => some (.bkst f)
  | _ => none

/-- Class 18 of R44. -/
def ctor18 (op : Nat) (f : Fields) : Option Instr :=
  match op with
  | 0 => some (.kbind f)
  | 1 => some (.trace f)
  | 2 => some (.tracec f)
  | 3 => some (if f.m 0 0 == 0 then .cgetLive f else .cgetHit f)
  | 4 => some (.cend f)
  | _ => none

/-- Class 19 of R44. -/
def ctor19 (op : Nat) (f : Fields) : Option Instr :=
  match op with
  | 0 => some (.tex f)
  | 1 => some (.texn f)
  | 2 => some (.texg f)
  | 3 => some (if f.m 2 2 == 0 then .pemit f else .pemitClose f)
  | 4 => some (.aemit f)
  | 5 => some (.vbrd f)
  | 6 => some (.rpq f)
  | 7 => some (if f.m 0 0 == 0 then .ccdcDec f else .ccdcEnc f)
  | 8 => some (.ccfc f)
  | _ => none

/-- Class 20 of R44. -/
def ctor20 (op : Nat) (f : Fields) : Option Instr :=
  match op with
  | 0 => some (.trap f)
  | 1 => some (.tret f)
  | 2 => some (.srd f)
  | 3 => some (.swr f)
  | 4 => some (.brk f)
  | 5 => some (.ctime f)
  | _ => none

/-- Class 31 of R44. -/
def ctor31 (op : Nat) (f : Fields) : Option Instr :=
  match op with
  | 0 => some (.hprf f)
  | 1 => some (.hpri f)
  | 2 => some (.hbranch f)
  | _ => none

/-- The instruction a major opcode names, where R44 assigns one. -/
def ctorOf (cls op : Nat) (f : Fields) : Option Instr :=
  match cls with
  | 0 => ctor0 op f
  | 1 => ctor1 op f
  | 2 => ctor2 op f
  | 3 => ctor3 op f
  | 4 => ctor4 op f
  | 5 => ctor5 op f
  | 6 => ctor6 op f
  | 7 => ctor7 op f
  | 8 => ctor8 op f
  | 9 => ctor9 op f
  | 10 => ctor10 op f
  | 11 => ctor11 op f
  | 12 => ctor12 op f
  | 13 => ctor13 op f
  | 14 => ctor14 op f
  | 15 => ctor15 op f
  | 16 => ctor16 op f
  | 17 => ctor17 op f
  | 18 => ctor18 op f
  | 19 => ctor19 op f
  | 20 => ctor20 op f
  | 31 => ctor31 op f
  | _ => none

/-- CLASS, OP and fields of a wave instruction (R44). -/
def opOf : Instr → Option (Nat × Nat × Fields)
  | .nop f => some (0, 0, f)
  | .bra f => some (0, 1, f)
  | .brs f => some (0, 2, f)
  | .brm f => some (0, 3, f)
  | .call f => some (0, 4, f)
  | .ret f => some (0, 5, f)
  | .jmpi f => some (0, 6, f)
  | .loop f => some (0, 7, f)
  | .yield f => some (0, 8, f)
  | .park f => some (0, 9, f)
  | .halt f => some (0, 10, f)
  | .getid f => some (0, 11, f)
  | .mand f => some (1, 0, f)
  | .mor f => some (1, 1, f)
  | .mxor f => some (1, 2, f)
  | .mandn f => some (1, 3, f)
  | .mnot f => some (1, 4, f)
  | .mmov f => some (1, 5, f)
  | .mpopc f => some (1, 6, f)
  | .mfirst f => some (1, 7, f)
  | .mlane f => some (1, 8, f)
  | .vote f => some (1, 9, f)
  | .sadd f => some (2, 0, f)
  | .ssub f => some (2, 1, f)
  | .smul f => some (2, 2, f)
  | .smulh f => some (2, 3, f)
  | .sdiv f => some (2, 4, f)
  | .srem f => some (2, 5, f)
  | .sand f => some (2, 6, f)
  | .sor f => some (2, 7, f)
  | .sxor f => some (2, 8, f)
  | .sshl f => some (2, 9, f)
  | .sshr f => some (2, 10, f)
  | .ssra f => some (2, 11, f)
  | .smin f => some (2, 12, f)
  | .smax f => some (2, 13, f)
  | .scmp f => some (2, 14, f)
  | .ssel f => some (2, 15, f)
  | .sli f => some (2, 16, f)
  | .smov f => some (2, 17, f)
  | .sbfe f => some (2, 18, f)
  | .sbfi f => some (2, 19, f)
  | .sclz f => some (2, 20, f)
  | .spopc f => some (2, 21, f)
  | .saddx f => some (2, 22, f)
  | .vadd f => some (3, 0, f)
  | .vsub f => some (3, 1, f)
  | .vmul f => some (3, 2, f)
  | .vmulh f => some (3, 3, f)
  | .vmad f => some (3, 4, f)
  | .vand f => some (3, 5, f)
  | .vor f => some (3, 6, f)
  | .vxor f => some (3, 7, f)
  | .vshl f => some (3, 8, f)
  | .vshr f => some (3, 9, f)
  | .vsra f => some (3, 10, f)
  | .vmin f => some (3, 11, f)
  | .vmax f => some (3, 12, f)
  | .vabs f => some (3, 13, f)
  | .vcmp f => some (3, 14, f)
  | .vsel f => some (3, 15, f)
  | .vbfe f => some (3, 16, f)
  | .vbfi f => some (3, 17, f)
  | .vpopc f => some (3, 18, f)
  | .vclz f => some (3, 19, f)
  | .vmov f => some (3, 20, f)
  | .vbcast f => some (3, 21, f)
  | .vaddx f => some (3, 22, f)
  | .vshfl f => some (3, 23, f)
  | .vscan f => some (3, 24, f)
  | .dadd f => some (4, 0, f)
  | .dsub f => some (4, 1, f)
  | .dmul f => some (4, 2, f)
  | .dfma f => some (4, 3, f)
  | .dmin f => some (4, 4, f)
  | .dmax f => some (4, 5, f)
  | .dcmp f => some (4, 6, f)
  | .dclass f => some (4, 7, f)
  | .drcpe f => some (4, 8, f)
  | .drsqe f => some (4, 9, f)
  | .dldx f => some (4, 10, f)
  | .dfrx f => some (4, 11, f)
  | .dred f => some (4, 12, f)
  | .fadd f => some (5, 0, f)
  | .fsub f => some (5, 1, f)
  | .fmul f => some (5, 2, f)
  | .ffma f => some (5, 3, f)
  | .fmin f => some (5, 4, f)
  | .fmax f => some (5, 5, f)
  | .fcmp f => some (5, 6, f)
  | .fclass f => some (5, 7, f)
  | .frcp f => some (5, 8, f)
  | .frsq f => some (5, 9, f)
  | .fex2 f => some (5, 10, f)
  | .flg2 f => some (5, 11, f)
  | .fsin f => some (5, 12, f)
  | .fcos f => some (5, 13, f)
  | .fdot2 f => some (5, 14, f)
  | .fred f => some (5, 15, f)
  | .cvt f => some (6, 0, f)
  | .cvs f => some (6, 1, f)
  | .pkd8 f => some (6, 2, f)
  | .upd8 f => some (6, 3, f)
  | .pkt3 f => some (6, 4, f)
  | .upt3 f => some (6, 5, f)
  | .mxsc f => some (6, 6, f)
  | .pkf8 f => some (6, 7, f)
  | .upf8 f => some (6, 8, f)
  | .ld f => some (7, 0, f)
  | .lda f => some (7, 1, f)
  | .lds f => some (7, 2, f)
  | .prf f => some (7, 3, f)
  | .astr f => some (7, 4, f)
  | .aend f => some (7, 5, f)
  | .ldnt f => some (7, 6, f)
  | .st f => some (8, 0, f)
  | .stl f => some (8, 1, f)
  | .sts f => some (8, 2, f)
  | .astw f => some (8, 3, f)
  | .stnt f => some (8, 4, f)
  | .spl f => some (9, 0, f)
  | .sps f => some (9, 1, f)
  | .spcl f => some (9, 2, f)
  | .spcs f => some (9, 3, f)
  | .spcp f => some (9, 4, f)
  | .atom f => some (10, 0, f)
  | .acas f => some (10, 1, f)
  | .atomf f => some (10, 2, f)
  | .red f => some (10, 3, f)
  | .redf f => some (10, 4, f)
  | .redo f => some (10, 5, f)
  | .bini f => some (11, 0, f)
  | .barr f => some (11, 1, f)
  | .bwait f => some (11, 2, f)
  | .barw f => some (11, 3, f)
  | .join f => some (11, 4, f)
  | .leave f => some (11, 5, f)
  | .drain f => some (11, 6, f)
  | .gbar f => some (11, 7, f)
  | .fenceAcq f => some (12, 0, f)
  | .fenceRel f => some (12, 0, f)
  | .lwait f => some (12, 1, f)
  | .mcfg f => some (13, 0, f)
  | .mlds f => some (13, 1, f)
  | .mswp f => some (13, 2, f)
  | .mclr f => some (13, 3, f)
  | .mstr f => some (14, 0, f)
  | .mrd f => some (14, 1, f)
  | .mst f => some (14, 2, f)
  | .mbnd f => some (14, 3, f)
  | .tnew f => some (15, 0, f)
  | .tdep f => some (15, 1, f)
  | .tsub f => some (15, 2, f)
  | .talloc f => some (15, 3, f)
  | .tgrow f => some (15, 4, f)
  | .tabortNode f => some (15, 5, f)
  | .tabortSelf f => some (15, 5, f)
  | .ecpy f => some (16, 0, f)
  | .egat f => some (16, 1, f)
  | .edcp f => some (16, 2, f)
  | .efence f => some (16, 3, f)
  | .ewait f => some (16, 4, f)
  | .bkmodeAcq f => some (17, 0, f)
  | .bkmodeAll f => some (17, 0, f)
  | .bkmodeOne f => some (17, 0, f)
  | .bkmodeRel f => some (17, 0, f)
  | .bkbc f => some (17, 1, f)
  | .bkmac f => some (17, 2, f)
  | .bkop f => some (17, 3, f)
  | .bkrd f => some (17, 4, f)
  | .bkfnIn f => some (17, 5, f)
  | .bkfnOut f => some (17, 5, f)
  | .bred f => some (17, 6, f)
  | .bkst f => some (17, 7, f)
  | .kbind f => some (18, 0, f)
  | .trace f => some (18, 1, f)
  | .tracec f => some (18, 2, f)
  | .cgetLive f => some (18, 3, f)
  | .cgetHit f => some (18, 3, f)
  | .cend f => some (18, 4, f)
  | .tex f => some (19, 0, f)
  | .texn f => some (19, 1, f)
  | .texg f => some (19, 2, f)
  | .pemit f => some (19, 3, f)
  | .pemitClose f => some (19, 3, f)
  | .aemit f => some (19, 4, f)
  | .vbrd f => some (19, 5, f)
  | .rpq f => some (19, 6, f)
  | .ccdcDec f => some (19, 7, f)
  | .ccdcEnc f => some (19, 7, f)
  | .ccfc f => some (19, 8, f)
  | .trap f => some (20, 0, f)
  | .tret f => some (20, 1, f)
  | .srd f => some (20, 2, f)
  | .swr f => some (20, 3, f)
  | .brk f => some (20, 4, f)
  | .ctime f => some (20, 5, f)
  | .hprf f => some (31, 0, f)
  | .hpri f => some (31, 1, f)
  | .hbranch f => some (31, 2, f)
  | _ => none

/-- A word of classes 0 to 30 passes steps 1 to 4 of R45; a word of class 31 has an assigned operation and no
reserved bit (R47). -/
def legalWord (w : BitVec 96) : Bool :=
  let f := fieldsOf w
  match ctorOf (classOf w) (opNumOf w) f with
  | some i => match shape i with
    | some sh => w.extractLsb' 0 8 == 0#8 && (if classOf w == 31 then hintOk sh f else shapeOk sh f)
    | none => false
  | none => false

/-- Operation number and fields of a Kite microinstruction (R388, R389). -/
def kiteOp : Instr → Option (Nat × KFields)
  | .kiteNld k => some (0, k)
  | .kiteNldRoot k => some (0, k)
  | .kiteNldChild k => some (0, k)
  | .kiteBxi k => some (1, k)
  | .kiteTxi k => some (2, k)
  | .kitePush k => some (3, k)
  | .kitePushTag k => some (3, k)
  | .kitePop k => some (4, k)
  | .kiteSrt k => some (5, k)
  | .kiteCmp k => some (6, k)
  | .kiteCmpImm k => some (6, k)
  | .kiteBr k => some (7, k)
  | .kiteBrn k => some (7, k)
  | .kiteJmp k => some (8, k)
  | .kiteJmpReg k => some (8, k)
  | .kiteHit k => some (9, k)
  | .kiteAcpt k => some (10, k)
  | .kiteCall k => some (11, k)
  | .kiteIxf k => some (12, k)
  | .kiteItl k => some (13, k)
  | .kiteMov k => some (14, k)
  | .kiteMovImm k => some (14, k)
  | .kiteMovN k => some (14, k)
  | .kiteMovT k => some (14, k)
  | .kiteAdd k => some (15, k)
  | .kiteAddImm k => some (15, k)
  | .kiteEnd k => some (16, k)
  | _ => none

/-- A Kite operation with a SUB value its row of R389 assigns; fields not used are zero, a branch target has
IMM[31:16] zero, and the register constraints of R389 hold. -/
def kiteFieldsOk : Instr → Bool
  | .kiteNld k => k.kd == 0 && k.ka == 0 && k.kb == 0 && k.sub == 0 && k.imm == 0
  | .kiteNldRoot k => k.kd == 0 && k.ka == 0 && k.kb == 0 && k.sub == 1 && k.imm == 0
  | .kiteNldChild k => k.kd == 0 && k.kb == 0 && k.sub == 2 && k.imm == 0
  | .kiteBxi k => k.kb == 0 && k.sub == 0 && k.imm == 0
  | .kiteTxi k => k.kb == 0 && k.sub == 0 && k.imm == 0 && k.kd.toNat ≤ 5
  | .kitePush k => k.kd == 0 && k.kb == 0 && k.sub == 0 && k.imm == 0
  | .kitePushTag k => k.kd == 0 && k.ka == 0 && k.kb == 0 && k.sub == 1 && 1 ≤ k.imm.toNat && k.imm.toNat ≤ 255
  | .kitePop k => k.ka == 0 && k.kb == 0 && k.sub == 0 && k.imm == 0
  | .kiteSrt k => k.ka == 0 && k.kb == 0 && k.sub == 0 && 2 ≤ k.imm.toNat && k.imm.toNat ≤ 8
      && k.kd.toNat + k.imm.toNat ≤ 8
  | .kiteCmp k => k.kd == 0 && k.sub.toNat < 8 && k.imm == 0
  | .kiteCmpImm k => k.kd == 0 && k.kb == 0 && 8 ≤ k.sub.toNat
  | .kiteBr k => k.kd == 0 && k.ka == 0 && k.kb == 0 && k.sub == 0 && k.imm.toNat < 65536
  | .kiteBrn k => k.kd == 0 && k.ka == 0 && k.kb == 0 && k.sub == 1 && k.imm.toNat < 65536
  | .kiteJmp k => k.kd == 0 && k.ka == 0 && k.kb == 0 && k.sub == 0 && k.imm.toNat < 65536
  | .kiteJmpReg k => k.kd == 0 && k.kb == 0 && k.sub == 1 && k.imm == 0
  | .kiteHit k => k.kd == 0 && k.kb == 0 && k.sub == 0 && k.imm == 0 && k.ka.toNat ≤ 5
  | .kiteAcpt k => k.kd == 0 && k.kb == 0 && k.sub == 0 && k.imm == 0 && k.ka.toNat ≤ 5
  | .kiteCall k => k.ka == 0 && k.kb == 0 && k.sub == 0 && k.imm.toNat < 65536
  | .kiteIxf k => k.kb == 0 && k.sub == 0 && k.imm == 0 && k.kd.toNat % 2 == 0
  | .kiteItl k => k.kd == 0 && k.ka == 0 && k.kb == 0 && k.sub == 0 && k.imm == 0
  | .kiteMov k => k.kb == 0 && k.sub == 0 && k.imm == 0
  | .kiteMovImm k => k.ka == 0 && k.kb == 0 && k.sub == 1
  | .kiteMovN k => k.ka == 0 && k.kb == 0 && k.sub == 2 && k.imm.toNat % 4 == 0
  | .kiteMovT k => k.ka == 0 && k.kb == 0 && k.sub == 3 && k.imm.toNat ≤ 1
  | .kiteAdd k => k.sub == 0 && k.imm == 0
  | .kiteAddImm k => k.kb == 0 && k.sub == 1
  | .kiteEnd k => k.kd == 0 && k.ka == 0 && k.kb == 0 && k.sub == 0 && k.imm == 0
  | _ => false

/-- The operation that OP and SUB name (R389). -/
def kiteCtor (op : Nat) (k : KFields) : Option Instr :=
  match op with
  | 0 => match k.sub.toNat with | 0 => some (.kiteNld k) | 1 => some (.kiteNldRoot k) | 2 => some (.kiteNldChild k) | _ => none
  | 1 => some (.kiteBxi k)
  | 2 => some (.kiteTxi k)
  | 3 => match k.sub.toNat with | 0 => some (.kitePush k) | 1 => some (.kitePushTag k) | _ => none
  | 4 => some (.kitePop k)
  | 5 => some (.kiteSrt k)
  | 6 => if k.sub.toNat < 8 then some (.kiteCmp k) else some (.kiteCmpImm k)
  | 7 => match k.sub.toNat with | 0 => some (.kiteBr k) | 1 => some (.kiteBrn k) | _ => none
  | 8 => match k.sub.toNat with | 0 => some (.kiteJmp k) | 1 => some (.kiteJmpReg k) | _ => none
  | 9 => some (.kiteHit k)
  | 10 => some (.kiteAcpt k)
  | 11 => some (.kiteCall k)
  | 12 => some (.kiteIxf k)
  | 13 => some (.kiteItl k)
  | 14 => match k.sub.toNat with
    | 0 => some (.kiteMov k) | 1 => some (.kiteMovImm k) | 2 => some (.kiteMovN k) | 3 => some (.kiteMovT k) | _ => none
  | 15 => match k.sub.toNat with | 0 => some (.kiteAdd k) | 1 => some (.kiteAddImm k) | _ => none
  | 16 => some (.kiteEnd k)
  | _ => none

end Sys2Proof.Machine
end

