-- ==== Sys2Proof/WellFormed.lean ====
section
/-! DEFINITION. Which instructions a word can hold. -/

namespace Sys2Proof

/-- A wave instruction is well formed when its word passes steps 1 to 4 of R45 (a hint: when it has no reserved bit,
R47); a reserved word or hint no-operation when its word is none of these; a Kite microinstruction by R388 and R389.
An event of the part is no word. -/
def wellFormed (i : Instr) : Bool :=
  match i with
  | .reservedWord w => !Machine.legalWord w && Machine.classOf w != 31
  | .hintNop w => !Machine.legalWord w && Machine.classOf w == 31
  | _ => match Machine.opOf i with
    | some (cls, _, f) => match Machine.shape i with
      | some sh => if cls == 31 then Machine.hintOk sh f else Machine.shapeOk sh f
      | none => false
    | none => Machine.kiteFieldsOk i

/-- An instruction whose word is a Nimain word of 96 bits. -/
def isWaveInstr (i : Instr) : Bool :=
  match i with
  | .reservedWord _ | .hintNop _ => true
  | _ => (Machine.opOf i).isSome

/-- An instruction that is a Kite microinstruction word. -/
def isKiteInstr (i : Instr) : Bool := (Machine.kiteOp i).isSome

end Sys2Proof
end

