-- ==== Sys2Proof/Decode.lean ====
section
/-! DEFINITION. Decoding of instruction bytes and of Kite words, total on any bytes, and the encoder. -/

namespace Sys2Proof

/-- Why bytes hold no instruction. -/
inductive DecodeError where
  /-- Fewer than 12 bytes (R25), or fewer than 8 for a Kite word (R388). -/
  | tooShort
  /-- A Kite word with a reserved OP, bit or SUB value, or a register constraint of R389 broken (R392: ILLEGAL). -/
  | kiteIllegal
  deriving DecidableEq, Repr

/-- The number that little-endian bytes hold (R5). -/
def leNat : List Byte → Nat
  | [] => 0
  | b :: bs => b.toNat + 256 * leNat bs

/-- n little-endian bytes of a number (R5). -/
def leBytes : Nat → Nat → List Byte
  | 0, _ => []
  | n + 1, v => BitVec.ofNat 8 v :: leBytes n (v / 256)

/-- The instruction of a 96-bit word. A word that fails steps 1 to 4 of R45 is a reserved word; a word of class 31
that names no hint, or a hint with a reserved bit, is a no-operation (R47). -/
def decodeWord (w : BitVec 96) : Instr :=
  if Machine.legalWord w then
    match Machine.ctorOf (Machine.classOf w) (Machine.opNumOf w) (Machine.fieldsOf w) with
    | some i => i
    | none => .reservedWord w
  else if Machine.classOf w == 31 then .hintNop w
  else .reservedWord w

/-- The instruction at the head of a byte sequence (R25), with the bytes after it. -/
def decode (bs : List Byte) : Except DecodeError (Instr × List Byte) :=
  if bs.length < 12 then .error .tooShort
  else .ok (decodeWord (BitVec.ofNat 96 (leNat (bs.take 12))), bs.drop 12)

/-- The Kite microinstruction of a 64-bit word (R388). -/
def decodeKiteWord (w : BitVec 64) : Except DecodeError Instr :=
  let k : KFields := { kd := w.extractLsb' 56 3, ka := w.extractLsb' 53 3, kb := w.extractLsb' 50 3
                       sub := w.extractLsb' 46 4, imm := w.extractLsb' 0 32 }
  if w.extractLsb' 32 14 != 0#14 then .error .kiteIllegal
  else match Machine.kiteCtor (w.extractLsb' 59 5).toNat k with
    | some i => if Machine.kiteFieldsOk i then .ok i else .error .kiteIllegal
    | none => .error .kiteIllegal

/-- The Kite microinstruction at the head of a byte sequence. -/
def decodeKite (bs : List Byte) : Except DecodeError Instr :=
  if bs.length < 8 then .error .tooShort else decodeKiteWord (BitVec.ofNat 64 (leNat (bs.take 8)))

/-- The 96-bit word of a wave instruction (R24, R44). -/
def encodeWord (i : Instr) : Option (BitVec 96) :=
  match i with
  | .reservedWord w => some w
  | .hintNop w => some w
  | _ => (Machine.opOf i).map fun (cls, op, f) => Machine.wordOf cls op f

/-- The 64-bit word of a Kite microinstruction (R388). -/
def encodeKiteWord (i : Instr) : Option (BitVec 64) :=
  (Machine.kiteOp i).map fun (op, k) =>
    BitVec.ofNat 5 op ++ k.kd ++ k.ka ++ k.kb ++ k.sub ++ 0#14 ++ k.imm

/-- The bytes of an instruction: 12 for a wave instruction, 8 for a Kite microinstruction, none for an event. -/
def encode (i : Instr) : List Byte :=
  match encodeWord i with
  | some w => leBytes 12 w.toNat
  | none => match encodeKiteWord i with
    | some w => leBytes 8 w.toNat
    | none => []

/-- The instruction the decoder reads from a row's bits, laid out in memory order: a Kite word where the row has 64
bits (R388), otherwise the 96-bit word whose low bits they are (R25). -/
def decodeTableWord (nbits w : Nat) : Option Instr :=
  if nbits == 64 then (decodeKite (leBytes 8 w)).toOption
  else (decode (leBytes 12 w)).toOption.map (·.1)

end Sys2Proof
end

