-- ==== Sys2Proof/Machine/State.lean ====
section
/-! DEFINITION. The state of the machine as plain data: waves, memory and its caches, tasks, contexts, the units that
act on their own, and the schedule that says what happens next. -/

namespace Sys2Proof.Machine

/-- Why a step stops with a fault. -/
inductive Fault where
  /-- Raised by every wave instruction when no wave is selected for it: the instruction stands outside any issue turn.
  Safe: the hardware never issues an instruction without a wave. -/
  | noWave
  /-- Raised by every Kite microinstruction when no ray is selected for it. Safe, for the same reason. -/
  | noRay
  deriving DecidableEq, Repr

/-- Why an instruction has no meaning here. -/
inductive Refusal where
  /-- Raised by Dispatch for an instruction the model gives no meaning yet. Safe: nothing can be proved of its effect. -/
  | notModelled (mnemonic : String)
  deriving DecidableEq, Repr

/-! ### Memory -/

/-- Bytes by address: addresses rise strictly, and no entry equals 0, which every unlisted address reads as (log
entry 1). -/
abbrev Memory := List Host.Cell

/-- What an unlisted address of any memory reads as (log entry 1). -/
def unlisted : Byte := 0#8

/-- The canonical form from a lower bound on. -/
def Memory.wfFrom (lo : Nat) : Memory → Bool
  | [] => true
  | (a, b) :: m => decide (lo ≤ a) && b != unlisted && Memory.wfFrom (a + 1) m

/-- The canonical form: addresses rise strictly and no entry is the unlisted byte. -/
def Memory.wf (m : Memory) : Bool := Memory.wfFrom 0 m

/-- What a page translation gives (R163): the frame address of the access and the permission and placement fields. `never`
marks a page of HOME 11 whose line keeps an earlier home while copies of it are on chip (R165). -/
structure Trans where
  pa : Nat
  w : Bool
  x : Bool
  g : Bool
  sro : Bool
  home : Nat
  core : Nat
  bank : Bool
  never : Bool := false
  deriving DecidableEq, Repr

/-- A line on chip below L1: in a home slice, in a pinned place, or, with `vc`, in the victim cache of its stack, which
holds what home slices have evicted (R14, R165, R170, R236); `first` marks a line that `ldnt` has put first for eviction
(R179). Version bytes are in `Family.writes`. -/
structure HomeLine where
  asid : Nat
  line : Nat
  data : List Byte
  dirty : Bool
  emax : Nat
  gen : Nat
  tr : Trans
  vc : Bool := false
  first : Bool := false
  deriving DecidableEq, Repr

/-- An L1 data line of a core (R169, R170, R237), with the family for which it was read, the family whose version data it holds
(R240), and the reading of a whole colour tile that has installed it (R418). -/
structure L1Line where
  core : Nat
  asid : Nat
  line : Nat
  data : List Byte
  expiry : Nat
  gen : Nat
  tr : Trans
  fam : Option Nat
  asker : Option Nat := none
  whole : Option Nat := none
  deriving DecidableEq, Repr

/-- Bytes of a line that software has written, with the write's place in the order of names, and whether it was an ordinary
store of a wave. -/
structure WriteCell where
  off : Nat
  size : Nat
  ord : Nat
  plain : Bool
  deriving DecidableEq, Repr

/-- The latest writes of software to a line, which rays and passes in progress and compressed tiles may meet (R401, R407, R420,
R423). -/
structure WriteLine where
  asid : Nat
  line : Nat
  cells : List WriteCell
  deriving DecidableEq, Repr

/-- An L1 instruction line of a core (R170, R175). -/
structure ILine where
  core : Nat
  asid : Nat
  line : Nat
  data : List Byte
  gen : Nat
  tr : Trans
  deriving DecidableEq, Repr

/-- A channel TLB entry: the translation of one 8 KiB page under a generation (R170, R449). -/
structure TlbEntry where
  asid : Nat
  page : Nat
  gen : Nat
  tr : Trans
  deriving DecidableEq, Repr

/-- A line owned by a die's cluster atomic unit and the tick of its last `.cluster` atomic (R203). -/
structure ClusterLine where
  die : Nat
  asid : Nat
  line : Nat
  last : Nat
  deriving DecidableEq, Repr

/-- A scratchpad allocation of a task on a core (R193), with the offsets of the troupe words in it: the words whose INIT a
`bini` or the Puppeteer has set (R221, R227). -/
structure Spad where
  node : Nat
  core : Nat
  size : Nat
  bytes : Memory
  words : List Nat := []
  deriving DecidableEq, Repr

/-! ### Fault records -/

/-- The fields of a fault record (R424). -/
structure FaultRec where
  code : Nat := 0
  cause : Nat := 0
  flags : Nat := 0
  source : Nat := 0
  task : Nat := 0
  pc : Word64 := 0
  addr : Word64 := 0
  mask : Word := 0
  opnd : Nat := 0
  loc : Nat := 0
  time : Nat := 0
  asid : Nat := 0
  slot : Nat := 0
  ray : Nat := 0
  info : Nat := 0
  seq : Nat := 0
  deriving DecidableEq, Repr

/-- What waits for the reply to a record (R428), or the wave whose task ends once the record is written (R427, R431). -/
inductive Waiter where
  | wave (wid : Nat)
  | debug (wid : Nat)
  | stream (sid : Nat)
  | entry (eid : Nat)
  | ray (rid : Nat)
  | array (core quad bank : Nat)
  | bankCmd (cid : Nat)
  | job (jid : Nat)
  | pass (asid desc : Nat)
  | access (id : Nat)
  | ends (wid : Nat)
  | nothing
  deriving DecidableEq, Repr

/-! ### Waves -/

/-- A vector register: its full/empty bit and its 32 lanes (R11, R38). -/
structure VReg where
  full : Bool
  lanes : List Word
  deriving DecidableEq, Repr

/-- What ends a park (R108). -/
inductive ParkSrc where
  | time
  | full (reg : Nat)
  | troupe
  deriving DecidableEq, Repr

/-- What a wave in state Barrier waits for (R225, R226). -/
inductive BarWhy where
  | release (phase : Nat)
  | phaseNot (phase : Nat)
  | drain (arrive : Bool)
  deriving DecidableEq, Repr

/-- The scheduling states of R93; state Handler is `Wave.hnd` beside one of these. -/
inductive WSt where
  | ready
  | blocked
  | parked (src : ParkSrc) (until_ : Option Nat)
  | barrier (why : BarWhy)
  | replay
  | debugStop
  | halting
  | halted
  deriving DecidableEq, Repr

/-- The place of a troupe word: the task, the core that holds it and its offset (R221, R224). -/
structure TroupeRef where
  core : Nat
  off : Nat
  deriving DecidableEq, Repr

/-- An instruction held in Replay: its unfinished lanes, the landing group of its finished lanes, the records that it has made so
far, which its repeated-fault counter counts (R172, R173), and the page that it waits for where the part parked it without a
record (R457, R461). -/
structure ReplayRec where
  todo : Word
  gid : Option Nat
  count : Nat
  park : Option Nat := none
  deferred : Bool := false
  deriving DecidableEq, Repr

/-- A continuation record that a continuation wave serves, one per lane (R384, R396). -/
structure ContLane where
  lane : Nat
  ray : Nat
  laneIdx : Word
  deriving DecidableEq, Repr

/-- A wave (R92, R93, R429) with its registers. `ageSub` orders waves swapped in at one cycle (R97), `held` marks a wave whose
unresolved trap waits for room in the fault queue (R427), and `ending` one that halts at its next instruction boundary
because its task ends (R308, R431); a gang's wave that has issued nothing yet has a `startAt`, its first tick (R319); `bndFrom` is the place in the order of names of an
`mbnd` that waits (R293). -/
structure Wave where
  wid : Nat
  node : Nat
  asid : Nat
  idx : Nat := 0
  core : Nat := 0
  quad : Nat := 0
  bank : Nat := 0
  slot : Nat := 0
  st : WSt := .ready
  pc : Word64 := 0
  exec : Word := allLanes
  p : List Word := List.replicate 8 0
  s : List Word := List.replicate 64 0
  x : List Word := List.replicate 4 0
  v : List VReg
  q : List (Option Nat) := List.replicate 8 none
  fpmode : Word := 0
  fpflags : Word := 0
  hnd : Bool := false
  trapRec : FaultRec := {}
  epc : Word64 := 0
  eexec : Word := 0
  supp : Bool := false
  stepping : Bool := false
  troupe : Option TroupeRef := none
  latch : Bool := false
  age : Nat := 0
  ageSub : Nat := 0
  waitCtr : Nat := 0
  hpri : Nat := 0
  range : Word := 0
  outst : Nat := 0
  relMark : Nat := 0
  rp : Option ReplayRec := none
  tallocs : Nat := 0
  cont : Option Nat := none
  contLanes : List ContLane := []
  cendDone : Bool := false
  pending : Option Nat := none
  startAt : Nat := 0
  spilled : Bool := false
  displaced : Bool := false
  held : Bool := false
  ending : Bool := false
  bndFrom : Option Nat := none
  deriving DecidableEq, Repr

/-- One entry of an operand queue: 32 values and a mask: the faulting lanes of a fetched entry, or the pushed lanes. A fetched
entry keeps whether its wave has been `told` of the fault, and whether its release is due `again` to read it (R189). -/
structure QEntry where
  vals : List Nat
  mask : Word := 0
  addr : Word64 := 0
  cause : Nat := 0
  range : Word := 0
  id : Nat := 0
  told : Bool := false
  again : Bool := false
  deriving DecidableEq, Repr

/-- A stream of a quadrant's wind-up engine (R187 to R192). `next` is the next element to fetch or to push; a stream is
`mixed` when its wave has popped or ended it while an array command reads from it (R295). A store stream that a fault has
`stopped` keeps whether its wave has been `told`, whether its release is due to store `again`, and the access's repeated faults
in `count` (R173, R190). A load stream whose entries a spill has discarded keeps in `toldAt` the places of those that its wave has
been told of (R192, R201). -/
structure Stream where
  sid : Nat
  wid : Nat
  qn : Nat
  write : Bool
  sp : Bool
  ty : Nat
  base : Nat
  dims : List (Nat × Int)
  total : Nat
  next : Nat := 0
  stored : Nat := 0
  entries : List QEntry := []
  ended : Bool := false
  stopped : Bool := false
  told : Bool := false
  toldAt : List Nat := []
  again : Bool := false
  count : Nat := 0
  mixed : Bool := false
  deriving DecidableEq, Repr

/-- What an access in flight does when it is performed. -/
inductive AccKind where
  | load (acquire install signed : Bool)
  | store (release : Bool)
  | atom (op : Nat) (signed ret : Bool)
  | cas
  | atomf (op ty : Nat) (ret : Bool)
  | redo (dbl : Bool)
  | talloc (lanes : List (Nat × Nat))
  | copy (dst : Nat)
  | line (esz : Nat) (bytes : List (Nat × Byte))
  | tile (op tile colour : Nat)
  | host (op : PortOp)
  deriving DecidableEq, Repr

/-- Where an access in flight stands: issued, performed at its place, or held by an open generation (R218). -/
inductive AccSt where
  | issued | deferred | performed
  deriving DecidableEq, Repr

/-- Where an access is performed: the global space, or the scratchpad of a core. -/
inductive Space where
  | glob | spad (core : Nat)
  deriving DecidableEq, Repr

/-- One lane's access in flight. Its id gives its place in the wave's program order; `ord` is the arrival stamp of a
deferred atomic, `replayed` marks one that a replay of its instruction has issued (R237), and `lock` is the page whose migration
has parked it (R252). One that a save has withdrawn is executed again as a replay (R440, R441): `told` marks that a record of its
lane waits for a reply, and `count` its repeated faults (R173). `fam` is the family of its task when it was issued. -/
structure Access where
  id : Nat
  gid : Nat
  wid : Nat
  node : Nat
  fam : Option Nat := none
  core : Nat
  lane : Nat
  kind : AccKind
  space : Space
  scope : Nat := 0
  asid : Nat
  addr : Nat
  size : Nat
  data : Nat := 0
  data2 : Nat := 0
  st : AccSt := .issued
  result : Nat := 0
  flags : Nat := 0
  gwct : Nat := 0
  sid : Option Nat := none
  since : Nat := 0
  cached : Bool := true
  pc : Word64 := 0
  ord : Nat := 0
  replayed : Bool := false
  lock : Option Nat := none
  withdrawn : Bool := false
  told : Bool := false
  count : Nat := 0
  deriving DecidableEq, Repr

/-- The byte ranges of an access in its space. -/
def Access.ranges (a : Access) : List (Nat × Nat) :=
  match a.kind with
  | .tile _ tile _ => [(a.addr, 1), (tile, 256)]
  | _ => [(a.addr, a.size)]

/-- A range of bytes that an access reads or writes. -/
structure Piece where
  space : Space
  addr : Nat
  size : Nat
  writes : Bool
  deriving DecidableEq, Repr

/-- Whether an access kind writes where its address lies. -/
def AccKind.writesAt : AccKind → Bool
  | .load _ _ _ | .copy _ => false
  | _ => true

/-- Every range that an access touches: a copy reads its source and writes the scratchpad of its own core (R198). -/
def Access.pieces (a : Access) : List Piece :=
  (a.ranges.map fun r => { space := a.space, addr := r.1, size := r.2, writes := a.kind.writesAt })
    ++ (match a.kind with | .copy dst => [{ space := .spad a.core, addr := dst, size := a.size, writes := true }] | _ => [])

/-- Whether an access touches the scratchpad of a core. -/
def Access.onSpad (a : Access) (core : Nat) : Bool := a.pieces.any fun p => p.space == .spad core

/-- Where the results of a landing group go. -/
inductive LandDest where
  | vec (reg words : Nat)
  | scal (reg words : Nat)
  | regs (list : List Nat)
  | none
  deriving DecidableEq, Repr

/-- The destination of a long-latency producer in flight (R38); `held` while lanes are unfinished (R173). `vals` are
lane values that came without an access: L1 hits and results of other units. -/
structure Landing where
  gid : Nat
  wid : Nat
  dest : LandDest
  load : Bool
  held : Bool := false
  ready : Bool := true
  vals : List (Nat × Nat) := []
  flags : Nat := 0
  deriving DecidableEq, Repr

/-- A message between the gang words of two dies: an arrival forwarded to the root, or its release (R229). -/
structure GangMsg where
  node : Nat
  die : Nat
  release : Bool
  deriving DecidableEq, Repr

/-! ### Tasks -/

/-- A launch record (R61). -/
structure LaunchRec where
  entry : Word64 := 0
  count : Nat := 0
  regs : Nat := 1
  accum : Nat := 0
  tiles : Nat := 0
  scratch : Nat := 0
  prio : Nat := 0
  det : Bool := false
  noversion : Bool := false
  idem : Bool := false
  gang : Bool := false
  classB : Bool := false
  gword : Nat := 0
  args : Word64 := 0
  handler : Word64 := 0
  deriving DecidableEq, Repr

inductive NodeKind where
  | krn | eng | red | cont
  deriving DecidableEq, Repr

/-- The stages of a node (R20, R300, R307, R320, R323). -/
inductive Stage where
  | unsubmitted | waiting | ready | running | complete | stopped
  deriving DecidableEq, Repr

/-- A task node (R300 to R307). `nid` is the model's own name of the node; `birth` is the family whose commit accepts it,
`specChild` marks a child created while its parent was speculative (R320), `tallocDone` lists the `talloc`s its waves have
performed (R328), `avoid` the cores that a rerun keeps off (R331), and `settled` marks a complete task whose effects the retirement
of its family's owner has committed (R330). `checked` counts the reruns after machine checks, which its record tells (R322), `gangAt` holds the places of a gang's words (R227), and `restart` marks one that a function reset has left to run again (R454). -/
structure Node where
  nid : Nat
  die : Nat := 0
  slot : Nat := 0
  tag : Nat := 0
  asid : Nat
  queue : Nat := 0
  kind : NodeKind := .krn
  index : Option Nat := none
  launch : LaunchRec := {}
  tileDescs : List (List Byte) := []
  card : List Byte := []
  source : Nat := 0
  creator : Option Nat := none
  fam : Option Nat := none
  preds : List Nat := []
  stage : Stage := .unsubmitted
  status : Nat := 0
  reruns : Nat := 0
  checked : Nat := 0
  redoFlags : Nat := 0
  placed : Nat := 0
  halts : List Nat := []
  readyAt : Nat := 0
  passed : Bool := false
  owner : Option Nat := none
  contNum : Nat := 0
  contRan : Bool := false
  birth : Option Nat := none
  specChild : Bool := false
  rejected : Bool := false
  avoid : List Nat := []
  tallocDone : List (Nat × Nat) := []
  recs : List ContLane := []
  startMark : Nat := 0
  settled : Bool := false
  gangAt : List TroupeRef := []
  restart : Bool := false
  deriving DecidableEq, Repr

/-- The version states of R323. -/
inductive VSt where
  | spec | hold | direct
  deriving DecidableEq, Repr

/-- A version family (R304, R323): its owner and the bytes written into its version, by virtual address. `gwct` is the largest of
its committed writes; writes that it held in HOLD wait until the clock has passed `holdTo` (R321). -/
structure Family where
  fid : Nat
  owner : Nat
  asid : Nat
  st : VSt := .spec
  writes : List (Nat × Byte) := []
  committed : Bool := false
  gwct : Nat := 0
  holdTo : Nat := 0
  deriving DecidableEq, Repr

/-- An exact sum: `num` times 2 to the power `-exactScale` (R215). -/
structure RedoEntry where
  asid : Nat
  addr : Nat
  fam : Nat
  gen : Nat
  dbl : Bool
  sum : Int := 0
  pinf : Bool := false
  ninf : Bool := false
  nan : Bool := false
  snan : Bool := false
  overflow : Bool := false
  order : Nat := 0
  deriving DecidableEq, Repr

/-- The current generation of a line with open entries, and whether a deferred atomic sealed the one before (R218). -/
structure RedoLine where
  asid : Nat
  line : Nat
  gen : Nat
  deriving DecidableEq, Repr

/-! ### Contexts -/

/-- A host ring (R451, R452): the device read index, the doorbell index and the OVERRUN state. -/
structure Ring where
  base : Nat
  slots : Nat
  next : Nat := 0
  door : Nat := 0
  overrun : Bool := false
  deriving DecidableEq, Repr

/-- A task queue (R301, R321, R323): the next INDEX and the status that stopped it. -/
structure TQueue where
  next : Nat := 0
  stopped : Option Nat := none
  deriving DecidableEq, Repr

/-- The watchdog states of R439. -/
inductive WdSt where
  | armed | saving | saved | lost
  deriving DecidableEq, Repr

/-- A migration in progress: its block, the lines it has copied and whether it holds the lock of the next one (R252, R457). -/
structure Migration where
  block : Nat
  va : Nat
  leaf : Nat
  compl : Nat
  lines : Nat := 0
  locked : Bool := false
  started : Bool := false
  deriving DecidableEq, Repr

/-- A live context: its descriptor (R446) and the state the part keeps for it. A generation raise in progress keeps whether its number
has `wrapped` (R449), and `moves` the completion words of migrations that wait for it (R457). The pages that a migration against R456
has named are `openPages`. -/
structure Context where
  asid : Nat
  desc : Nat := 0
  lease : Nat := Config.defaultLease
  wdogMs : Nat := Config.defaultWdogMs
  root : Nat := 0
  rings : List Ring := []
  qen : Word64 := 0
  qdie : Word64 := 0
  quota : Nat := 65536
  debug : Bool := false
  vector : Nat := 0
  evq : Nat := 0
  evslots : Nat := 64
  fq : Nat := 0
  fqslots : Nat := 64
  save : Nat := 0
  raybase : Nat := 0
  raycap : Nat := 0
  mattab : Nat := 0
  journal : Nat := 0
  gen : Nat := 0
  busy : Bool := false
  wrapped : Bool := false
  moves : List Nat := []
  heldReplies : List (Nat × Nat) := []
  queues : List TQueue := List.replicate 64 {}
  evWr : Nat := 0
  evWait : List (List Byte) := []
  fqWr : Nat := 0
  seq : Nat := 0
  fqWait : List (FaultRec × Waiter) := []
  waiting : List (Nat × Waiter × FaultRec) := []
  wd : WdSt := .armed
  wdFrom : Nat := 0
  saveFrom : Nat := 0
  restoring : Bool := false
  benched : Bool := false
  benchReported : Bool := false
  migs : List Migration := []
  openPages : List Nat := []
  deriving DecidableEq, Repr

/-! ### Cores and quadrants -/

/-- A quadrant that is not as at reset: active bank (R316) and whether its shadow bank is armed (log entry 4). -/
structure Quad where
  core : Nat
  quad : Nat
  active : Nat := 0
  armed : Bool := true
  deriving DecidableEq, Repr

/-- A debug comparator that the host has written (R436): 128 bits. -/
structure Comparator where
  core : Nat
  idx : Nat
  value : BitVec 128
  deriving DecidableEq, Repr

/-- A wave waiting for a functional unit and the cycle in which its request reached the unit (R95). -/
structure UnitWait where
  unit : Nat
  wid : Nat
  at_ : Nat := 0
  deriving DecidableEq, Repr

/-- A datapath unit of a quadrant that an instruction occupies until a cycle (R117, R136). -/
structure UnitBusy where
  unit : Nat
  until_ : Nat
  deriving DecidableEq, Repr

/-! ### Arrays (R254 to R299) -/

/-- A segment that the slicer has cut (R261, R262): its weight exponent, shift fields, slices and marks; bit i of
`marks` is set when slice i is not all zero. -/
structure Seg where
  w : Int := 0
  shifts : List Nat := []
  slices : List (List Int) := []
  loss : Bool := false
  drop : Bool := false
  special : Bool := false
  marks : Nat := 0
  deriving DecidableEq, Repr

/-- A column of a B plane: one slice of its segment, and the K index of each kept element (R282 to R284). -/
structure PlaneCol where
  slice : List Int := []
  shifts : List Nat := []
  sel : List Nat := []
  w : Int := 0
  loss : Bool := false
  drop : Bool := false
  special : Bool := false
  marks : Nat := 0
  deriving DecidableEq, Repr

/-- A plane with its tag (R282). -/
structure Plane where
  loaded : Bool := false
  bf : Nat := 0
  bmx : Bool := false
  s : Nat := 0
  sparse : Bool := false
  j : Nat := 0
  cols : List PlaneCol := []
  deriving DecidableEq, Repr

/-- An accumulator: wide (R267) or FP32 (R269); `y` is an FP32 code. -/
structure Accum where
  opened : Bool := false
  acc : Int := 0
  alpha : Int := 0
  y : Nat := 0
  special : Bool := false
  loss : Bool := false
  drop : Bool := false
  skip : Bool := false
  trunc : Bool := false
  renorm : Bool := false
  inexact : Bool := false
  n : Nat := 0
  ni : Nat := 0
  sMin : Option Nat := none
  sSkip : Option Nat := none
  opener : Option Nat := none
  deriving DecidableEq, Repr

/-- What an array command does, with its operands as read at issue (R279 to R292). -/
inductive ArrOp where
  | cfg
  | lds (sp img : Bool) (j base pitch : Nat)
  | swp
  | clr (f32 anc : Bool) (first count : Nat) (anchor : Int)
  | str (sp : Bool) (base src rows rs pitch : Nat) (sid scale : Option Nat)
  | rd (gid base rm : Nat)
  | st (rm : Nat) (sr sp : Bool) (dst base pitch rows rs : Nat)
  deriving DecidableEq, Repr

/-- A command of an array command queue with the configuration the queue view gives it (R278) and its progress: the
pass i and row m reached by a stream, the rows it has sliced, the bytes popped for its next row, and the store lines an
`mst` has sent. -/
structure ArrCmd where
  id : Nat
  wid : Nat
  pc : Word64
  cfg : Nat
  op : ArrOp
  started : Bool := false
  pass : Nat := 0
  row : Nat := 0
  segs : List Seg := []
  scales : List (List Byte) := []
  part : List Byte := []
  sent : Nat := 0
  deriving DecidableEq, Repr

/-- A deferred fault (R191, R296, R371): the record's fields until the issuing wave takes it, whether it was `told`, and whether the
release is due to perform a bank command `again` (R201). -/
structure Deferred where
  code : Nat
  cause : Nat := 0
  addr : Nat := 0
  mask : Word := 0
  told : Bool := false
  again : Bool := false
  deriving DecidableEq, Repr

/-- The array state of a quadrant's bank under its holder (R254, R256). FP32 units are those in `f32`; accumulators not
listed are closed, or +0 (R287). Wide accumulator a has key 8a, FP32 accumulator a has key a. After a release the head command
is due `again` (R296), and `count` is its counter of repeated faults (R173). -/
structure ArrayBank where
  core : Nat
  quad : Nat
  bank : Nat
  holder : Nat
  grant : Nat
  cfg : Option Nat := none
  active : Plane := {}
  shadow : Plane := {}
  loading : Option Plane := none
  mbound : Word := 0x80FF0000#32
  queue : List ArrCmd := []
  f32 : List Nat := []
  accs : List (Nat × Accum) := []
  fault : Option Deferred := none
  again : Bool := false
  count : Nat := 0
  fkey : Option Nat := none
  deriving DecidableEq, Repr

/-! ### Abacus banks and reduction engines (R350 to R374) -/

/-- The registers of one Abacus (R352, R353): ba0 to ba7 as 32-bit codes, bo0, bo1 and bs as 16-bit codes. -/
structure Abacus where
  ba : List (List Nat) := List.replicate 8 (List.replicate 16 0)
  bo : List (List Nat) := List.replicate 3 (List.replicate 16 0)
  flags : Nat := 0
  cmds : Nat := 0
  deriving DecidableEq, Repr

/-- A pseudo-channel that is not FREE (R354): its holder, the wave that acquired it and its 16 units. -/
structure Pch where
  num : Nat
  holder : Nat
  acqWave : Nat
  all : Bool := false
  units : List Abacus := List.replicate 16 {}
  deriving DecidableEq, Repr

/-- What a bank command does (R360 to R365), with its operands as read at issue. -/
inductive BankOp where
  | bc (all : Bool) (reg b0 : Nat) (m : Word) (vals : List Nat)
  | mac (fmt n d g s0 : Nat)
  | op (op : Nat) (row : Bool) (fmt n d bo sel : Nat)
  | st (reg cv : Nat)
  | rd (gid reg b0 count : Nat) (m : Word)
  | fnIn (pages : Nat)
  | fnOut (pages : Nat)
  deriving DecidableEq, Repr

/-- A bank command that has not been performed; one at work has performed `pos` columns of its walk, whose `pages` it checked when the
walk began, and `count` is its counter of repeated faults (R173, R371). -/
structure BankCmd where
  pages : List Nat := []
  cid : Nat
  wid : Nat
  node : Nat
  asid : Nat
  core : Nat
  pc : Word64
  addr : Nat
  op : BankOp
  fault : Option Deferred := none
  pos : Nat := 0
  count : Nat := 0
  fkey : Option Nat := none
  deriving DecidableEq, Repr

/-- The progress of a reduction job (R368): the sum computed, the bytes of DST already written and the largest Emax so far, or
the flag due once the clock has passed a tick. -/
inductive JobSt where
  | queued
  | writing (vals : List Byte) (done flags gwct : Nat)
  | flagging (status flags gwct : Nat)
  deriving DecidableEq, Repr

/-- A reduction job accepted from a wave's `bred` or from a `.red` node (R366 to R369), with the address of its last fault and its
counter of repeated ones (R173). -/
structure Job where
  jid : Nat
  wid : Nat
  node : Nat
  asid : Nat
  pc : Word64
  stack : Nat
  sbase : Nat
  dst : Nat
  flag : Nat
  len : Nat
  ty : Nat
  soffs : List Nat
  byNode : Bool := false
  st : JobSt := .queued
  stopped : Bool := false
  fkey : Option Nat := none
  count : Nat := 0
  deriving DecidableEq, Repr

/-! ### Engines (R333 to R347) -/

/-- What an engine entry does: a copy, a job card read when it starts, a card kept in the node store, or a fence. -/
inductive EngOp where
  | copy (dst src len : Nat) (nt : Bool)
  | card (addr : Nat) (lz : Bool)
  | kept (addr : Nat) (bytes : List Byte)
  | fence (mask : Nat)
  deriving DecidableEq, Repr

/-- An engine entry and its progress: the card and input bytes read, the bytes to write, the element reached, how many
bytes have been written, the largest GWCT, the status it ends with, and the address of its last fault with its counter;
`performed` entries wait for their completion. -/
structure EngEntry where
  eid : Nat
  wid : Option Nat
  node : Nat
  asid : Nat
  queue : Option Nat
  pc : Word64
  gid : Option Nat := none
  core : Option Nat := none
  die : Nat := 0
  started : Bool := false
  op : EngOp
  card : Option (List Byte) := none
  inBuf : List Byte := []
  out : List Byte := []
  pos : Nat := 0
  written : Nat := 0
  gwct : Nat := 0
  status : Option Nat := none
  performed : Bool := false
  stopped : Bool := false
  fkey : Option Nat := none
  count : Nat := 0
  deriving DecidableEq, Repr

/-! ### Rays (R377 to R399) -/

/-- The fields of a compiled layout (R386). -/
structure Layout where
  nodeSize : Nat
  boxFmt : Nat
  nBox : Nat
  boxOff : Nat
  frameOff : Nat
  childEnc : Nat
  childOff : Nat
  cScale : Nat
  leafFmt : Nat
  nLeaf : Nat
  leafOff : Nat
  instSize : Nat
  xformOff : Nat
  rootOff : Nat
  indexOff : Nat
  deriving DecidableEq, Repr

/-- A binding table entry (R380), with the layout read when it was bound. -/
structure Binding where
  asid : Nat
  slot : Nat
  prog : Nat
  root : Nat
  plen : Nat
  lay : Layout
  since : Nat := 0
  deriving DecidableEq, Repr

/-- Where a ray stands: on a ray queue, in a core's Kite, suspended on a fault, ended with its record ready, or held by
a continuation wave's node (R394, R395). -/
inductive RayAt where
  | queued
  | kite (core : Nat)
  | faulted
  | ended
  | inWave (node : Nat)
  deriving DecidableEq, Repr

/-- A ray with its record (R393), its continuation record (R382) and the copies outside the record (R387): the node
buffer, the instance copy and the repeated-fault counter. FP32 values are codes. -/
structure Ray where
  rid : Nat
  asid : Nat
  num : Nat
  owner : Nat
  slot : Nat
  die : Nat
  anyDie : Bool := false
  place : RayAt := .queued
  origin : List Nat
  tmin : Nat
  dir : List Nat
  tmax : Nat
  pc : Nat := 0
  inst : Bool := false
  ipair : Nat := 0
  nb : Bool := false
  cond : Bool := false
  hit : Bool := false
  status : Nat := 0
  stack : List Nat := []
  k : List Word := List.replicate 8 0
  node : Nat
  hitT : Nat
  hitPrim : Nat := 0xFFFFFFFF
  hitInst : Nat := 0xFFFFFFFF
  hitUv : Nat := 0
  cont : Word64
  laneIdx : Word
  mask : Word
  live : List Word
  buf : List Byte := []
  icopy : List Byte := []
  reload : Bool := false
  fkey : Option Nat := none
  count : Nat := 0
  age : Nat := 0
  endOrd : Nat := 0
  endNs : Nat := 0
  mark : Nat := 0
  deriving DecidableEq, Repr

/-! ### Visibility passes (R406 to R418) -/

/-- A snapped triangle (R413): coordinates in 1/256 pixel, FP32 depth codes and the key. -/
structure Tri where
  xs : List Int
  ys : List Int
  zs : List Nat
  key : Nat
  deriving DecidableEq, Repr

/-- A bin: its tile and the triangles appended to it. -/
structure Bin where
  tile : Nat
  tris : List Tri
  deriving DecidableEq, Repr

/-- The stage of a pass: open, closing, or written with its flag due once the clock has passed a tick. -/
inductive PassSt where
  | opened
  | closing
  | flagging (status gwct : Nat)
  deriving DecidableEq, Repr

/-- A pass that is open or closing (R413 to R416), named by `since` in the order of names: its descriptor as read at opening,
the triangles in PRIM since it was last emptied, the bins, the loaded tiles, the lanes of a `pemit` that a fault has interrupted, the
node that opened or closed it, and the largest GWCT of what it has written. -/
structure Pass where
  asid : Nat
  desc : Nat
  since : Nat := 0
  bytes : List Byte
  prims : Nat := 0
  bins : List Bin := []
  loaded : List Nat := []
  st : PassSt := .opened
  task : Nat := 0
  pc : Word64 := 0
  closer : Option Nat := none
  held : Bool := false
  count : Nat := 0
  part : List (Nat × Word × Word) := []
  node : Nat := 0
  gw : Nat := 0
  deriving DecidableEq, Repr

/-- A triangle on its way to a bin (R414). -/
structure Append where
  id : Nat
  asid : Nat
  desc : Nat
  tile : Nat
  tri : Tri
  deriving DecidableEq, Repr

/-! ### Ports and memory groups (R458 to R462) -/

/-- A contribution to a switch reduction that a port retains (R459), the number of the flit that carries it and how often it has been
sent (R458). -/
structure Contribution where
  flit : Nat := 0
  step : Nat
  acc : Nat
  addr : Nat
  size : Nat
  op : Nat
  fmt : Nat
  data : Nat
  sent : Nat := 1
  deriving DecidableEq, Repr

/-- A peer port: lanes in service, the next flit it expects, flits it has accepted and asked to be repeated, the number of the next
flit that it sends, and the contributions of its switch steps, which it repeats until they are acknowledged. -/
structure Port where
  num : Nat
  lanes : Nat := 8
  nextSeq : Nat := 0
  acked : Nat := 0
  replays : Nat := 0
  retrains : Nat := 0
  outSeq : Nat := 0
  step : Nat := 0
  kept : List Contribution := []
  deriving DecidableEq, Repr

/-- The modes of a group's share of the short-bitline layer (R462); `home` is a share that has left RECOVERY with its rows used, as the
homes of a retired channel's lines. -/
inductive ShareMode where
  | reserve | test | recovery | home
  deriving DecidableEq, Repr

/-- A parity group that is not as at first service (R460 to R462): its retired channels, whether its traffic is parked, the mode of its
share of the layer, the tags of the lines that the share's rows hold, by line number, the channel whose lines they are, and whether a
later failure is served by reconstruction on every access. -/
structure Group where
  stack : Nat
  half : Nat
  dead : List Nat := []
  parked : Bool := false
  mode : ShareMode := .reserve
  tags : List Nat := []
  saved : Option Nat := none
  recon : Bool := false
  deriving DecidableEq, Repr

/-! ### The schedule -/

/-- Work of the part's own units, named by the thing it is done for; each stands for one event of the opcode table. -/
inductive Work where
  | access (id : Nat)
  | landing (gid : Nat)
  | stream (sid : Nat)
  | arrayStart (core quad bank : Nat)
  | arrayPlane (core quad bank : Nat)
  | arrayApply (core quad bank : Nat)
  | bankCmd (cid : Nat)
  | jobStart (jid : Nat)
  | jobEnd (jid : Nat)
  | entryStart (eid : Nat)
  | entryEnd (eid : Nat)
  | gang (release : Bool) (node die : Nat)
  | unitFree (core quad unit : Nat)
  | park (wid : Nat)
  | halting (wid : Nat)
  | spill (wid : Nat)
  | redoMove (slice : Nat)
  | clusterIdle (die asid line : Nat)
  | lease (core asid line : Nat)
  | rayTake (core asid num : Nat)
  | raySuspend (asid num : Nat)
  | contClose (asid owner : Nat) (cont : Word64)
  | append (id : Nat)
  | passClose (asid desc : Nat)
  | swap (core quad : Nat)
  | rearm (core quad : Nat)
  | passedOver (nid : Nat)
  | dispatch (nid : Nat)
  | place (nid : Nat)
  | hold (fid : Nat)
  | ringRead (asid ring : Nat)
  | retire (asid queue : Nat)
  | genDone (asid : Nat)
  | migDone (asid : Nat)
  | saveDone (asid : Nat)
  | saveLate (asid : Nat)
  | restoreDone (asid : Nat)
  | watchdog (asid : Nat)
  deriving DecidableEq, Repr

/-- One turn of the schedule: an issue cycle of a quadrant, a microinstruction of a core's Kite, an event of the part or
of an outside agent, or a piece of the part's own work (log entry 3). -/
inductive Turn where
  | issue (core quad : Nat)
  | kite (rid : Nat)
  | event (i : Instr)
  | work (w : Work)
  | tick
  deriving DecidableEq, Repr

/-! ### The whole state -/

/-- An SPDM measurement with its signatures by the two algorithms (R463). -/
structure Measurement where
  index : Nat
  value : Word64
  ecdsa : Word64
  lms : Word64
  deriving DecidableEq, Repr

/-- Platform state: firmware, work areas, link and power (R443 to R465). `portRefuses` are the port addresses whose
completer refuses atomic requests and `windows` the reduction windows (base, size and port) that the peer switch exports
(inputs, log entry 5); `vectors` is the MSI-X table with the messages each vector has sent, `msix` the order in which the
part has raised them, `parityRow` and `reserveRow` the sixteenths of every pseudo-channel's rows that hold parity and the rebuild
reserve (R13, log entry 5), `regWait` the register writes that wait for a parked group (R461), `measured` the measurements answered (R463), `hostData` the completion of the host's last read or atomic, `posted` the largest GWCT of its posted
writes (R251), `cstatBusy` the BUSY bit of CSTAT (R444), `startup` the time before the first accepted CREATE (R462), and
`linkSpeed` is in tenths of GT/s. -/
structure Platform where
  fwRunning : Bool := false
  recovery : Bool := false
  fwVersion : Nat := 0
  fuses : Nat := 0
  measured : List Measurement := []
  parityRow : Nat := 14
  reserveRow : Nat := 15
  regWait : List (Nat × Nat) := []
  work0 : Nat := 0
  work1 : Nat := 0
  cstat : Nat := 0
  cstatBusy : Bool := false
  startup : Bool := true
  linkSpeed : Nat := 0
  linkWidth : Nat := 0
  clockMHz : Nat := 1400
  stopped : Bool := false
  hot : Bool := false
  msix : List Nat := []
  vectors : List Nat := List.replicate 64 0
  hostData : List Byte := []
  posted : Nat := 0
  portRefuses : List Nat := []
  windows : List (Nat × Nat × Nat) := []
  ports : List Port := []
  groups : List Group := []
  deriving DecidableEq, Repr

/-- A write that has left a port as a posted write and is not yet in host or peer memory (R251), with the number of its flit, and how
often the port has sent it (R458). -/
structure PortWrite where
  pa : Nat
  bytes : List Byte
  flit : Nat := 0
  sent : Nat := 1
  deriving DecidableEq, Repr

/-- A write of the part's own to virtual addresses of a context that a parked group or a locked line holds back (R252, R461). -/
structure PartWrite where
  asid : Nat
  va : Nat
  bytes : List Byte
  deriving DecidableEq, Repr

/-- The machine: `parkedPuts` are writes to the memory of parked groups, `partWaits` the part's own that wait for one (R461), and
`names` the virtual lines, by frame, under which accesses have reached memory (R166). Fields `turns`, `cur`, `curRay`, `free` and `nextId` are the model's own (log entries 2 and 3). -/
structure State where
  turns : List Turn := []
  cur : Option Nat := none
  curRay : Option Nat := none
  free : Nat := 0
  nextId : Nat := 0
  ns : Nat := 0
  cc : Nat := 0
  mem : Memory := []
  homes : List HomeLine := []
  evicted : List (Nat × Nat) := []
  moved : List (Nat × Nat × Nat) := []
  portWrites : List PortWrite := []
  parkedPuts : List (Nat × List Byte) := []
  partWaits : List PartWrite := []
  names : List (Nat × Nat × Nat) := []
  softWrites : List WriteLine := []
  l1 : List L1Line := []
  ilines : List ILine := []
  tlb : List TlbEntry := []
  clusters : List ClusterLine := []
  redos : List RedoEntry := []
  redoLines : List RedoLine := []
  spads : List Spad := []
  waves : List Wave := []
  quads : List Quad := []
  deadCores : List Nat := []
  comps : List Comparator := []
  unitQ : List UnitWait := []
  units : List UnitBusy := []
  streams : List Stream := []
  accs : List Access := []
  lands : List Landing := []
  gangMsgs : List GangMsg := []
  arrays : List ArrayBank := []
  pchs : List Pch := []
  bcmds : List BankCmd := []
  bankWritten : List Nat := []
  jobs : List Job := []
  entries : List EngEntry := []
  deadPchs : List Nat := []
  bindings : List Binding := []
  rays : List Ray := []
  passes : List Pass := []
  appends : List Append := []
  nodes : List Node := []
  tags : List (Nat × Nat) := []
  fams : List Family := []
  ctxs : List Context := []
  gens : List (Nat × Nat) := []
  plat : Platform := {}
  deriving DecidableEq, Repr

/-- The machine right after power-on (R463): nothing has been created, and the ROM loader has not run. -/
def State.reset : State := {}

end Sys2Proof.Machine
end

