-- ==== Sys2Proof/Machine/Mem.lean ====
section
/-! DEFINITION. Physical memory, page walks, resident lines and the checks of a lane (R160 to R175, R236 to R240). -/

namespace Sys2Proof.Machine

/-! ### Byte maps -/

/-- The byte at an address. -/
def Memory.get : Memory → Nat → Byte
  | [], _ => unlisted
  | (x, b) :: m, a => if x = a then b else if a < x then unlisted else Memory.get m a

/-- Writes a byte, keeping the canonical form. -/
def Memory.set : Memory → Nat → Byte → Memory
  | [], a, b => if b = unlisted then [] else [(a, b)]
  | (x, c) :: m, a, b =>
    if a < x then (if b = unlisted then (x, c) :: m else (a, b) :: (x, c) :: m)
    else if a = x then (if b = unlisted then m else (a, b) :: m)
    else (x, c) :: Memory.set m a b

/-- Writes bytes at rising addresses. -/
def Memory.setBytes : Memory → Nat → List Byte → Memory
  | m, _, [] => m
  | m, a, b :: bs => Memory.setBytes (m.set a b) (a + 1) bs

/-- n bytes from an address. -/
def Memory.getBytes (m : Memory) (a n : Nat) : List Byte := (List.range n).map fun i => m.get (a + i)

/-- The byte a version holds at an address, if it has written it (R240). -/
def ovGet : List (Nat × Byte) → Nat → Option Byte
  | [], _ => none
  | (x, b) :: m, a => if x = a then some b else ovGet m a

/-- Records a byte written into a version. -/
def ovSet : List (Nat × Byte) → Nat → Byte → List (Nat × Byte)
  | [], a, b => [(a, b)]
  | (x, c) :: m, a, b => if a < x then (a, b) :: (x, c) :: m else if a = x then (a, b) :: m else (x, c) :: ovSet m a b

/-! ### Lookup of records -/

/-- Replaces the records that satisfy p. -/
def modify {α : Type} (p : α → Bool) (g : α → α) (l : List α) : List α := l.map fun x => if p x then g x else x

/-- Inserts into a sorted list, before the entries it does not follow. -/
def insertBy {α : Type} (le : α → α → Bool) (x : α) : List α → List α
  | [] => [x]
  | y :: ys => if le x y then x :: y :: ys else y :: insertBy le x ys

/-- A stable sort. -/
def sortBy {α : Type} (le : α → α → Bool) (l : List α) : List α := l.foldr (insertBy le) []

/-! ### The short-bitline layer (R460 to R462) -/

/-- Whether an address lies in a parity group (R161, R460): its stack is bits [38:36], and bit 35 tells which of its two. -/
def Group.holds (g : Group) (pa : Nat) : Bool := g.stack == pa / 2 ^ 36 % 8 && g.half == pa / 2 ^ 35 % 2

/-- The stripe of a line within its parity group, which has 15 data lines and one parity line, and the line's place in it (R460). -/
def stripeOf (n : Nat) : Nat := n % (Config.shareBytes * Config.groupChannels / Config.line) / (Config.groupChannels - 1)
def stripeSlot (n : Nat) : Nat :=
  n % (Config.shareBytes * Config.groupChannels / Config.line) % (Config.groupChannels - 1)

/-- The channel of its group that holds a stripe's parity line: the position rotates across the group (R460). -/
def parityAt (stripe : Nat) : Nat := stripe % Config.groupChannels

/-- The channel of its group that holds a data line: each of the other fifteen holds one line of the stripe, in an order that is the
part's own hash (R161, R460). -/
def lineChannel (n : Nat) : Nat :=
  (parityAt (stripeOf n) + 1 + (stripeSlot n + Config.stripeHash (stripeOf n)) % (Config.groupChannels - 1)) % Config.groupChannels

/-- The channel that serves a line of a group: after a retirement the lines of the retired channel are spread over the other fifteen
(R461, R462). -/
def Group.channel (g : Group) (n : Nat) : Nat :=
  match g.saved with
  | some d => if lineChannel n == d then (d + 1 + (stripeOf n + Config.stripeHash (stripeOf n)) % (Config.groupChannels - 1)) % Config.groupChannels
              else lineChannel n
  | none => lineChannel n

/-- Lines that a group's share of the short-bitline layer holds (R462). -/
def shareLines : Nat := Config.shareBytes / Config.line

/-- The channel of its group that holds a line: bits [34:31] of its address name it for a bank-local page, else the part's hash (R161). -/
def channelOf (pa : Nat) (bank : Bool) : Nat := if bank then pa / 2 ^ 31 % Config.groupChannels else lineChannel (pa / 128)

/-- An access to a line that a group's share caches leaves the line in the share, with its tag: in TEST any line of its stack's other
layers, and in RECOVERY a line of the channel whose contents are being rebuilt (R461, R462). -/
def Group.takes (g : Group) (pa : Nat) (bank : Bool) : Group :=
  let cached : Bool := match g.mode with
    | .test => true
    | .recovery => g.saved == some (channelOf pa bank)
    | .reserve | .home => false
  if cached && !g.tags.contains (pa / 128) && decide (g.tags.length < shareLines) then { g with tags := g.tags ++ [pa / 128] } else g

/-! ### Peer ports (R458, R459) -/

/-- Peer ports of the part (R9, R458). -/
def peerPorts : Nat := 16

/-- The reduction window of a physical address: its port (R459). -/
def windowAt (s : State) (pa : Nat) : Option Nat :=
  (s.plat.windows.find? fun w => decide (w.1 ≤ pa ∧ pa < w.1 + w.2.1)).map (·.2.2)

/-- The peer port that serves a physical address: that of its window, else the one that the part's map gives it. -/
def peerOf (s : State) (pa : Nat) : Option Nat :=
  if pa ≥ Config.portBase then (windowAt s pa <|> Config.peerPort pa).filter (· < peerPorts) else none

/-- A peer port: one that nothing has happened on stands as after training. -/
def portOf (s : State) (n : Nat) : Port := (s.plat.ports.find? fun p => p.num == n).getD { num := n }

def setPort (s : State) (p : Port) : State :=
  { s with plat := { s.plat with ports := p :: s.plat.ports.filter fun x => x.num != p.num } }

namespace State

/-- A write, read or atomic request to a peer's memory leaves its port as a flit, which takes the port's next number (R458). -/
def sendFlit (s : State) (pa : Nat) : State :=
  match peerOf s pa with
  | some n => let p := portOf s n; setPort s { p with outSeq := p.outSeq + 1 }
  | none => s

/-- The number of the last flit that an address's port has sent. -/
def lastFlit (s : State) (pa : Nat) : Nat := match peerOf s pa with | some n => (portOf s n).outSeq - 1 | none => 0

/-- The live context of an ASID. -/
def ctx? (s : State) (asid : Nat) : Option Context := s.ctxs.find? fun c => c.asid == asid
def setCtx (s : State) (c : Context) : State := { s with ctxs := modify (fun x => x.asid == c.asid) (fun _ => c) s.ctxs }
def wave? (s : State) (wid : Nat) : Option Wave := s.waves.find? fun w => w.wid == wid
def setWave (s : State) (w : Wave) : State := { s with waves := modify (fun x => x.wid == w.wid) (fun _ => w) s.waves }
def node? (s : State) (nid : Nat) : Option Node := s.nodes.find? fun n => n.nid == nid
def setNode (s : State) (n : Node) : State := { s with nodes := modify (fun x => x.nid == n.nid) (fun _ => n) s.nodes }
def fam? (s : State) (fid : Nat) : Option Family := s.fams.find? fun f => f.fid == fid
def setFam (s : State) (f : Family) : State := { s with fams := modify (fun x => x.fid == f.fid) (fun _ => f) s.fams }
def spad? (s : State) (node core : Nat) : Option Spad := s.spads.find? fun p => p.node == node && p.core == core
def setSpad (s : State) (p : Spad) : State :=
  { s with spads := modify (fun x => x.node == p.node && x.core == p.core) (fun _ => p) s.spads }
def stream? (s : State) (sid : Nat) : Option Stream := s.streams.find? fun t => t.sid == sid
def setStream (s : State) (t : Stream) : State := { s with streams := modify (fun x => x.sid == t.sid) (fun _ => t) s.streams }
def home? (s : State) (asid line : Nat) : Option HomeLine := s.homes.find? fun h => h.asid == asid && h.line == line
def modHome (s : State) (asid line : Nat) (g : HomeLine → HomeLine) : State :=
  { s with homes := modify (fun x => x.asid == asid && x.line == line) g s.homes }
def l1? (s : State) (core asid line : Nat) : Option L1Line :=
  s.l1.find? fun h => h.core == core && h.asid == asid && h.line == line
/-- The generation of an ASID; one that a destroyed context has left keeps the generation it was raised to (R447). -/
def genOf (s : State) (asid : Nat) : Nat :=
  match s.ctx? asid with
  | some c => c.gen
  | none => match s.gens.find? fun g => g.1 == asid with | some g => g.2 | none => 0
def leaseOf (s : State) (asid : Nat) : Nat := match s.ctx? asid with | some c => c.lease | none => Config.defaultLease

/-- Takes a fresh identifier. -/
def fresh (s : State) : Nat × State := (s.nextId, { s with nextId := s.nextId + 1 })

/-- The argument for the next free value, and the state that has used it. -/
def takeFree (s : State) : Nat × State := (s.free, { s with free := s.free + 1 })

/-! ### Physical reads -/

/-- The byte at an address of the memories: a read at a port passes no posted write on its way (R251). -/
def memGet (s : State) (pa : Nat) : Byte :=
  match s.portWrites.reverse.find? fun p => decide (p.pa ≤ pa ∧ pa < p.pa + p.bytes.length) with
  | some p => p.bytes.getD (pa - p.pa) unlisted
  | none => match s.parkedPuts.reverse.find? fun p => decide (p.1 ≤ pa ∧ pa < p.1 + p.2.length) with
    | some p => p.2.getD (pa - p.1) unlisted
    | none => s.mem.get pa

/-- The sixteenth of its pseudo-channel's rows that a physical address lies in (R13, R161). -/
def rowsOf (pa : Nat) : Nat := pa / 2 ^ 26 % 16

/-- Whether an address lies in a frame that holds parity or the rebuild reserve, 32 GiB each (R13). -/
def holdsParity (s : State) (pa : Nat) : Bool := decide (pa < Config.hbmEnd) && rowsOf pa == s.plat.parityRow
def holdsReserve (s : State) (pa : Nat) : Bool := decide (pa < Config.hbmEnd) && rowsOf pa == s.plat.reserveRow

/-- Whether an address lies in a die's work area (R445). -/
def inWork (s : State) (pa : Nat) : Bool :=
  [s.plat.work0, s.plat.work1].any fun w => w != 0 && decide (w ≤ pa) && decide (pa < w + Config.workArea)

/-- Whether an address lies in frames of the part's own: no context maps one, so what an access to it does is undefined (R1, R13,
R445). -/
def isOwn (s : State) (pa : Nat) : Bool := s.holdsParity pa || s.holdsReserve pa || s.inWork pa

/-- A parity group's share as it stands before anything has happened to it: in TEST until the first accepted CREATE (R462). -/
def groupOr (s : State) (stack half : Nat) : Group :=
  (s.plat.groups.find? fun g => g.stack == stack && g.half == half).getD
    { stack := stack, half := half, mode := if s.plat.startup then .test else .reserve }

def setGroup (s : State) (g : Group) : State :=
  { s with plat := { s.plat with groups := g :: s.plat.groups.filter fun x => !(x.stack == g.stack && x.half == g.half) } }

/-- An access to HBM, to a bank-local page or another, as the share of its group sees it (R462). -/
def noteTag (s : State) (pa : Nat) (bank : Bool := false) : State :=
  let g := s.groupOr (pa / 2 ^ 36 % 8) (pa / 2 ^ 35 % 2)
  if pa ≥ Config.hbmEnd || g.takes pa bank == g then s else s.setGroup (g.takes pa bank)

/-- The parity group of a physical address: its stack and half (R460). -/
def groupAt (s : State) (pa : Nat) : Option Group := s.plat.groups.find? fun g => g.holds pa

/-- Whether the accesses to an address are parked by a channel failure (R461). -/
def isParked (s : State) (pa : Nat) : Bool :=
  decide (pa < Config.hbmEnd) && (match s.groupAt pa with | some g => g.parked | none => false)

/-- Writes bytes of one frame: HBM at once, or once a parked group's traffic resumes (R461), and host or peer memory as a posted write
(R251), which takes the next flit of its port (R458). A write to the part's own frames, which no context maps, is dropped: every read
of them is open (R13, log entry 31). -/
def memPut (s : State) (pa : Nat) (bs : List Byte) (bank : Bool := false) : State :=
  if pa ≥ Config.portBase then
    let s := s.sendFlit pa
    { s with portWrites := s.portWrites ++ [{ pa := pa, bytes := bs, flit := s.lastFlit pa }] }
  else if s.isOwn pa then s
  else if s.isParked pa then { s.noteTag pa bank with parkedPuts := s.parkedPuts ++ [(pa, bs)] }
  else { s.noteTag pa bank with mem := s.mem.setBytes pa bs }

/-- The parked writes to the memory of one group are performed, in order (R461). -/
def resumePuts (s : State) (p : Nat → Bool) : State :=
  (s.parkedPuts.filter fun x => p x.1).foldl (fun s x => { s with mem := s.mem.setBytes x.1 x.2 }) { s with parkedPuts := s.parkedPuts.filter fun x => !p x.1 }

/-- A sender's port repeats a flit that its peer has found with a CRC error, which one is open (R458). -/
def repeatFlit (s : State) : State :=
  if s.portWrites.isEmpty then s
  else
    let k := Config.freeNat s.free
    let s := { s with free := s.free + 1 }
    let one (w : PortWrite) : PortWrite := { w with sent := w.sent + 1 }
    match s.portWrites[k]? with
    | some w => if (peerOf s w.pa).isSome then { s with portWrites := s.portWrites.set k (one w) } else s
    | none => s

/-- Every posted write lands in its memory, in the order of their leaving, as a flushing read makes them (R244). -/
def landPorts (s : State) : State :=
  { s with portWrites := [], mem := s.portWrites.foldl (fun m p => m.setBytes p.pa p.bytes) s.mem }

/-- One posted write may land; which one is open, but none passes an earlier one to its bytes (R251, log entry 2). -/
def landPort (s : State) : State :=
  match s.portWrites with
  | [] => s
  | l =>
    let k := Config.freeNat s.free % (l.length + 1)
    let s := { s with free := s.free + 1 }
    match l[k]? with
    | some p =>
      if (l.take k).any fun e => decide (e.pa < p.pa + p.bytes.length ∧ p.pa < e.pa + e.bytes.length) then s
      else { s with portWrites := l.eraseIdx k, mem := s.mem.setBytes p.pa p.bytes }
    | none => s

/-- The byte at a physical address as the part's agents see it: a dirty resident line first (R236). In the part's own frames it is what
memory lists (log entry 31). -/
def phys (s : State) (pa : Nat) : Byte :=
  match s.homes.find? fun h => h.dirty && h.tr.pa == pa / 128 * 128 with
  | some h => h.data.getD (pa % 128) unlisted
  | none => s.memGet pa

def physNat (s : State) (pa n : Nat) : Nat := leNat ((List.range n).map fun i => s.phys (pa + i))

/-! ### Page walks (R162 to R164) -/

/-- Bits [hi:lo] of a number. -/
def bits (v hi lo : Nat) : Nat := v / 2 ^ lo % 2 ^ (hi + 1 - lo)

/-- The next table of a pointer entry, or none where it is invalid. -/
def pointer (e : Nat) : Option Nat :=
  if bits e 0 0 == 1 && bits e 6 1 == 0 && bits e 7 7 == 0 && bits e 14 8 == 0 then
    let pa := bits e 50 13 * 2 ^ 13
    if pa < Config.hbmEnd then some pa else none
  else none

/-- The translation that a leaf entry of a 2^k byte page gives an address, or none where it is invalid. A leaf may name any frame
of HBM, also one of parity or of the rebuild reserve (R13, log entry 31). -/
def leaf (e k va : Nat) : Option Trans :=
  let home := bits e 5 4
  let pinned := home == 1 || home == 2
  let fr := if pinned then bits e 50 15 * 2 ^ 15 else bits e 50 13 * 2 ^ 13
  let resOk := if pinned then home == 1 || bits e 14 14 == 0 else bits e 12 8 == 0
  let pa := fr + va % 2 ^ k
  let dev := decide (Config.devBase ≤ pa ∧ pa < Config.devBase + Config.devSize)
  if bits e 0 0 == 1 && resOk && fr % 2 ^ k == 0
      && (decide (pa < Config.hbmEnd) || (dev && home == 3) || decide (Config.portBase ≤ pa)) then
    some { pa := pa, w := bits e 1 1 == 1, x := bits e 2 2 == 1, g := bits e 3 3 == 1, sro := bits e 7 7 == 1
           home := home, core := if pinned then bits e 14 8 else 0, bank := k == 13 && bits e 6 6 == 1 }
  else none

/-- The four-level walk from a root frame. -/
def walk (s : State) (root va : Nat) : Option Trans :=
  if root ≥ Config.hbmEnd then none else
  match pointer (s.physNat (root + 8 * bits va 52 43) 8) with
  | none => none
  | some t2 =>
    let e2 := s.physNat (t2 + 8 * bits va 42 33) 8
    if bits e2 6 6 == 1 then leaf e2 33 va else
    match pointer e2 with
    | none => none
    | some t1 =>
      let e1 := s.physNat (t1 + 8 * bits va 32 23) 8
      if bits e1 6 6 == 1 then leaf e1 23 va else
      match pointer e1 with
      | none => none
      | some t0 => leaf (s.physNat (t0 + 8 * bits va 22 13) 8) 13 va

/-- The migration under way that holds a page (R457). -/
def pageMove (s : State) (asid va : Nat) : Option Migration :=
  match s.ctx? asid with
  | some c => match c.migs with
    | m :: _ => if m.started && m.va / 8192 == va / 8192 then some m else none
    | [] => none
  | none => none

/-- The traffic of a line that a migration has copied goes to the new frame (R457). -/
def redirect (s : State) (asid va : Nat) (t : Trans) : Trans :=
  match s.pageMove asid va with
  | some m => if va % 8192 / 128 < m.lines then
      match leaf m.leaf 13 va with | some n => { t with pa := n.pa } | none => t
    else t
  | none => t

/-- Translation at the channel TLB under the current generation (R170): a current entry, or a walk. -/
def translate (s : State) (asid va : Nat) : Option Trans :=
  let found := match s.tlb.find? fun t => t.asid == asid && t.page == va / 8192 && t.gen == s.genOf asid with
    | some t => some { t.tr with pa := t.tr.pa + va % 8192 }
    | none => match s.ctx? asid with
      | some c => walk s c.root va
      | none => none
  found.map (s.redirect asid va)

/-- Whether a migration holds the lock of a line (R252): accesses to it are parked. -/
def lineLocked (s : State) (asid va : Nat) : Bool :=
  match s.pageMove asid va with
  | some m => m.locked && va % 8192 / 128 == m.lines
  | none => false

/-- The addresses of the entries that a walk reads. -/
def walkReads (s : State) (root va : Nat) : List Nat :=
  let e3 := root + 8 * bits va 52 43
  match pointer (s.physNat e3 8) with
  | none => [e3]
  | some t2 =>
    let e2 := t2 + 8 * bits va 42 33
    match if bits (s.physNat e2 8) 6 6 == 1 then none else pointer (s.physNat e2 8) with
    | none => [e3, e2]
    | some t1 =>
      let e1 := t1 + 8 * bits va 32 23
      match if bits (s.physNat e1 8) 6 6 == 1 then none else pointer (s.physNat e1 8) with
      | none => [e3, e2, e1]
      | some t0 => [e3, e2, e1, t0 + 8 * bits va 22 13]

/-- Whether the channel TLB holds a page's translation under the current generation (R170). -/
def tlbHas (s : State) (asid va : Nat) : Bool := s.tlb.any fun t => t.asid == asid && t.page == va / 8192 && t.gen == s.genOf asid

/-- The reads of a walk that an access needs, as the shares of their groups see them (R162, R462). -/
def noteWalk (s : State) (asid va : Nat) : State :=
  if s.tlbHas asid va then s
  else match s.ctx? asid with
    | some c => (s.walkReads c.root va).foldl (fun s pa => s.noteTag pa) s
    | none => s

/-- The reads of the walk of an access that fails, unless the address itself is at fault or the access is only parked (R170, R171, R462):
causes 0 to 2. -/
def noteFault (s : State) (asid cause va : Nat) : State := if cause ≤ 2 then s else s.noteWalk asid va

/-- A request that leaves the chip translates at the channel TLB, which keeps the walk's result under the current
generation (R14, R170); a page that is being moved is walked anew. -/
def tlbFill (s : State) (asid va : Nat) : State :=
  if s.tlbHas asid va then s
  else match s.translate asid va with
    | some tr =>
      let s := s.noteWalk asid va
      if (s.pageMove asid va).isSome then s
      else { s with tlb := { asid := asid, page := va / 8192, gen := s.genOf asid, tr := { tr with pa := tr.pa - va % 8192 } } ::
                           s.tlb.filter fun t => !(t.asid == asid && t.page == va / 8192) }
    | none => s.noteWalk asid va

/-- An access to memory under a virtual name: its group's share sees it, a peer's port sends its request, and the name that it has
used for the frame is noted (R166, R458, R462). -/
def reach (s : State) (asid va : Nat) (t : Trans) : State :=
  let s := (s.noteTag t.pa t.bank).sendFlit t.pa
  let k := (t.pa / 128, asid, va / 128)
  if s.names.contains k then s else { s with names := k :: s.names }

/-- Whether a translation needs a walk that a channel failure parks (R461). -/
def walkParked (s : State) (asid va : Nat) : Bool :=
  (s.plat.groups.any fun g => g.parked)
    && !(s.homes.any fun h => h.asid == asid && h.line == va / 128 && h.gen == s.genOf asid)
    && !(s.tlb.any fun t => t.asid == asid && t.page == va / 8192 && t.gen == s.genOf asid)
    && (match s.ctx? asid with | some c => (s.walkReads c.root va).any s.isParked | none => false)

/-- The moment of a run, which tells the readings of an undefined byte apart. -/
def moment (s : State) : Nat := s.nextId + s.ns + s.cc

/-- Whether a physical address is a device register (R161). -/
def isDev (pa : Nat) : Bool := decide (Config.devBase ≤ pa) && decide (pa < Config.devBase + Config.devSize)

/-! ### Lane checks (R171) -/

end State

/-- Whether a page is never cached (R165). -/
def Trans.uncached (t : Trans) : Bool := t.home == 3 || t.never

/-- n bytes that the spec leaves open (log entry 2). -/
def freeBytes (s : State) (n : Nat) : List Byte × State :=
  ((List.range n).map fun i => Config.freeByte (s.free + i), { s with free := s.free + n })

/-- The causes of R426 that a lane may fail with; 0 stands for a lane that is parked with no record: it met the lock of a
migration, or a walk or fetch that a channel failure parks (R252, R457, R461). -/
def cPARK : Nat := 0
def cRANGE : Nat := 1
def cALIGN : Nat := 2
def cNOTMAPPED : Nat := 3
def cPRIV : Nat := 4
def cCOW : Nat := 5
def cWRITE : Nat := 6
def cEXEC : Nat := 7
def cPORT : Nat := 8
def cBANKMAP : Nat := 9
def cLEASE : Nat := 10

/-- What a checked access wants to do. -/
inductive Want where
  | read | write | fetch | atomic (system : Bool)
  deriving DecidableEq, Repr

def Want.writes : Want → Bool
  | .write | .atomic _ => true
  | _ => false

/-- Whether recorded permission bits allow an access without a new translation (R170). -/
def Want.allowed (k : Want) (t : Trans) : Bool :=
  !t.g && (if k.writes then t.w && !t.sro else true) && (if k == .fetch then t.x && !t.uncached else true)

namespace State

/-- Lines pinned where a translation pins its page (R165): in the L1 data cache of its core, or in its home slice. -/
def pinnedAt (s : State) (t : Trans) : Nat :=
  (s.homes.filter fun h => !h.vc && h.tr.home == t.home
    && (if t.home == 1 then h.tr.core == t.core else h.tr.core % 64 == t.core % 64)).length

/-- The home that a line keeps while a copy of it is on chip, at its home, in a victim cache or leased in an L1 (R165). -/
def heldHome (s : State) (asid line : Nat) : Option Trans :=
  match s.home? asid line with
  | some h => some h.tr
  | none => (s.l1.find? fun x => x.asid == asid && x.line == line && decide (s.ns < x.expiry)).map (·.tr)

/-- Whether a line of a pinned page that is not on chip has its home in the hashed slice: its pinned place is full (R165). -/
def fallsBack (s : State) (t : Trans) : Bool :=
  (t.home == 1 || t.home == 2) && decide (s.pinnedAt t ≥ (if t.home == 1 then Config.pinnedCore else Config.pinnedSlice))

/-- A translation with the home that its line has (R165): the one it keeps, else that of its page, or the hashed slice where
the pinned place is full. -/
def placed (s : State) (asid va : Nat) (t : Trans) : Trans :=
  if isDev t.pa then t
  else match s.heldHome asid (va / 128) with
    | some h => { t with home := h.home, core := h.core, never := t.uncached }
    | none => if s.fallsBack t then { t with home := 0 } else t

/-- A translation at the channel TLB with the home of its line. -/
def locate (s : State) (asid va : Nat) : Option Trans := (s.translate asid va).map (s.placed asid va)

/-- The translation a lane's access uses: a resident line of the current generation whose bits allow it, or a
translation at the channel TLB (R170). -/
def lookup (s : State) (asid va : Nat) (k : Want) : Option Trans :=
  let found := match s.home? asid (va / 128) with
    | some h =>
      if h.gen == s.genOf asid && k.allowed h.tr then some { h.tr with pa := h.tr.pa + va % 128 } else s.translate asid va
    | none => s.translate asid va
  found.map (s.placed asid va)

/-- The cause of a lane that fails R171, R179 or R211, or none. An atomic's page-dependent ALIGN is tested right after NOTMAPPED
(log entry 32); PORT concerns atomics that a port performs (R202, R204), and is found here, while a family may still be speculative
(log entry 32). -/
def laneCheck (s : State) (asid va size : Nat) (k : Want) : Option Nat :=
  if va ≥ Config.vaEnd then some cRANGE
  else if va % size != 0 then some cALIGN
  else if s.lineLocked asid va || s.walkParked asid va then some cPARK
  else match s.lookup asid va k with
    | none => some cNOTMAPPED
    | some t =>
      if k == .fetch && s.isParked t.pa then some cPARK else
      let dev := decide (Config.devBase ≤ t.pa ∧ t.pa < Config.portBase)
      if t.uncached && k != .fetch && size > 8 then some cALIGN
      else if (match k with | .atomic sys => dev || (t.uncached && !sys) | _ => false) then some cALIGN
      else if t.g then some cPRIV
      else if k.writes && t.sro then some cCOW
      else if k.writes && !t.w then some cWRITE
      else if k == .fetch && (!t.x || t.uncached) then some cEXEC
      else if (match k with | .atomic sys => sys && decide (t.pa ≥ Config.portBase) && s.plat.portRefuses.contains t.pa | _ => false)
        then some cPORT
      else none

/-! ### Writes of software (R401, R407, R420, R423) -/

/-- Whether two ranges of bytes meet. -/
def meets (a n b k : Nat) : Bool := decide (a < b + k ∧ b < a + n)

/-- A line's writes with another, which takes the place of those that it covers. -/
def addCell (c : WriteCell) (l : List WriteCell) : List WriteCell :=
  c :: l.filter fun x => !decide (c.off ≤ x.off ∧ x.off + x.size ≤ c.off + c.size)

/-- Notes a write of bytes that lie in one line. -/
def noteLine (asid line : Nat) (c : WriteCell) (l : List WriteLine) : List WriteLine :=
  if l.any fun w => w.asid == asid && w.line == line then
    modify (fun w => w.asid == asid && w.line == line) (fun w => { w with cells := addCell c w.cells }) l
  else { asid := asid, line := line, cells := [c] } :: l

/-- Notes a write of software; `plain` for an ordinary store of a wave. -/
def noteWrite (s : State) (asid addr n : Nat) (plain : Bool) : State :=
  let lines := if n == 0 then 0 else (addr + n - 1) / 128 - addr / 128 + 1
  { s with
    nextId := s.nextId + 1
    softWrites := (List.range lines).foldl (fun l i =>
      let k := addr / 128 + i
      let lo := if i == 0 then addr % 128 else 0
      noteLine asid k { off := lo, size := min 128 (addr + n - 128 * k) - lo, ord := s.nextId, plain := plain } l) s.softWrites }

/-- Whether a write meets n bytes from an address. -/
def cellMeets (w : WriteLine) (c : WriteCell) (addr n : Nat) : Bool := meets (128 * w.line + c.off) c.size addr n

/-- The order of the latest noted write of some of a range, 0 where there is none. -/
def lastWrite (s : State) (asid addr n : Nat) (plain : Bool) : Nat :=
  (s.softWrites.filter fun w => w.asid == asid).foldl (fun k w => w.cells.foldl (fun k c =>
    if (c.plain || !plain) && cellMeets w c addr n then max k (c.ord + 1) else k) k) 0

/-- Whether software has written some of a range since a name was taken. -/
def writtenSince (s : State) (asid addr n ord : Nat) : Bool := decide (ord + 1 < s.lastWrite asid addr n false)

/-- Whether a compressed tile has been spoiled: an ordinary store has met it since its mode byte was written (R420). -/
def tileSpoiled (s : State) (asid mode tile : Nat) : Bool :=
  decide (s.lastWrite asid mode 1 false < s.lastWrite asid tile 256 true)

/-- Bytes read, or as many open ones where the spec leaves them undefined (log entry 2). -/
def openBytes (s : State) (undef : Bool) (bs : List Byte) : List Byte × State := if undef then freeBytes s bs.length else (bs, s)

/-! ### Lines and versions -/

/-- The home slice of a line at HOME 00 (R167), or the pinned place. -/
def sliceOf (va : Nat) (t : Trans) : Nat :=
  if t.home == 2 then t.core % 64
  else (List.range 8).foldl (fun a i => a ^^^ bits va (12 + 6 * i) (7 + 6 * i)) 0

def evictedMark (s : State) (slice : Nat) : Nat :=
  match s.evicted.find? fun e => e.1 == slice with | some e => e.2 | none => 0

def raiseMark (s : State) (slice v : Nat) : State :=
  { s with evicted := (slice, max v (s.evictedMark slice)) :: s.evicted.filter fun e => e.1 != slice }

/-! ### Device registers that can be read (R443, R444) -/

/-- A QSTATE register: 0 RUN, 1 OVERRUN, 2 STOPPED, 3 OFF, with the device read index. -/
def qstate (c : Context) (q : Nat) : Nat :=
  let ring := c.rings.getD q { base := 0, slots := 8 }
  let st := if !c.qen.getLsbD q then 3 else if ring.overrun then 1
    else if ((c.queues.getD q {}).stopped).isSome then 2 else 0
  st + ring.next % 2 ^ 32 * 2 ^ 32

/-- The 64-bit register at an offset of BAR0, a multiple of 8: global registers, context pages, zero elsewhere, which
R6 says only from 0x101_0000 on (log entry 23). A recovery register has an open value (log entry 2). -/
def barRead (s : State) (off : Nat) : Nat :=
  if off == 8 then s.plat.cstat / 2 ^ 16 * 2 ^ 16 + (if s.plat.cstatBusy then 1 else s.plat.cstat % 2 ^ 16)
  else if 0x1000 ≤ off && off < 0x10000 then (Config.freeReg off).toNat
  else if 0x10000 ≤ off && off < 0x1010000 then
    match s.ctx? ((off - 0x10000) / 0x1000) with
    | some c =>
      let o := off % 0x1000
      if o == 0x208 then c.gen % 2 ^ 20 + (if c.busy then 2 ^ 31 else 0)
      else if 0x400 ≤ o && o < 0x600 then qstate c ((o - 0x400) / 8)
      else 0
    | none => if off % 0x1000 == 0x208 then s.genOf ((off - 0x10000) / 0x1000) % 2 ^ 20 else 0
  else 0

/-- A byte of device register space. -/
def devByte (s : State) (pa : Nat) : Byte :=
  let off := pa - Config.devBase
  BitVec.ofNat 8 (s.barRead (off / 8 * 8) / 2 ^ (8 * (off % 8)))

/-- The 128 bytes of a line in its frame. -/
def frameLine (s : State) (pa : Nat) : List Byte := (List.range 128).map fun i => s.memGet (pa / 128 * 128 + i)

/-- Whether a channel failure or the lock of a migration parks any accesses: units that touch many lines in one event wait
for all of them. -/
def anyParked (s : State) : Bool :=
  (s.plat.groups.any fun g => g.parked) || s.ctxs.any fun c => match c.migs with | m :: _ => m.locked | [] => false

/-! ### Making room (R10, R14, R165, R236) -/

/-- One of the records that may leave a cache; which one is open (log entry 2). -/
def choose {α : Type} (s : State) (l : List α) : Option α × State :=
  (l[Config.freeNat s.free % l.length]?, { s with free := s.free + 1 })

/-- Writes a line on chip back to its frame; it stays resident (R249). -/
def writeBack (s : State) (h : HomeLine) : State :=
  if h.dirty then
    { s.memPut h.tr.pa h.data h.tr.bank with
             homes := modify (fun x => x.asid == h.asid && x.line == h.line) (fun x => { x with dirty := false }) s.homes }
  else s

/-- A line leaves the chip: written back where dirty, and the evicted mark rises to its Emax (R236). -/
def evict (s : State) (h : HomeLine) : State :=
  let s := (s.writeBack h).raiseMark (sliceOf (h.line * 128) h.tr) h.emax
  { s with homes := s.homes.filter fun x => !(x.asid == h.asid && x.line == h.line) }

/-- Whether a victim line lies in the victim cache of a stack. -/
def inStack (stack : Nat) (h : HomeLine) : Bool := h.vc && h.tr.pa / 2 ^ 36 == stack

/-- A home slice evicts a line to the victim cache of its stack, which makes room for it; a line that lies in no stack
goes to its port (R14, R236). -/
def toVictim (s : State) (h : HomeLine) : State :=
  if h.tr.pa ≥ Config.hbmEnd then s.evict h
  else
    let vs := s.homes.filter (inStack (h.tr.pa / 2 ^ 36))
    let s := if vs.length ≥ Config.victimLines then
        match s.choose vs with | (some v, s) => s.evict v | (none, s) => s
      else s
    (s.raiseMark (sliceOf (h.line * 128) h.tr) h.emax).modHome h.asid h.line fun x => { x with vc := true }

/-- Whether a line lies in a home slice. -/
def inSlice (slice : Nat) (h : HomeLine) : Bool := !h.vc && h.tr.home != 1 && sliceOf (h.line * 128) h.tr == slice

/-- A full home slice evicts a line, one that `ldnt` has marked first; a pinned line and one that a cluster atomic unit owns stay
(R165, R203). A clean line that `ldnt` has marked or evicts goes to no victim cache (R179). -/
def roomSlice (s : State) (slice : Nat) (nt : Bool) : State :=
  let ls := s.homes.filter (inSlice slice)
  if ls.length ≥ Config.sliceLines then
    let may := ls.filter fun h => h.tr.home != 2 && !s.clusters.any fun k => k.asid == h.asid && k.line == h.line
    let marked := may.filter (·.first)
    match s.choose (if marked.isEmpty then may else marked) with
    | (some h, s) => if (nt || h.first) && !h.dirty then s.evict h else s.toVictim h
    | (none, s) => s
  else s

/-- A full L1 data cache, which holds the pinned lines of its core too, drops a copy (R10, R165). -/
def roomL1 (s : State) (core : Nat) : State :=
  let ls := s.l1.filter fun x => x.core == core
  let pinned := (s.homes.filter fun h => !h.vc && h.tr.home == 1 && h.tr.core == core).length
  if ls.length + pinned ≥ Config.l1Lines then
    match s.choose ls with
    | (some h, s) => { s with l1 := s.l1.filter fun x => !(x.core == core && x.asid == h.asid && x.line == h.line) }
    | (none, s) => s
  else s

/-- Room at the place where a line is to be. -/
def roomFor (s : State) (va : Nat) (t : Trans) (nt : Bool) : State :=
  if t.home == 1 then s.roomL1 t.core else s.roomSlice (sliceOf va t) nt

/-- A cluster atomic unit returns a line when another die, the host, a peer or an engine accesses it (R203). -/
def leaveCluster (s : State) (die : Option Nat) (asid va : Nat) : State :=
  { s with clusters := s.clusters.filter fun k => !(k.asid == asid && k.line == va / 128 && die != some k.die) }

/-- Makes a cached line resident at its home, under the translation of its latest access (R170, R179); a line that the
victim cache holds leaves it (R14). Its Emax starts at the mark of evicted lines, so that it covers the copies granted
before an eviction (R236). `nt` is a read by `ldnt`, which puts the line first for eviction (R179). -/
def ensureLine (s : State) (asid va : Nat) (t : Trans) (nt : Bool := false) : State :=
  let base := { t with pa := t.pa / 128 * 128 }
  match s.home? asid (va / 128) with
  | some h =>
    if h.vc then
      let s := s.roomFor va t nt
      s.modHome asid (va / 128) fun h =>
        { h with vc := false, first := nt, emax := s.evictedMark (sliceOf va t), gen := s.genOf asid, tr := base }
    else s.modHome asid (va / 128) fun h => { h with gen := s.genOf asid, tr := base, first := h.first || nt }
  | none =>
    let s := ((s.roomFor va t nt).tlbFill asid va).reach asid va t
    { s with homes := { asid := asid, line := va / 128, data := s.frameLine t.pa, dirty := false
                        emax := s.evictedMark (sliceOf va t), gen := s.genOf asid, tr := base, first := nt } :: s.homes }

/-- The names under which a frame is on chip, or has been reached since. -/
def namesOf (s : State) (pa : Nat) : List (Nat × Nat) :=
  ((s.homes.filter fun h => h.tr.pa == pa / 128 * 128).map fun h => (h.asid, h.line))
    ++ (s.names.filter fun k => k.1 == pa / 128).map (·.2)

/-- Whether a migration that breaks R456 has named the page of an address: what is read of it is open (R1, log entry 33). -/
def opened (s : State) (asid va : Nat) : Bool := (s.ctx? asid).any fun c => c.openPages.contains (va / 8192)

/-- Whether what is read under a name is open (R1): a migration has broken R456 for its page, or software has mapped the frame under
another name too, which accesses have used: unless every mapping carries HOME 11 or none is writable, that breaks R166. It breaks it no
longer once the other mapping is gone (log entry 31). -/
def aliased (s : State) (asid va : Nat) (t : Trans) : Bool :=
  s.opened asid va || (s.namesOf t.pa).any fun k => !(k.1 == asid && k.2 == va / 128) && (match s.translate k.1 (128 * k.2) with
    | some u => u.pa / 128 == t.pa / 128 && (u.w || t.w) && !(u.home == 3 && t.uncached)
    | none => false)

/-- The 128 bytes that a core's copy of a line gives: open ones through a writable alias, whatever the copy holds (R1, R166, log
entry 2). -/
def copyData (s : State) (asid line : Nat) (t : Trans) (d : List Byte) : List Byte :=
  if s.aliased asid (128 * line) t then (List.range 128).map fun i => Config.openByte asid (128 * line + i) s.moment else d

/-- The byte that a unit reads in DRAM under a virtual name: open through a writable alias and in the part's own frames. -/
def dramByte (s : State) (asid va pa : Nat) : Byte :=
  if s.isOwn pa || (match s.translate asid va with | some t => s.aliased asid va { t with pa := pa } | none => false) then
    Config.openByte asid va s.moment
  else s.mem.get pa

/-- n bytes that a unit reads in DRAM. -/
def dramBytes (s : State) (asid va pa n : Nat) : List Byte := (List.range n).map fun i => s.dramByte asid (va + i) (pa + i)

/-- A unit writes bytes in DRAM. -/
def dramPut (s : State) (asid va pa : Nat) (bs : List Byte) : State :=
  match s.translate asid va with
  | some t => (s.reach asid va { t with pa := pa }).memPut pa bs t.bank
  | none => s.memPut pa bs

/-- The committed byte at a virtual address: its line on chip, or its frame. Through a writable alias, which R166 forbids, or in the
part's own frames, which no context maps (R13, R445), it is open (R1, log entry 2). -/
def committed (s : State) (asid va : Nat) (t : Trans) : Byte :=
  if isDev t.pa then s.devByte t.pa
  else if s.aliased asid va t || s.isOwn t.pa then Config.openByte asid va s.moment
  else match s.home? asid (va / 128) with
    | some h => if t.home == 3 then s.memGet t.pa else h.data.getD (va % 128) unlisted
    | none => s.phys t.pa

/-- The byte an access of a family sees at a virtual address (R240). -/
def visible (s : State) (asid : Nat) (fam : Option Nat) (va : Nat) (t : Trans) : Byte :=
  match fam.bind s.fam? with
  | some f => match ovGet f.writes va with
    | some b => b
    | none => s.committed asid va t
  | none => s.committed asid va t

/-- n bytes of one access as a number. -/
def readVal (s : State) (asid : Nat) (fam : Option Nat) (va : Nat) (t : Trans) (n : Nat) : Nat :=
  leNat ((List.range n).map fun i => s.visible asid fam (va + i) { t with pa := t.pa + i })

/-- The family into whose version a node's writes go: none when it has no family or the family is non-speculative. -/
def specFam (s : State) (nid : Nat) : Option Nat :=
  match s.node? nid with
  | some n => match n.fam.bind s.fam? with
    | some f => if f.st == .direct then none else some f.fid
    | none => none
  | none => none

/-- The Emax of a line, or the evicted mark of its slice where it is not resident there (R236). -/
def expiryOf (s : State) (asid va : Nat) (t : Trans) : Nat :=
  match s.home? asid (va / 128) with
  | some h => if h.vc then s.evictedMark (sliceOf va t) else h.emax
  | none => s.evictedMark (sliceOf va t)

/-- The Emax that a line kept when its page was moved, where it has one (R252). -/
def movedMark (s : State) (asid va : Nat) : Nat :=
  match s.moved.find? fun m => m.1 == asid && m.2.1 == va / 128 with | some m => m.2.2 | none => 0

/-- The GWCT of a store or atomic (R236, R238); a line whose page was moved keeps its Emax (R252). -/
def gwctOf (s : State) (asid va : Nat) (t : Trans) : Nat :=
  max (s.movedMark asid va) (max (if t.home == 1 || t.home == 3 then 0 else s.expiryOf asid va t) s.ns)

/-- Writes bytes into the committed value at their home: a resident line becomes dirty; otherwise, and at HOME 11, the
frame is written. A write to host or peer memory leaves its port as a posted write too (R251), and its line stays clean. -/
def writeCommitted (s : State) (asid va : Nat) (t : Trans) (bs : List Byte) : State :=
  match s.home? asid (va / 128) with
  | some _ =>
    if t.home == 3 then s.memPut t.pa bs t.bank
    else
      let o := va % 128
      let port := decide (t.pa ≥ Config.portBase)
      (if port then s.memPut t.pa bs else s).modHome asid (va / 128) fun h =>
        { h with dirty := h.dirty || !port, data := h.data.take o ++ bs ++ h.data.drop (o + bs.length) }
  | none => s.memPut t.pa bs t.bank

/-- Writes bytes of one access, into the version of a speculative family or to the committed value. -/
def writeVal (s : State) (asid : Nat) (fam : Option Nat) (va : Nat) (t : Trans) (bs : List Byte) : State :=
  match fam.bind s.fam? with
  | some f =>
    if f.st == .direct then s.writeCommitted asid va t bs
    else s.setFam { f with writes := ((List.range bs.length).zip bs).foldl (fun m ib => ovSet m (va + ib.1) ib.2) f.writes }
  | none => s.writeCommitted asid va t bs

/-- Updates the data of a core's copy of a line, which is then no part of one reading of a tile (R237, R418). -/
def updateL1 (s : State) (core asid va : Nat) (fam : Option Nat) (bs : List Byte) : State :=
  let upd (x : L1Line) : L1Line :=
    { x with data := x.data.take (va % 128) ++ bs ++ x.data.drop (va % 128 + bs.length)
             fam := match fam with | some f => some f | none => x.fam
             whole := none }
  { s with l1 := modify (fun x => x.core == core && x.asid == asid && x.line == va / 128) upd s.l1 }

/-- Grants a core a copy of a line with the expiry t + L; a full cache makes room for it (R10, R236, R237). -/
def grantL1 (s : State) (core asid va : Nat) (fam : Option Nat) (t : Trans) : State :=
  let line := va / 128
  let s := if (s.l1? core asid line).isSome then s else s.roomL1 core
  let base : Trans := { t with pa := t.pa / 128 * 128 }
  let expiry := s.ns + s.leaseOf asid
  let data := (List.range 128).map fun i => s.visible asid fam (line * 128 + i) { base with pa := base.pa + i }
  let own := match fam.bind s.fam? with
    | some f => if f.writes.any fun wb => wb.1 / 128 == line then fam else none
    | none => none
  { s with
    l1 := { core := core, asid := asid, line := line, data := data, expiry := expiry, gen := s.genOf asid, tr := base, fam := own
            asker := fam } ::
      s.l1.filter fun x => !(x.core == core && x.asid == asid && x.line == line)
    homes := modify (fun x => x.asid == asid && x.line == line) (fun h => { h with emax := max h.emax expiry }) s.homes }

/-- Whether a copy's recorded bits, or a new translation where they are of an older generation or refuse the load, let it
be used (R170); a page at HOME 11 is never read from a copy (R165). -/
def l1Allowed (s : State) (asid va : Nat) (c : L1Line) : Bool :=
  (c.gen == s.genOf asid && !c.tr.g)
    || (match s.lookup asid va .read with | some t => !t.g && !t.uncached | none => false)

/-- Whether a family's version holds bytes of a line. -/
def versionHas (s : State) (fam : Option Nat) (line : Nat) : Bool :=
  match fam.bind s.fam? with | some f => f.writes.any fun w => w.1 / 128 == line | none => false

/-- Whether a copy holds what a family may see: one read for it, or committed data of a line that its version has not written
(R240). -/
def copySuits (s : State) (c : L1Line) (fam : Option Nat) : Bool :=
  (c.fam == none || c.fam == fam) && (c.asker == fam || !s.versionHas fam c.line)

/-- Whether a load is served by a core's copy whose own bits, of the current generation, admit it: it leaves the chip for nothing, no
translation either (R14, R170). -/
def l1Own (s : State) (core asid va : Nat) (fam : Option Nat) : Bool :=
  match s.l1? core asid (va / 128) with
  | some c => decide (s.ns < c.expiry) && s.copySuits c fam && c.gen == s.genOf asid && !c.tr.g
  | none => false

/-- The cause of a lane of a load that may be served from its core's L1: a copy that serves it is asked no more than R171 asks of the
address itself. -/
def loadCheck (s : State) (core asid va size : Nat) (fam : Option Nat) : Option Nat :=
  if decide (va < Config.vaEnd) && va % size == 0 && s.l1Own core asid va fam then none else s.laneCheck asid va size .read

/-- The translation that serves an access of a core which stays on chip: that of its own copy where that one serves, else a new one
(R14, R170). -/
def nearTrans (s : State) (core asid va : Nat) (fam : Option Nat) : Option Trans :=
  match if s.l1Own core asid va fam then s.l1? core asid (va / 128) else none with
  | some x => some (s.redirect asid va { x.tr with pa := x.tr.pa + va % 128 })
  | none => s.lookup asid va .read

/-- A core's copy that may serve a load of a family now: within its lease, under whatever generation it was filled
(R169, R170, R237, R240, R252). -/
def l1Serves (s : State) (core asid va : Nat) (fam : Option Nat) : Option L1Line :=
  match s.l1? core asid (va / 128) with
  | some c =>
    if decide (s.ns < c.expiry) && s.copySuits c fam && s.l1Allowed asid va c then some c else none
  | none => none

/-- Brings a line to its home ahead of use, as a load would; where accesses to it are parked the request is dropped
(R182, R314). -/
def fillHome (s : State) (die asid va : Nat) (t : Trans) : State :=
  if t.uncached || isDev t.pa || s.isParked t.pa || s.lineLocked asid va then s
  else (s.leaveCluster (some die) asid va).ensureLine asid va t

/-- A prefetched line goes from its home slice to the victim cache; a pinned line stays (R165, R182). -/
def fillVictim (s : State) (asid va : Nat) : State :=
  match s.home? asid (va / 128) with
  | some h => if h.vc || h.tr.home == 1 || h.tr.home == 2 then s else s.toVictim h
  | none => s

/-! ### Whole reads of a context's memory by the part (records, descriptors, tables) -/

/-- n bytes at a virtual address as an access of a family sees them; none where a page on the way is not readable. -/
def readBytes (s : State) (asid : Nat) (fam : Option Nat) (va n : Nat) : Option (List Byte) :=
  (List.range n).mapM fun i =>
    match s.laneCheck asid (va + i) 1 .read with
    | some _ => none
    | none => (s.lookup asid (va + i) .read).map fun t => s.visible asid fam (va + i) t

/-- Whether a channel failure or the lock of a migration parks the part's own access to an address (R252, R461). -/
def partHeld (s : State) (asid va : Nat) : Bool :=
  s.lineLocked asid va || s.walkParked asid va || (match s.locate asid va with | some t => s.isParked t.pa | none => false)

/-- An access of the part's own to a line that is not on chip, as the shares of the groups see its walk and its line (R462). -/
def partTouch (s : State) (asid va : Nat) : State :=
  if (s.home? asid (va / 128)).isSome then s
  else match s.locate asid va with
    | some t => (s.noteWalk asid va).noteTag t.pa t.bank
    | none => s.noteWalk asid va

/-- The lines of n bytes that the part accesses. -/
def touchRange (s : State) (asid va n : Nat) : State :=
  ((List.range n).filter fun i => i == 0 || (va + i) % 128 == 0).foldl (fun s i => s.partTouch asid (va + i)) s

/-- n committed bytes at a virtual address without the checks made for waves; one that no page maps, as a queue base that breaks
R446 may leave it, is open (R1, log entry 2). -/
def partRead (s : State) (asid va n : Nat) : List Byte :=
  (List.range n).map fun i => match s.locate asid (va + i) with
    | some t => s.committed asid (va + i) t
    | none => Config.openByte asid (va + i) s.moment

/-- Writes committed bytes at a virtual address of the context, as the part's own store (R446); where no page is mapped,
as a queue base that breaks R446 may leave it, the write is dropped (log entry 31). Writes to host memory
land before the part goes on, since its records are releases of `.system` scope (R322, R457). -/
def partPut (s : State) (asid va : Nat) (bs : List Byte) : State :=
  (((List.range bs.length).zip bs).foldl (fun s ib => match s.locate asid (va + ib.1) with
    | some t => s.writeCommitted asid (va + ib.1) t [ib.2]
    | none => s) (s.touchRange asid va bs.length)).landPorts

/-- A write of the part's own is performed, or waits where a parked group or a locked line holds one of its bytes back (R252, R461). -/
def partWrite (s : State) (asid va : Nat) (bs : List Byte) : State :=
  if s.anyParked && (List.range bs.length).any fun i => s.partHeld asid (va + i) then
    { s with partWaits := s.partWaits ++ [{ asid := asid, va := va, bytes := bs }] }
  else s.partPut asid va bs

/-- The part's writes that were held back are performed as soon as nothing holds them, in order. -/
def resumeWaits (s : State) : State := s.partWaits.foldl (fun s w => s.partWrite w.asid w.va w.bytes) { s with partWaits := [] }

end State

/-! ### Accesses of the part to physical addresses -/

/-- 128-byte lines of n bytes from an address. -/
def lineSpan (a n : Nat) : Nat := if n == 0 then 0 else (a + n - 1) / 128 - a / 128 + 1

/-- The lines of a physical read or write, as the shares of their groups see them (R462). -/
def physTouch (s : State) (pa n : Nat) : State :=
  { s with plat := { s.plat with groups := ((List.range (lineSpan pa n)).foldl (fun s i => s.noteTag (pa + 128 * i)) s).plat.groups } }

/-- n bytes at a physical address. -/
def physBytes (s : State) (pa n : Nat) : List Byte := (List.range n).map fun i => s.phys (pa + i)

/-- Writes bytes at a physical address, in memory and in the resident lines of those frames. -/
def physPut (s : State) (pa : Nat) (bs : List Byte) : State :=
  let byte (h : HomeLine) (i : Nat) : Byte :=
    let a := h.tr.pa + i
    if pa ≤ a then bs.getD (a - pa) (h.data.getD i unlisted) else h.data.getD i unlisted
  let patch (h : HomeLine) : HomeLine := { h with data := (List.range 128).map (byte h) }
  { s.memPut pa bs with homes := modify (·.dirty) patch s.homes }

/-- What a save, a spill or an engine that stops on a fault writes to the context save area: the bytes are open, and how many they are
(R318, R346, R440, log entry 23). -/
def writeSave (s : State) (asid : Nat) : State :=
  match s.ctx? asid with
  | some c =>
    let (bs, s) := freeBytes s Config.saveArea
    physTouch (physPut s c.save bs) c.save Config.saveArea
  | none => s

end Sys2Proof.Machine
end

