-- ==== Sys2Proof/Machine/Num.lean ====
section
/-! DEFINITION. Number formats, exact values, rounding and flags (R67 to R91), and the function operations of R148 and
R149 as exact integer arithmetic. -/

namespace Sys2Proof.Machine

/-! ### Flags (R85, R138) -/

/-- A set of flags in the positions of `fpflags`. -/
abbrev Flags := Nat

def fNV : Flags := 1
def fDZ : Flags := 2
def fOF : Flags := 4
def fUF : Flags := 8
def fNX : Flags := 16
def fSAT : Flags := 32
def fTERN : Flags := 64

/-- A flag under a condition. -/
def flagIf (b : Bool) (fl : Flags) : Flags := if b then fl else 0

/-! ### Exact values -/

/-- The value a float code denotes: a NaN (signalling or not), an infinity, or (-1)^neg * m * 2^e. -/
inductive FV where
  | nan (sig : Bool)
  | inf (neg : Bool)
  | fin (neg : Bool) (m : Nat) (e : Int)
  deriving DecidableEq, Repr

def FV.isNan : FV → Bool
  | .nan _ => true
  | _ => false

def FV.isSig : FV → Bool
  | .nan s => s
  | _ => false

def FV.isInf : FV → Bool
  | .inf _ => true
  | _ => false

def FV.isZero : FV → Bool
  | .fin _ m _ => m == 0
  | _ => false

def FV.isNeg : FV → Bool
  | .nan _ => false
  | .inf n => n
  | .fin n _ _ => n

def FV.flip : FV → FV
  | .nan s => .nan s
  | .inf n => .inf !n
  | .fin n m e => .fin (!n) m e

/-- The mode codes of R41. -/
def mRNE : Nat := 0
def mRTZ : Nat := 1
def mRUP : Nat := 2
def mRDN : Nat := 3
def mRNA : Nat := 4

/-- m / 2^s rounded to an integer in a mode (R80), with whether it is inexact. -/
def rndShift (mode : Nat) (neg : Bool) (m s : Nat) : Nat × Bool :=
  let q := m >>> s
  let r := m % 2 ^ s
  let h := 2 ^ s / 2
  let up :=
    if r == 0 then false
    else match mode with
      | 0 => decide (r > h) || (r == h && q % 2 == 1)
      | 1 => false
      | 2 => !neg
      | 3 => neg
      | _ => decide (r ≥ h)
  (if up then q + 1 else q, r != 0)

/-- The multiple k of 2^q that m * 2^e rounds to, and whether it is inexact. -/
def rndAt (mode : Nat) (neg : Bool) (m : Nat) (e q : Int) : Nat × Bool :=
  if e ≥ q then (m * 2 ^ (e - q).toNat, false) else rndShift mode neg m (q - e).toNat

/-- The exponent of the leading bit of m * 2^e, m not 0. -/
def leadExp (m : Nat) (e : Int) : Int := (Nat.log2 m : Int) + e

/-- floor(num * 2^s / den) with the remainder kept as a last sticky bit: a value on the same side of every rounding
boundary as the exact quotient. The result counts units of 2^(-s-1). -/
def stickyDiv (num den s : Nat) : Nat :=
  let n := num * 2 ^ s
  2 * (n / den) + (if n % den == 0 then 0 else 1)

/-- Integer square root by Newton steps from above, on fuel. -/
def isqrtFrom : Nat → Nat → Nat → Nat
  | 0, _, x => x
  | k + 1, n, x =>
    let y := (x + n / x) / 2
    if y < x then isqrtFrom k n y else x

/-- The integer square root. -/
def isqrt (n : Nat) : Nat := if n == 0 then 0 else isqrtFrom 1200 n (2 ^ (Nat.log2 n / 2 + 1))

/-! ### IEEE formats (R69) -/

/-- A binary interchange format: exponent bits, bias and fraction bits. -/
structure Fp where
  eb : Nat
  bias : Nat
  fb : Nat
  deriving DecidableEq, Repr

def fp64 : Fp := ⟨11, 1023, 52⟩
def fp32 : Fp := ⟨8, 127, 23⟩
def fp16 : Fp := ⟨5, 15, 10⟩
def bf16 : Fp := ⟨8, 127, 7⟩
/-- The layouts of E4M3 and E5M2 (R72), whose special codes are in `decodeE4m3` and `roundFp8`. -/
def e4m3 : Fp := ⟨4, 7, 3⟩
def e5m2 : Fp := ⟨5, 15, 2⟩

def Fp.width (p : Fp) : Nat := 1 + p.eb + p.fb
/-- The exponent of the smallest normal. -/
def Fp.emin (p : Fp) : Int := 1 - (p.bias : Int)
/-- The default NaN (R69). -/
def Fp.nan (p : Fp) : Nat := (2 ^ (p.eb + 1) - 1) * 2 ^ (p.fb - 1)
def Fp.inf (p : Fp) : Nat := (2 ^ p.eb - 1) * 2 ^ p.fb
def Fp.maxFin (p : Fp) : Nat := p.inf - 1
def Fp.sign (p : Fp) (neg : Bool) : Nat := if neg then 2 ^ (p.eb + p.fb) else 0

/-- Decode(fmt, bits) of R69. -/
def Fp.decode (p : Fp) (b : Nat) : FV :=
  let neg := b / 2 ^ (p.eb + p.fb) % 2 == 1
  let ex := b / 2 ^ p.fb % 2 ^ p.eb
  let fr := b % 2 ^ p.fb
  if ex == 2 ^ p.eb - 1 then
    if fr == 0 then .inf neg else .nan (fr / 2 ^ (p.fb - 1) == 0)
  else if ex == 0 then .fin neg fr (p.emin - p.fb)
  else .fin neg (2 ^ p.fb + fr) ((ex : Int) - p.bias - p.fb)

/-- A subnormal code (R71). -/
def Fp.subnormal (p : Fp) (b : Nat) : Bool := b / 2 ^ p.fb % 2 ^ p.eb == 0 && b % 2 ^ p.fb != 0

/-- `In` of R143: a subnormal is read as zero under FTZ. -/
def Fp.readIn (p : Fp) (ftz : Bool) (b : Nat) : FV :=
  if ftz && p.subnormal b then .fin (b / 2 ^ (p.eb + p.fb) % 2 == 1) 0 0 else p.decode b

/-- The rounding of a nonzero finite value at the format's precision: the code of its magnitude before any overflow
rule, whether it overflows, is tiny (R71) and is inexact. -/
def Fp.roundFin (p : Fp) (mode : Nat) (neg : Bool) (m : Nat) (e : Int) (max : Nat) : Nat × Bool × Bool × Bool :=
  let lead := leadExp m e
  let qu := lead - p.fb
  let q := if qu < p.emin - p.fb then p.emin - p.fb else qu
  let (k, inex) := rndAt mode neg m e q
  let (ku, _) := rndAt mode neg m e qu
  let tiny := decide (leadExp ku qu < p.emin)
  let code := (q - (p.emin - p.fb)).toNat * 2 ^ p.fb + k
  (code, decide (code > max), tiny, inex)

/-- Round(x, mode) into an IEEE format with the flags of R80 to R82, and `Out` of R143 under FTZ. -/
def Fp.round (p : Fp) (mode : Nat) (ftz : Bool) (v : FV) : Nat × Flags :=
  match v with
  | .nan _ => (p.nan, 0)
  | .inf neg => (p.sign neg + p.inf, 0)
  | .fin neg m e =>
    if m == 0 then (p.sign neg, 0)
    else
      let (code, ovf, tiny, inex) := p.roundFin mode neg m e p.maxFin
      if ovf then
        let toInf := match mode with
          | 1 => false
          | 2 => !neg
          | 3 => neg
          | _ => true
        (p.sign neg + (if toInf then p.inf else p.maxFin), fOF ||| fNX)
      else if ftz && tiny then (p.sign neg, fUF ||| fNX)
      else (p.sign neg + code, flagIf inex fNX ||| flagIf (inex && tiny) fUF)

/-! ### Narrow formats (R72 to R79) -/

/-- The codes of E4M3 (R72). -/
def decodeE4m3 (b : Nat) : FV :=
  let neg := b / 128 % 2 == 1
  let ex := b / 8 % 16
  let fr := b % 8
  if b % 128 == 127 then .nan false
  else if ex == 0 then .fin neg fr (-9)
  else .fin neg (8 + fr) ((ex : Int) - 10)

/-- The codes of E5M2 (R72), which are laid out as an IEEE format. -/
def decodeE5m2 (b : Nat) : FV := e5m2.decode (b % 256)

/-- Conversion into E4M3 or E5M2 (R83). -/
def roundFp8 (isE4 : Bool) (mode : Nat) (v : FV) : Nat × Flags :=
  let p := if isE4 then e4m3 else e5m2
  let max := if isE4 then 0x7E else 0x7B
  match v with
  | .nan sig => (if isE4 then 0x7F else 0x7E, flagIf sig fNV)
  | .inf neg => if isE4 then (p.sign neg + max, fSAT) else (p.sign neg + 0x7C, 0)
  | .fin neg m e =>
    if m == 0 then (p.sign neg, 0)
    else
      let (code, ovf, tiny, inex) := p.roundFin mode neg m e max
      if ovf then (p.sign neg + max, fSAT ||| fNX)
      else (p.sign neg + code, flagIf inex fNX ||| flagIf (inex && tiny) fUF)

/-- The band row z of R77: exponent code bits e and fraction bits m. -/
def dynBand (z : Nat) : Nat × Nat :=
  match z with
  | 0 => (1, 5)
  | 1 => (2, 3)
  | 2 => (2, 2)
  | 3 => (2, 1)
  | 4 => (2, 0)
  | 5 => (1, 0)
  | _ => (0, 0)

/-- ExpOf(z, c) of R77. -/
def dynExp (z c : Nat) : Int :=
  match z, c with
  | 0, 0 => -1
  | 0, _ => 0
  | 5, 0 => -10
  | 5, _ => 9
  | 6, _ => -11
  | z, 0 => -(2 * z + 1 : Nat)
  | z, 1 => -(2 * z : Nat)
  | z, 2 => (2 * z - 1 : Nat)
  | z, _ => (2 * z : Nat)

/-- DecodeDyn8 (R77). NaR decodes as a quiet NaN. -/
def decodeDyn8 (b : Nat) : FV :=
  let neg := b / 128 % 2 == 1
  let f7 := b % 128
  if f7 == 0 then (if neg then .nan false else .fin false 0 0)
  else
    let z := 6 - Nat.log2 f7
    let (e, m) := dynBand z
    let c := f7 / 2 ^ m % 2 ^ e
    .fin neg (2 ^ m + f7 % 2 ^ m) (dynExp z c - m)

/-- The band and code of an exponent from -11 to 9 (R77). -/
def dynCode (ex : Int) : Nat × Nat :=
  if ex == -1 then (0, 0) else if ex == 0 then (0, 1)
  else if ex == -10 then (5, 0) else if ex == 9 then (5, 1)
  else if ex == -11 then (6, 0)
  else if ex > 0 then
    let n := ex.toNat
    ((n + 1) / 2, if n % 2 == 1 then 2 else 3)
  else
    let n := (-ex).toNat
    (n / 2, if n % 2 == 1 then 0 else 1)

/-- The code of a magnitude k * 2^(E - m) in the band of E. -/
def dynPack (neg : Bool) (ex : Int) (k : Nat) : Nat :=
  let (z, c) := dynCode ex
  let (_, m) := dynBand z
  (if neg then 128 else 0) + 2 ^ (6 - z) + c * 2 ^ m + (k - 2 ^ m)

/-- m * 2^e against 2^k: true when it is at least 2^k. -/
def geTwo (m : Nat) (e k : Int) : Bool := m != 0 && decide (leadExp m e ≥ k)

/-- EncodeDyn8 (R79). -/
def encodeDyn8 (v : FV) : Nat × Flags :=
  match v with
  | .nan sig => (0x80, flagIf sig fNV)
  | .inf neg => ((if neg then 0x83 else 0x03), fSAT ||| fNX)
  | .fin neg m e =>
    if m == 0 then (0, 0)
    else if geTwo m e 9 then
      -- exactly 512 gives no NX (R79)
      let exact := leadExp m e == 9 && m == 2 ^ Nat.log2 m
      ((if neg then 0x83 else 0x03), fSAT ||| flagIf (!exact) fNX)
    else if !geTwo m e (-12) then (0, fUF ||| fNX)
    else if !geTwo m e (-11) then ((if neg then 0x81 else 0x01), fUF ||| fNX)
    else
      let ex := leadExp m e
      let w := (dynBand (dynCode ex).1).2
      let (k, inex) := rndAt mRNE neg m e (ex - w)
      if k == 2 ^ (w + 1) then
        let ex' := ex + 1
        (dynPack neg ex' (2 ^ (dynBand (dynCode ex').1).2), flagIf inex fNX)
      else (dynPack neg ex k, flagIf inex fNX)

/-- The five trits of a `.t3` byte as -1, 0, +1; none for a reserved code (R75). -/
def decodeT3 (b : Nat) : Option (List Int) :=
  if b < 243 then some [(b % 3 : Int) - 1, (b / 3 % 3 : Int) - 1, (b / 9 % 3 : Int) - 1, (b / 27 % 3 : Int) - 1, (b / 81 % 3 : Int) - 1]
  else none

/-! ### Exact arithmetic (R70, R82, R144) -/

/-- A signed value m * 2^e as an exact value, whose zero has the sign given. -/
def ofSigned (z : Bool) (n : Int) (e : Int) : FV :=
  if n == 0 then .fin z 0 0 else .fin (decide (n < 0)) n.natAbs e

/-- a + b, exactly; the sign of an exact zero follows R82. -/
def FV.add (mode : Nat) (a b : FV) : FV × Flags :=
  match a, b with
  | .nan s, .nan t => (.nan false, flagIf (s || t) fNV)
  | .nan s, _ => (.nan false, flagIf s fNV)
  | _, .nan t => (.nan false, flagIf t fNV)
  | .inf x, .inf y => if x == y then (.inf x, 0) else (.nan false, fNV)
  | .inf x, _ => (.inf x, 0)
  | _, .inf y => (.inf y, 0)
  | .fin x m e, .fin y n g =>
    if m == 0 && n == 0 then (.fin (if x == y then x else mode == mRDN) 0 0, 0)
    else
      let q := if e < g then e else g
      let mi : Int := (m * 2 ^ (e - q).toNat : Nat)
      let ni : Int := (n * 2 ^ (g - q).toNat : Nat)
      (ofSigned (mode == mRDN) ((if x then -mi else mi) + (if y then -ni else ni)) q, 0)

/-- a * b, exactly. -/
def FV.mul (a b : FV) : FV × Flags :=
  match a, b with
  | .nan s, .nan t => (.nan false, flagIf (s || t) fNV)
  | .nan s, _ => (.nan false, flagIf s fNV)
  | _, .nan t => (.nan false, flagIf t fNV)
  | .inf x, .inf y => (.inf (x != y), 0)
  | .inf x, .fin y n _ => if n == 0 then (.nan false, fNV) else (.inf (x != y), 0)
  | .fin x m _, .inf y => if m == 0 then (.nan false, fNV) else (.inf (x != y), 0)
  | .fin x m e, .fin y n g => (.fin (x != y) (m * n) (e + g), 0)

/-- a * b + c before its one rounding; a product 0 * infinity raises NV whatever c is (R144). -/
def FV.fma (mode : Nat) (a b c : FV) : FV × Flags :=
  let (p, fp) := a.mul b
  let (r, fr) := p.add mode c
  (r, fp ||| fr)

/-- Numeric comparison of two values that are no NaN: negative, zero or positive, zeros being equal. -/
def FV.cmp (a b : FV) : Int :=
  match a, b with
  | .inf x, .inf y => if x == y then 0 else if x then -1 else 1
  | .inf x, _ => if x then -1 else 1
  | _, .inf y => if y then 1 else -1
  | .fin x m e, .fin y n g =>
    let q := if e < g then e else g
    let mi : Int := (m * 2 ^ (e - q).toNat : Nat)
    let ni : Int := (n * 2 ^ (g - q).toNat : Nat)
    (if x then -mi else mi) - (if y then -ni else ni)
  | _, _ => 0

/-- Whether `min` keeps a over b (R145): a is smaller, and -0 counts as less than +0. -/
def FV.lessMin (a b : FV) : Bool :=
  let c := a.cmp b
  decide (c < 0) || (c == 0 && a.isNeg && !b.isNeg)

/-- `min` and `max` of R145: which operand is returned (true: the first), none for the default NaN. -/
def FV.pick (isMax : Bool) (a b : FV) : Option Bool × Flags :=
  let nv := flagIf (a.isSig || b.isSig) fNV
  if a.isNan && b.isNan then (none, nv)
  else if a.isNan then (some false, nv)
  else if b.isNan then (some true, nv)
  else (some (if isMax then !a.lessMin b else !b.lessMin a), nv)

/-- The conditions of R146, with NV. -/
def FV.cond (code : Nat) (a b : FV) : Bool × Flags :=
  let un := a.isNan || b.isNan
  let sig := a.isSig || b.isSig
  let c := a.cmp b
  match code with
  | 0 => (!un && c == 0, flagIf sig fNV)
  | 1 => (un || c != 0, flagIf sig fNV)
  | 2 => (!un && decide (c < 0), flagIf un fNV)
  | 3 => (!un && decide (c ≤ 0), flagIf un fNV)
  | 4 => (!un && decide (c > 0), flagIf un fNV)
  | 5 => (!un && decide (c ≥ 0), flagIf un fNV)
  | 6 => (un, flagIf sig fNV)
  | _ => (!un, flagIf sig fNV)

/-- The class bit of R147 of a value and whether its code was subnormal. -/
def FV.classBit (v : FV) (sub : Bool) : Nat :=
  match v with
  | .nan s => if s then 0 else 1
  | .inf n => if n then 2 else 9
  | .fin n m _ =>
    if m == 0 then (if n then 5 else 6)
    else if sub then (if n then 4 else 7)
    else if n then 3 else 8

/-- Conversion to an integer of n bits (R84). -/
def FV.toInt (mode : Nat) (signed : Bool) (n : Nat) (v : FV) : Int × Flags :=
  let lo : Int := if signed then -(2 ^ (n - 1) : Nat) else 0
  let hi : Int := if signed then (2 ^ (n - 1) : Nat) - 1 else (2 ^ n : Nat) - 1
  match v with
  | .nan _ => (0, fNV)
  | .inf neg => (if neg then lo else hi, fNV)
  | .fin neg m e =>
    let (k, inex) := rndAt mode neg m e 0
    let r : Int := if neg then -(k : Int) else k
    if r < lo then (lo, fNV) else if r > hi then (hi, fNV) else (r, flagIf inex fNX)

/-- An integer as an exact value. -/
def ofInt (n : Int) : FV := ofSigned false n 0

/-! ### Estimates (R148) -/

/-- RoundSig(x, 17) in RNE of a positive value. -/
def roundSig17 (m : Nat) (e : Int) : Nat × Int :=
  let q := leadExp m e - 16
  ((rndAt mRNE false m e q).1, q)

/-- RcpEst before `Out` (R148), with the special inputs. -/
def rcpEst (v : FV) : FV × Flags :=
  match v with
  | .nan s => (.nan false, flagIf s fNV)
  | .inf n => (.fin n 0 0, 0)
  | .fin n m e =>
    if m == 0 then (.inf n, fDZ)
    else
      let k := leadExp m e
      let t := (m * 2 ^ 14) / 2 ^ Nat.log2 m - 2 ^ 14
      let (y, q) := roundSig17 (stickyDiv (2 ^ 15) (2 ^ 15 + 2 * t + 1) 60) (-61)
      (.fin n y (q - k), 0)

/-- RsqEst before `Out` (R148), with the special inputs. -/
def rsqEst (v : FV) : FV × Flags :=
  match v with
  | .nan s => (.nan false, flagIf s fNV)
  | .inf n => if n then (.nan false, fNV) else (.fin false 0 0, 0)
  | .fin n m e =>
    if m == 0 then (.inf n, fDZ)
    else if n then (.nan false, fNV)
    else
      let lead := leadExp m e
      let k := lead / 2
      let odd := (lead % 2).toNat
      let t := (m * 2 ^ (13 + odd)) / 2 ^ Nat.log2 m - 2 ^ 13
      -- 1 / sqrt(d / 2^14) with d = 2^14 + 2t + 1, scaled by 2^80
      let n2 := 2 ^ 174 / (2 ^ 14 + 2 * t + 1)
      let r := isqrt n2
      let (y, q) := roundSig17 (2 * r + 1) (-81)
      (.fin false y (q - k), 0)

/-! ### Functions rounded once (R149) -/

/-- Fraction bits of the fixed-point work below. -/
def fixP : Nat := 384
/-- floor(2^384 * pi) and floor(2^384 * ln 2). -/
def piFix : Nat := 0x3243f6a8885a308d313198a2e03707344a4093822299f31d0082efa98ec4e6c89452821e638d01377be5466cf34e90c6c
def ln2Fix : Nat := 0xb17217f7d1cf79abc9e3b39803f2f6af40f343267298b62d8a0d175b8baafa2be7b876206debac98559552fb4afa1b10

/-- A fixed-point result that is not exact: a value strictly between two multiples of 2^-384. -/
def fixFv (n : Int) : FV := ofSigned false (2 * n + 1) (-((fixP : Int) + 1))

/-- m * 2^e as a fixed-point number; exact when e is at least -384. -/
def toFix (m : Nat) (e : Int) : Nat := if e + fixP ≥ 0 then m * 2 ^ (e + fixP).toNat else m / 2 ^ (-(e + fixP)).toNat

/-- The sum of the series with the next term t * x / (2^P * k) at each step: terms of exp. -/
def expSeries : Nat → Nat → Nat → Nat → Nat
  | 0, _, _, _ => 0
  | n + 1, k, x, t => t + expSeries n (k + 1) x (t * x / 2 ^ fixP / k)

/-- The alternating series of sine (k = 1) or cosine (k = 0) in x^2. -/
def trigSeries : Nat → Nat → Nat → Nat → Bool → Int
  | 0, _, _, _, _ => 0
  | n + 1, k, x2, t, neg =>
    (if neg then -(t : Int) else t) + trigSeries n (k + 2) x2 (t * x2 / 2 ^ fixP / ((k + 1) * (k + 2))) (!neg)

/-- The series of atanh in y^2: the terms t / k for odd k. -/
def atanhSeries : Nat → Nat → Nat → Nat → Nat
  | 0, _, _, _ => 0
  | n + 1, k, y2, t => t / k + atanhSeries n (k + 2) y2 (t * y2 / 2 ^ fixP)

/-- 1/a. -/
def frcpV (v : FV) : FV × Flags :=
  match v with
  | .nan s => (.nan false, flagIf s fNV)
  | .inf n => (.fin n 0 0, 0)
  | .fin n m e => if m == 0 then (.inf n, fDZ) else (.fin n (stickyDiv 1 m (Nat.log2 m + 80)) (-(Nat.log2 m + 81 : Nat) - e), 0)

/-- 1/sqrt a. -/
def frsqV (v : FV) : FV × Flags :=
  match v with
  | .nan s => (.nan false, flagIf s fNV)
  | .inf n => if n then (.nan false, fNV) else (.fin false 0 0, 0)
  | .fin n m e =>
    if m == 0 then (.inf n, fDZ)
    else if n then (.nan false, fNV)
    else
      -- an even exponent, then floor(2^160 / sqrt m') with a sticky bit
      let odd := (e % 2).toNat
      let m' := m * 2 ^ odd
      let h := (e - odd) / 2
      let big := 2 ^ 320
      let r := isqrt (big / m')
      (.fin false (2 * r + (if r * r * m' == big then 0 else 1)) (-161 - h), 0)

/-- 2^a. -/
def fex2V (v : FV) : FV × Flags :=
  match v with
  | .nan s => (.nan false, flagIf s fNV)
  | .inf n => if n then (.fin false 0 0, 0) else (.inf false, 0)
  | .fin neg m e =>
    if m == 0 then (.fin false 1 0, 0)
    else if geTwo m e 12 then (.fin false 1 (if neg then -4096 else 4096), 0)
    else
      let x : Int := if neg then -(toFix m e : Int) else toFix m e
      let n := x / 2 ^ fixP
      let fr := (x % 2 ^ fixP).toNat
      if fr == 0 then (.fin false 1 n, 0)
      else
        let y := expSeries 100 1 (fr * ln2Fix / 2 ^ fixP) (2 ^ fixP)
        (.fin false (2 * y + 1) (n - fixP - 1), 0)

/-- log2 a. -/
def flg2V (v : FV) : FV × Flags :=
  match v with
  | .nan s => (.nan false, flagIf s fNV)
  | .inf n => if n then (.nan false, fNV) else (.inf false, 0)
  | .fin n m e =>
    if m == 0 then (.inf true, fDZ)
    else if n then (.nan false, fNV)
    else
      let k := leadExp m e
      let one := 2 ^ Nat.log2 m
      if m == one then (ofInt k, 0)
      else
        let y := (m - one) * 2 ^ fixP / (m + one)
        let ln := 2 * atanhSeries 130 1 (y * y / 2 ^ fixP) y
        (fixFv (k * 2 ^ fixP + (ln * 2 ^ fixP / ln2Fix : Nat)), 0)

/-- sin or cos of pi times a fraction t of a half turn, 0 < t < 1/2, in fixed point. -/
def sinFix (t : Nat) : Int :=
  let x := t * piFix / 2 ^ fixP
  trigSeries 60 1 (x * x / 2 ^ fixP) x false

def cosFix (t : Nat) : Int :=
  let x := t * piFix / 2 ^ fixP
  trigSeries 60 0 (x * x / 2 ^ fixP) (2 ^ fixP) false

/-- sin(pi a) of a = r / 2^384 in [0, 2) given as quarter turns q and rest t: exact at t = 0. -/
def sinQuad (q t : Nat) : FV :=
  let h := q % 4
  let neg := decide (h ≥ 2)
  let v := if h % 2 == 0 then (if t == 0 then FV.fin false 0 0 else fixFv (sinFix t))
    else (if t == 0 then FV.fin false 1 0 else fixFv (cosFix t))
  if neg then v.flip else v

/-- a modulo 2 of a = m * 2^e, in fixed point. -/
def modTwo (m : Nat) (e : Int) : Nat := if e ≥ 1 then 0 else toFix m e % 2 ^ (fixP + 1)

/-- sin(pi a); a zero result takes the sign of a. -/
def fsinV (v : FV) : FV × Flags :=
  match v with
  | .nan s => (.nan false, flagIf s fNV)
  | .inf _ => (.nan false, fNV)
  | .fin neg m e =>
    let r := modTwo m e
    match sinQuad (r / 2 ^ (fixP - 1)) (r % 2 ^ (fixP - 1)) with
    | .fin _ 0 _ => (.fin neg 0 0, 0)
    | w => (if neg then w.flip else w, 0)

/-- cos(pi a); a zero result is +0. -/
def fcosV (v : FV) : FV × Flags :=
  match v with
  | .nan s => (.nan false, flagIf s fNV)
  | .inf _ => (.nan false, fNV)
  | .fin _ m e =>
    let r := modTwo m e
    match sinQuad (r / 2 ^ (fixP - 1) + 1) (r % 2 ^ (fixP - 1)) with
    | .fin _ 0 _ => (.fin false 0 0, 0)
    | w => (w, 0)

/-! ### Stochastic rounding (R87, R88) -/

/-- Mix32 (R88). -/
def mix32 (key : Word) : Word :=
  let h := key ^^^ (key >>> 16)
  let h := h * 0x6C8E9CF5#32
  let h := h ^^^ (h >>> 13)
  let h := h * 0xB5297A4D#32
  h ^^^ (h >>> 16)

/-- The key of element e from its neighbours' discard words and its index (R88). -/
def srKey (dPrev dNext idx : Word) : Word := dPrev ^^^ dNext.rotateLeft 13 ^^^ (idx * 0x9E3779B9#32)

end Sys2Proof.Machine
end

