-- ==== Sys2Proof/Machine/Operands.lean ====
section
/-! DEFINITION. Operands: the decode checks of R45 step 5, indirect resolution, constants, and reading and writing the
registers a word names (R27 to R36, R45). -/

namespace Sys2Proof.Machine

/-- The lane numbers. -/
def laneList : List Nat := List.range 32

/-- 32 lane values. -/
def lanesOf (g : Nat → Word) : List Word := laneList.map g

/-- Bit l of a mask. -/
def lane (m : Word) (l : Nat) : Bool := m.getLsbD l

/-- The mask of the lanes that satisfy p. -/
def maskOf (p : Nat → Bool) : Word := BitVec.ofNat 32 (laneList.foldl (fun a l => if p l then a + 2 ^ l else a) 0)

/-- The lowest set lane of a mask, or 32. -/
def lowLane (m : Word) : Nat := ((laneList.find? fun l => lane m l).getD 32)

/-- Sign extension of a number of n bits. -/
def sext (n v : Nat) : Int := if v % 2 ^ n ≥ 2 ^ (n - 1) then (v % 2 ^ n : Nat) - (2 ^ n : Nat) else (v % 2 ^ n : Nat)

/-- The n-bit pattern of an integer. -/
def wrap (n : Nat) (v : Int) : Nat := (v % (2 ^ n : Nat)).toNat

/-! ### Inline constants (R35, R36) -/

/-- The value of a floating constant 928 to 971 and 975, as an exact value; an irrational value carries a sticky bit
2^-120 below its leading places. -/
def constFloat (n : Nat) : FV :=
  if 928 ≤ n ∧ n ≤ 944 then .fin false 1 ((n : Int) - 936)
  else if 945 ≤ n ∧ n ≤ 961 then .fin true 1 ((n : Int) - 953)
  else match n with
    | 962 => .fin false 3 0
    | 963 => .fin false 10 0
    | 964 => .fin false 0x333333333333333333333333333333 (-121)
    | 965 => .fin false 0xa2f9836e4e441529fc2757d1f534dd (-121)
    | 966 => .fin false 0x6487ed5110b4611a62633145c06e0e7 (-121)
    | 967 => .fin false 0x162e42fefa39ef35793c7673007e5ed (-121)
    | 968 => .fin false 0x2e2a8eca5705fc2eefa1ffb41a474fb (-121)
    | 969 => .fin false 0x2d413cccfe779921165f626cdd52afb (-121)
    | 970 => .inf false
    | 971 => .inf true
    | 975 => .fin true 0 0
    | _ => .nan false

/-- The integer of an integer or lane constant. -/
def constInt (n l : Nat) : Int :=
  if n < 896 then (n : Int) - 768
  else if n < 928 then 895 - (n : Int)
  else match n with | 992 => l | 993 => 4 * l | _ => 8 * l

/-- A floating constant. -/
def isConstFloat (n : Nat) : Bool := decide (928 ≤ n ∧ n ≤ 975)

/-- A constant's code in a float format. -/
def constFp (p : Fp) (n l : Nat) : Nat :=
  if isConstFloat n then
    match n with
    | 972 => p.nan
    | 973 => p.maxFin
    | 974 => 2 ^ p.fb
    | _ => (p.round mRNE false (constFloat n)).1
  else (p.round mRNE false (ofInt (constInt n l))).1

/-- The IEEE format of a width of 16 bits or more (R36). -/
def fpOfWidth (n : Nat) : Fp := if n == 16 then fp16 else if n == 32 then fp32 else fp64

/-- A constant as an integer or bits operand of n bits. -/
def constBits (n c l : Nat) : Nat :=
  if isConstFloat c then constFp (fpOfWidth n) c l % 2 ^ n else wrap n (constInt c l)

/-- A constant's bits in an operand's format (R36). -/
def constVal (cf : CF) (c l : Nat) : Nat :=
  match cf with
  | .int n => constBits n c l
  | .f64 => constFp fp64 c l
  | .f32 => constFp fp32 c l
  | .f16 => constFp fp16 c l
  | .bf16 => constFp Sys2Proof.Machine.bf16 c l
  | .f16x2 => let v := constFp fp16 c l; v + v * 65536
  | .bf16x2 => let v := constFp Sys2Proof.Machine.bf16 c l; v + v * 65536
  | .pack n => let v := constBits n c l; (List.range (32 / n)).foldl (fun a i => a + v * 2 ^ (n * i)) 0
  | .narrow => 0

/-- Whether R36 accepts a constant in an operand's format. -/
def constOk (cf : CF) (c : Nat) : Bool :=
  match cf with
  | .int n | .pack n => n ≥ 16 || !isConstFloat c
  | .narrow => false
  | _ => true

/-! ### Resolution -/

/-- An operand's registers after resolution. Predicate number 8 is `exec`. -/
inductive ROp where
  | v (n : Nat)
  | s (n : Nat)
  | p (n : Nat)
  | x (n : Nat)
  | q (n : Nat)
  | k (c : Nat)
  deriving DecidableEq, Repr

/-- How many registers an operand takes. -/
def OW.count : OW → Nat
  | .one => 1
  | .pair => 2
  | .quad => 4
  | .grp n => n

/-- The alignment an operand's first register needs (R30, R176). -/
def OW.align : OW → Nat
  | .pair => 2
  | .quad => 4
  | _ => 1

/-- The fault codes of R425. -/
def kILLINST : Nat := 1
def kILLOPND : Nat := 2
def kREGBOUND : Nat := 3
def kEMPTY : Nat := 4
def kCONVERGE : Nat := 5
def kPAGE : Nat := 6
def kPROT : Nat := 7
def kSPRANGE : Nat := 8
def kDET : Nat := 9
def kMCHECK : Nat := 10
def kWATCHDOG : Nat := 11
def kTRAP : Nat := 12
def kBREAK : Nat := 13

/-- The check of R45 step 5 on one operand field: the code it raises, or none. A field that names both an odd pair and a
register at or above the allotment has two outcomes in step 5 without an order: the model raises register-bounds (log
entry 32). -/
def opndCheck (allot : Nat) (u : OpUse) (o : Opd) : Option Nat :=
  let n := o.num.toNat
  if o.ind then (if n < 384 && u.ks.contains .v then none else some kILLOPND)
  else match regKind o.num with
    | none => some kILLOPND
    | some kd =>
      if !u.ks.contains kd then some kILLOPND
      else match kd with
        | .v =>
          if n ≥ allot then some kREGBOUND
          else if n % u.w.align != 0 then some kILLOPND
          else if n + u.w.count > allot then some kREGBOUND
          else none
        | .s => if n % u.w.align != 0 || n - 512 + u.w.count > 64 then some kILLOPND else none
        | .k => if constOk u.c n then none else some kILLOPND
        | .p | .x => if u.w.count > 1 then some kILLOPND else none
        | .q => if u.w.count > 2 then some kILLOPND else none

/-- Resolution of an operand field that has passed step 5 (R31, R45 step 7); xr is the index register of its place. -/
def opndResolve (allot : Nat) (xr : Word) (u : OpUse) (o : Opd) : Except Nat ROp :=
  let n := o.num.toNat
  if o.ind then
    let e : Int := (n : Int) + xr.toInt
    if e < 0 || e > (allot : Int) - (u.w.count : Int) then .error kREGBOUND
    else if e.toNat % u.w.align != 0 then .error kILLOPND
    else .ok (.v e.toNat)
  else match regKind o.num with
    | some .v => .ok (.v n)
    | some .s => .ok (.s (n - 512))
    | some .p => .ok (.p (n - 576))
    | some .x => .ok (.x (n - 588))
    | some .q => .ok (.q (n - 600))
    | _ => .ok (.k n)

/-- The register number a record gives an operand (R424 OPND). -/
def ROp.num : ROp → Nat
  | .v n => n
  | .s n => 512 + n
  | .p n => 576 + n
  | .x n => 588 + n
  | .q n => 600 + n
  | .k c => c

/-! ### Reading -/

/-- The allotment of a wave. -/
def Wave.allot (w : Wave) : Nat := w.v.length

/-- A predicate or `exec` (R28: p0 reads all ones). -/
def Wave.pr (w : Wave) (n : Nat) : Word := if n == 0 then allLanes else if n == 8 then w.exec else w.p.getD n 0

def Wave.sr (w : Wave) (n : Nat) : Word := w.s.getD n 0
def Wave.xr (w : Wave) (n : Nat) : Word := w.x.getD n 0
def Wave.vl (w : Wave) (n l : Nat) : Word := match w.v[n]? with | some r => r.lanes.getD l 0 | none => 0
def Wave.vfull (w : Wave) (n : Nat) : Bool := match w.v[n]? with | some r => r.full | none => true

/-- The values of a source: one list of 32 lane words per register. -/
abbrev SrcVal := List (List Word)

/-- A source's 32-bit value in a lane; register i of a group. -/
def SrcVal.w (v : SrcVal) (l : Nat) (i : Nat := 0) : Word := (v.getD i []).getD l 0

/-- A source's 64-bit value in a lane. -/
def SrcVal.d (v : SrcVal) (l : Nat) : Nat := (v.w l 0).toNat + 2 ^ 32 * (v.w l 1).toNat

/-- A source's value in a lane at an operand width. -/
def SrcVal.n (v : SrcVal) (wide : Bool) (l : Nat) : Nat := if wide then v.d l else (v.w l).toNat

/-- Word i of a number. -/
def wordI (v i : Nat) : Word := BitVec.ofNat 32 (v / 2 ^ (32 * i))

/-- The values of an operand that is no queue. -/
def readOp (w : Wave) (u : OpUse) (r : ROp) : SrcVal :=
  (List.range u.w.count).map fun i => match r with
    | .v n => lanesOf fun l => w.vl (n + i) l
    | .s n => lanesOf fun _ => w.sr (n + i)
    | .p n => lanesOf fun _ => w.pr n
    | .x n => lanesOf fun _ => w.xr n
    | .q _ => []
    | .k c => lanesOf fun l => wordI (constVal u.c c l) i

/-- The values of a popped queue entry (R34). -/
def readEntry (u : OpUse) (e : QEntry) : SrcVal :=
  (List.range u.w.count).map fun i => lanesOf fun l => wordI (e.vals.getD l 0) i

/-! ### Writing -/

/-- Replaces element i of a list. -/
def setAt {α : Type} (l : List α) (i : Nat) (x : α) : List α := l.set i x

/-- A vector register with the lanes of m replaced, its full bit kept (R38). -/
def VReg.put (r : VReg) (m : Word) (g : Nat → Word) : VReg :=
  { r with lanes := lanesOf fun l => if lane m l then g l else r.lanes.getD l 0 }

/-- Writes the lanes of m of a vector register. -/
def Wave.wv (w : Wave) (n : Nat) (m : Word) (g : Nat → Word) : Wave :=
  match w.v[n]? with
  | some r => { w with v := w.v.set n (r.put m g) }
  | none => w

/-- Marks count vector registers from n full or empty (R38). -/
def Wave.setFull (w : Wave) (n count : Nat) (b : Bool) : Wave :=
  (List.range count).foldl (fun w i => match w.v[n + i]? with
    | some r => { w with v := w.v.set (n + i) { r with full := b } }
    | none => w) w

def Wave.ws (w : Wave) (n : Nat) (v : Word) : Wave := { w with s := w.s.set n v }
def Wave.wx (w : Wave) (n : Nat) (v : Word) : Wave := { w with x := w.x.set n v }

/-- Writes a predicate or `exec`; p0 ignores the write (R28). -/
def Wave.wp (w : Wave) (n : Nat) (v : Word) : Wave :=
  if n == 0 then w else if n == 8 then { w with exec := v } else { w with p := w.p.set n v }

/-- Writes count words of lane values to a vector group under a mask. -/
def Wave.wvGrp (w : Wave) (n count : Nat) (m : Word) (g : Nat → Nat → Word) : Wave :=
  (List.range count).foldl (fun w i => w.wv (n + i) m (g i)) w

/-- Writes a scalar destination of one or two words. -/
def Wave.wScalar (w : Wave) (r : ROp) (count : Nat) (v : Nat) : Wave :=
  match r with
  | .s n => (List.range count).foldl (fun w i => w.ws (n + i) (wordI v i)) w
  | .x n => w.wx n (wordI v 0)
  | .p n => w.wp n (wordI v 0)
  | _ => w

end Sys2Proof.Machine
end

