-- ==== Sys2Proof/Machine/Versions.lean ====
section
/-! DEFINITION. Fault records and their queue, and the life of tasks, waves and versions that faults act on
(R323, R327, R424 to R428, R446). -/

namespace Sys2Proof.Machine

/-- Whether a context's work runs: it is neither saved, being saved nor restored, and the part has not stopped. -/
def ctxRuns (s : State) (asid : Nat) : Bool :=
  !s.plat.stopped && (match s.ctx? asid with | some c => c.wd == .armed && !c.restoring | none => false)

namespace State

/-! ### Names -/

/-- The task identifier of a submitted node (R301). -/
def taskId (n : Node) : Nat := match n.index with | some i => i % 2 ^ 24 + n.queue % 64 * 2 ^ 24 | none => 0

/-- The LOC of a wave (R111, R424). -/
def locOf (w : Wave) : Nat := w.core % 128 + w.quad % 4 * 256 + w.slot % 16 * 1024

def nodeOf (s : State) (w : Wave) : Node := (s.node? w.node).getD { nid := w.node, asid := w.asid }

/-! ### Ending waves and discarding work (R307, R308, R323, R327) -/

/-- Forgets what waited for replies on behalf of waves that are gone (R428). -/
def dropWaiters (s : State) (p : Nat → Bool) : State :=
  { s with ctxs := s.ctxs.map fun c => { c with waiting := c.waiting.filter fun x => match x.2.1 with
      | .wave wid | .debug wid => !p wid
      | .access id => s.accs.any fun a => a.id == id && !p a.wid
      | _ => true } }

/-- Removes rays: their slots are free again (R378). -/
def freeRays (s : State) (p : Ray → Bool) : State :=
  let s := (s.rays.filter p).foldl (fun s r => match s.ctx? r.asid with
    | some c => s.partWrite r.asid (c.raybase + 0x400 + 4 * r.num) (leBytes 4 0xFFFFFFFF)
    | none => s) s
  { s with rays := s.rays.filter fun r => !p r }

/-- Rays that end with nodes: those of an owner that is gone and those that a gone continuation task serves. -/
def rayGone (gone : Nat → Bool) (r : Ray) : Bool :=
  gone r.owner || (match r.place with | .inWave n => gone n | _ => false)

/-- What nodes hold in units ends with them (R254, R276, R354, R372, R378): arrays, bank leases and commands,
reduction jobs that have not started, and rays; engine entries end with a discarded version (R347). -/
def releaseUnits (s : State) (gone : Nat → Bool) : State :=
  let s := s.freeRays (rayGone gone)
  { s with
    arrays := s.arrays.filter fun a => !gone a.holder
    pchs := s.pchs.filter fun p => !gone p.holder
    bcmds := s.bcmds.filter fun c => !gone c.node
    entries := s.entries.filter fun e => !gone e.node
    jobs := s.jobs.filter fun j => !(gone j.node && j.st == .queued) }

/-- Removes waves at once with their streams, unperformed accesses and landings. -/
def dropWaves (s : State) (p : Wave → Bool) : State :=
  let gone := (s.waves.filter p).map (·.wid)
  let nodes := (s.waves.filter p).map (·.node)
  let s := s.releaseUnits fun n => nodes.contains n
  let s := { s with
    waves := s.waves.filter fun w => !p w
    streams := s.streams.filter fun t => !gone.contains t.wid
    accs := s.accs.filter fun a => !gone.contains a.wid
    lands := s.lands.filter fun l => !gone.contains l.wid
    unitQ := s.unitQ.filter fun u => !gone.contains u.wid }
  s.dropWaiters fun wid => gone.contains wid

/-- Frees a node's slot: its tag advances (R301). -/
def tagOf (s : State) (die slot : Nat) : Nat :=
  match s.tags.find? fun t => t.1 == die * Config.nodeSlots + slot with | some t => t.2 | none => 0

def freeNode (s : State) (n : Node) : State :=
  let s := s.releaseUnits fun x => x == n.nid
  let key := n.die * Config.nodeSlots + n.slot
  { s with
    nodes := s.nodes.filter fun x => x.nid != n.nid
    tags := if n.kind == .cont then s.tags
            else (key, (s.tagOf n.die n.slot + 1) % 2 ^ 13) :: s.tags.filter fun t => t.1 != key
    spads := s.spads.filter fun p => p.node != n.nid }

/-- A node's successors no longer wait for it; one that waits for nothing more is ready (R300, R307). -/
def releaseDependents (s : State) (nid : Nat) : State :=
  let one (n : Node) : Node :=
    let n := { n with preds := n.preds.filter fun p => p != nid }
    if n.stage == .waiting && n.preds.isEmpty then { n with stage := .ready, readyAt := s.ns } else n
  { s with nodes := s.nodes.map one }

/-- Cancels nodes: their waves end and their slots are freed without records (R307); successors in the same set are
cancelled with them. -/
def cancelNodes (s : State) (ids : List Nat) : State :=
  let s := s.dropWaves fun w => ids.contains w.node
  (s.nodes.filter fun n => ids.contains n.nid).foldl (fun s n => (s.releaseDependents n.nid).freeNode n) s

/-- The nodes of a version family. -/
def famNodes (s : State) (fid : Nat) : List Node := s.nodes.filter fun n => n.fam == some fid

/-- Drops the speculative data of a family: its version, its `redo` entries and the messages between its gang words (R217,
R327). -/
def dropVersion (s : State) (fid : Nat) : State :=
  { s with
    gangMsgs := s.gangMsgs.filter fun m => ((s.node? m.node).bind (·.fam)) != some fid
    fams := s.fams.filter fun f => f.fid != fid
    redos := s.redos.filter fun e => e.fam != fid
    l1 := s.l1.filter fun x => x.fam != some fid }

/-- Discards a version (R327): its waves end with what they hold, its units are released, its provisional children are
cancelled and its data dropped. -/
def discardFamily (s : State) (fid : Nat) : State :=
  let s := s.dropWaves fun w => ((s.node? w.node).bind (·.fam)) == some fid
  let s := s.releaseUnits fun n => ((s.node? n).bind (·.fam)) == some fid
  let s := s.cancelNodes ((s.nodes.filter fun n => n.birth == some fid).map (·.nid))
  s.dropVersion fid

/-- A family enters HOLD (R323, R324). -/
def enterHold (s : State) (fid : Nat) : State :=
  { s with fams := modify (fun f => f.fid == fid && f.st == .spec) (fun f => { f with st := .hold }) s.fams }

/-- The owner of a node's version family, or of a continuation task (R304, R395); itself otherwise. -/
def ownerNode (s : State) (n : Node) : Node :=
  match n.fam.bind s.fam? with
  | some f => (s.node? f.owner).getD n
  | none => match n.owner.bind s.node? with
    | some o => o
    | none => n

/-- Stops a queue at a node with a status (R323). -/
def stopQueue (s : State) (n : Node) (status : Nat) : State :=
  let s := s.setNode { n with stage := .stopped, status := status }
  match s.ctx? n.asid with
  | none => s
  | some c => match c.queues[n.queue]? with
    | some q => s.setCtx { c with queues := c.queues.set n.queue { q with stopped := some status } }
    | none => s

/-- A node as it stands before dispatch, for a rerun from its record (R327). -/
def fresh' (n : Node) : Node :=
  { n with stage := .ready, status := 0, placed := 0, halts := [], fam := none, redoFlags := 0, tallocDone := [], contRan := false
           startMark := 0, contNum := 0, settled := false, gangAt := [] }

/-- The members of a family other than its owner, and the continuation tasks of its owner, are cancelled with it (R307). -/
def cancelMembers (s : State) (owner : Nat) (fam : Option Nat) : State :=
  let ids := (s.nodes.filter fun n => n.nid != owner && ((fam.isSome && n.fam == fam) || n.owner == some owner)).map (·.nid)
  s.cancelNodes ids

/-- The cores that hold waves or arrays of nodes. -/
def coresOf (s : State) (p : Nat → Bool) : List Nat :=
  (((s.waves.filter fun w => p w.node && !w.spilled).map (·.core)) ++ ((s.arrays.filter fun a => p a.holder).map (·.core))).dedup

/-- A rerun from the record that keeps off some cores, unless they are all that is left of the die (R331); one after a machine check
counts in the completion record (R322). -/
def rerunNode (s : State) (o : Node) (avoid : List Nat) (checked : Bool) : State :=
  let left := ((List.range Config.coresPerDie).map fun i => o.die * Config.coresPerDie + i).filter fun c =>
    !avoid.contains c && !s.deadCores.contains c
  s.setNode { fresh' o with reruns := o.reruns + 1, checked := o.checked + (if checked then 1 else 0), readyAt := s.ns
                            avoid := if left.isEmpty then [] else avoid }

/-- What a task that has been ended still holds goes with its last wave (R307, R323). -/
def endHolding (s : State) (nid : Nat) : State :=
  match s.node? nid with
  | some n =>
    if (n.stage == .ready || n.stage == .stopped || n.stage == .complete) && !(s.waves.any fun w => w.node == nid) then
      let s := s.releaseUnits fun x => x == nid
      { s with spads := s.spads.filter fun p => p.node != nid }
    else s
  | none => s

/-- The waves of nodes stop at their next instruction boundaries, and halt there with what they have issued (R308 step 1). -/
def stopWaves (s : State) (p : Nat → Bool) : State :=
  let s := { s with waves := modify (fun w => p w.node) (fun w => { w with ending := true, held := false }) s.waves }
  s.dropWaiters fun wid => match s.wave? wid with | some w => p w.node | none => false

/-- A task's rays end with it; its continuation tasks that have begun stop as its own waves do, and the others are cancelled. -/
def stopConts (s : State) (owner : Nat) : State :=
  let conts := s.nodes.filter fun n => n.owner == some owner
  let begun (nid : Nat) : Bool := s.waves.any fun w => w.node == nid
  let s := s.freeRays fun r => r.owner == owner
  let s := s.cancelNodes ((conts.filter fun n => !begun n.nid).map (·.nid))
  s.stopWaves fun nid => conts.any fun n => n.nid == nid

/-- A task of a non-speculative family ends: its waves halt at their next instruction boundaries and their effects stay
(R308 step 1, R323, R431); its rays and the messages between its gang words go. An IDEM task runs again where that is admitted, and
otherwise its queue stops with PARTIAL. One that has no wave left to end gives up what it holds at once. A task that has ended before,
or is complete, is left. -/
def endDirect (s : State) (n : Node) (rerunIdem checked : Bool) (avoid : List Nat) : State :=
  if n.stage != .running then s
  else
  let s := (s.stopConts n.nid).stopWaves fun nid => nid == n.nid
  let s := { s with gangMsgs := s.gangMsgs.filter fun m => m.node != n.nid }
  (if rerunIdem && n.launch.idem && n.reruns < 3 then s.rerunNode n avoid checked else s.stopQueue n 4).endHolding n.nid

/-- The family that an event of a node concerns: its own, or its owner's (R323). -/
def eventFam (s : State) (n : Node) : Option Family := (n.fam.bind s.fam?) <|> ((s.ownerNode n).fam.bind s.fam?)

/-- That family while it is speculative and a discard still reaches it: it has not committed (R323). -/
def openVersion (s : State) (n : Node) : Option Family := (s.eventFam n).filter fun f => f.st != .direct && !f.committed

/-- Whether the family of a node is non-speculative, which a record tells in PARTIAL (R323, R424, R431). -/
def nonSpec (s : State) (n : Node) : Bool := match s.eventFam n with | some f => f.st == .direct | none => true

/-- PARTIAL of a record that concerns a node. -/
def partialFlag (s : State) (nid : Nat) : Nat := match s.node? nid with | some n => if s.nonSpec n then 2 else 0 | none => 0

/-- Ends a family (R323). A speculative version is discarded, and the owner runs again from its record or stops its queue
with TRAPPED. A non-speculative family keeps its effects: the owner and the task in which the event arose, or whose continuation it
was, end, and its other accepted tasks run on. Nothing is left to end of a family whose owner's retirement has committed it. -/
def endFamily (s : State) (n : Node) (rerunSpec rerunIdem : Bool) (avoid : List Nat := []) : State :=
  let o := s.ownerNode n
  if (s.openVersion n).isSome then
    let s := s.cancelMembers o.nid o.fam
    let s := s.dropWaves fun w => w.node == o.nid
    let s := s.releaseUnits fun x => x == o.nid
    let s := { s with spads := s.spads.filter fun p => p.node != o.nid }
    let s := match o.fam with | some f => s.discardFamily f | none => s
    if rerunSpec && o.reruns < 3 then s.rerunNode o avoid true else s.stopQueue o 3
  else if !s.nonSpec n then s
  else
    let task := if n.kind == .cont then n.owner.getD n.nid else n.nid
    let s := s.endDirect o rerunIdem rerunSpec avoid
    if task == o.nid then s
    else match s.node? task with
      | some n => s.endDirect n rerunIdem rerunSpec avoid
      | none => s

/-- After a trap that no handler resolved (R323, R431): only a non-speculative IDEM owner runs again. -/
def endFamilyTrapped (s : State) (n : Node) : State := s.endFamily n false true

/-- After a machine check or a core fault: the rerun keeps off the cores that the family was on (R323, R331, R434). -/
def endFamilyChecked (s : State) (n : Node) : State :=
  let o := s.ownerNode n
  s.endFamily n true true (s.coresOf fun k => k == o.nid || (match s.node? k with | some m => m.fam.isSome && m.fam == o.fam | none => false))

/-! ### The fault queue (R424, R427, R446) -/

/-- The 64 bytes of a record (R424). -/
def recBytes (r : FaultRec) : List Byte :=
  leBytes 1 r.code ++ leBytes 1 r.cause ++ leBytes 1 r.flags ++ leBytes 1 r.source ++ leBytes 4 r.task
    ++ leBytes 8 r.pc.toNat ++ leBytes 8 r.addr.toNat ++ leBytes 4 r.mask.toNat ++ leBytes 2 r.opnd ++ leBytes 2 r.loc
    ++ leBytes 8 r.time ++ leBytes 2 r.asid ++ leBytes 1 r.slot ++ leBytes 1 0 ++ leBytes 4 r.ray ++ leBytes 8 r.info
    ++ leBytes 4 r.seq ++ leBytes 4 0

/-- Raises a context's MSI-X vector (R446). -/
def raiseVector (s : State) (c : Context) : State :=
  { s with plat := { s.plat with msix := s.plat.msix ++ [c.vector]
                                 vectors := s.plat.vectors.set c.vector (s.plat.vectors.getD c.vector 0 + 1) } }

/-- The record of an unresolved trap is written: its task ends (R427, R431). -/
def endTrapped (s : State) (wt : Waiter) : State :=
  match wt with
  | .ends wid => match s.wave? wid with
    | some w => if w.held then s.endFamilyTrapped (s.nodeOf w) else s
    | none => s
  | _ => s

/-- A record as it is written: it takes the clock's reading, which its copy for a reply takes too (R424). -/
def timedRec (s : State) (c : Context) (r : FaultRec) : Context :=
  { c with waiting := modify (fun x => x.1 == r.seq) (fun x => (x.1, x.2.1, { x.2.2 with time := s.ns })) c.waiting }

/-- Writes waiting fault records while the ring has room: at most n of them. A task whose unresolved trap one of them
records ends with it. -/
def flushFq : Nat → State → Nat → State
  | 0, s, _ => s
  | n + 1, s, asid =>
    match s.ctx? asid with
    | none => s
    | some c =>
      match c.fqWait with
      | [] => s
      | (r, wt) :: rest =>
        let rd := leNat (s.partRead asid (c.fq - 16) 8)
        let s := s.partTouch asid (c.fq - 16)
        if s.partHeld asid (c.fq - 16) || s.partHeld asid (c.fq + 64 * (c.fqWr % c.fqslots)) || c.fqWr - rd ≥ c.fqslots then s
        else
          let s := s.setCtx { s.timedRec c r with fqWait := rest, fqWr := c.fqWr + 1 }
          let s := s.partWrite asid (c.fq + 64 * (c.fqWr % c.fqslots)) (recBytes { r with time := s.ns })
          let s := s.partWrite asid (c.fq - 8) (leBytes 8 (c.fqWr + 1))
          flushFq n ((if c.fqWr == rd then s.raiseVector c else s).endTrapped wt) asid

/-- Appends a record to its context's fault queue, in SEQ order, and remembers what waits for its reply. -/
def appendRec (s : State) (r : FaultRec) (wt : Waiter) : State :=
  match s.ctx? r.asid with
  | none => s
  | some c =>
    let r := { r with seq := c.seq % 2 ^ 32, time := s.ns }
    let waits : Bool := match wt with | .nothing | .ends _ => false | _ => true
    let s := s.setCtx { c with seq := c.seq + 1, fqWait := c.fqWait ++ [(r, wt)]
                               waiting := if waits then c.waiting ++ [(r.seq, wt, r)] else c.waiting }
    flushFq (c.fqWait.length + 1) s r.asid

/-- Writes waiting event records while the event queue has room (R322, R446). -/
def flushEv : Nat → State → Nat → State
  | 0, s, _ => s
  | n + 1, s, asid =>
    match s.ctx? asid with
    | none => s
    | some c =>
      match c.evWait with
      | [] => s
      | r :: rest =>
        let rd := leNat (s.partRead asid (c.evq - 16) 8)
        let s := s.partTouch asid (c.evq - 16)
        if s.partHeld asid (c.evq - 16) || s.partHeld asid (c.evq + 32 * (c.evWr % c.evslots)) || c.evWr - rd ≥ c.evslots then s
        else
          let s := s.setCtx { c with evWait := rest, evWr := c.evWr + 1 }
          let s := s.partWrite asid (c.evq + 32 * (c.evWr % c.evslots)) r
          let s := s.partWrite asid (c.evq - 8) (leBytes 8 (c.evWr + 1))
          flushEv n (if c.evWr == rd then s.raiseVector c else s) asid

/-- Whether the event queue of a context has room for a record (R321). -/
def evRoom (s : State) (c : Context) : Bool :=
  c.evWait.isEmpty && decide (c.evWr - leNat (s.partRead c.asid (c.evq - 16) 8) < c.evslots)

/-- Writes the records that wait for room in a context's rings, after the host may have freed entries (R427, R446). -/
def flushRings (s : State) (asid : Nat) : State :=
  match s.ctx? asid with
  | some c => if c.fqWait.isEmpty && c.evWait.isEmpty then s else flushEv c.evWait.length (flushFq c.fqWait.length s asid) asid
  | none => s

/-- Appends a 32-byte event record. -/
def appendEv (s : State) (asid : Nat) (r : List Byte) : State :=
  match s.ctx? asid with
  | none => s
  | some c => flushEv (c.evWait.length + 1) (s.setCtx { c with evWait := c.evWait ++ [r] }) asid

/-- A completion or event record (R322). -/
def eventBytes (task status flags kind time source reruns : Nat) : List Byte :=
  leBytes 4 task ++ leBytes 2 status ++ leBytes 1 flags ++ leBytes 1 kind ++ leBytes 8 time ++ leBytes 8 source
    ++ leBytes 2 reruns ++ leBytes 6 0

/-- An event of the whole context (R322, R455). -/
def contextEvent (s : State) (c : Context) (status : Nat) : State :=
  s.appendEv c.asid (eventBytes 0xFFFFFFFF status 0 255 s.ns c.desc 0)

end State

end Sys2Proof.Machine
end

