-- ==== Sys2Proof/Machine/Ops.lean ====
section
/-! DEFINITION. The shared operations of every wave instruction: taking a trap and returning from one, and the issue of
an instruction with the checks of R45, the guard of R37, the full/empty rules of R39 and R40 and lane replay. -/

namespace Sys2Proof.Machine

/-- The die of a core (R9). -/
def dieOf (core : Nat) : Nat := core / Config.coresPerDie

namespace State

/-! ### Taking an exception (R430, R431) -/

/-- FLAGS of a record of a wave: PARTIAL where its family is non-speculative, NESTED in state Handler (R424). -/
def waveFlags (s : State) (w : Wave) : Nat := (if s.nonSpec (s.nodeOf w) then 2 else 0) + (if w.hnd then 4 else 0)

/-- The record of a fault of a wave's current instruction (R424). -/
def waveRec (s : State) (w : Wave) (code cause : Nat) (addr : Nat) (mask : Word) (opnd info : Nat) : FaultRec :=
  { code := code, cause := cause, flags := s.waveFlags w, task := taskId (s.nodeOf w), pc := w.pc, addr := BitVec.ofNat 64 addr, mask := mask
    opnd := opnd, loc := locOf w, time := s.ns, asid := w.asid, info := info }

/-- The handler of a wave: its launch record's, or its owner's in a continuation wave (R396, R430). -/
def handlerOf (s : State) (w : Wave) : Word64 := (s.nodeOf w).launch.handler

/-- The report of a wave's range mask, due where it is nonzero (R110, R425). -/
def rangeRec (s : State) (w : Wave) : Option FaultRec :=
  if w.range == 0 then none else some { s.waveRec w kSPRANGE 0 0 w.range 0 0 with flags := 8 + s.waveFlags w }

/-- The reports due for the waves of a task that ends at once. -/
def rangeRecs (s : State) (nid : Nat) : List FaultRec := (s.waves.filter fun w => w.node == nid).filterMap s.rangeRec

/-- The lanes of a load that finished before its replay ended in a trap land: its group waits for the others no longer (log entry 14). -/
def landFinished (s : State) (w : Wave) : State :=
  match w.rp.bind (·.gid) with
  | some g => { s with lands := modify (fun l => l.gid == g) (fun l => { l with held := false }) s.lands }
  | none => s

/-- The trap path of R430: the trap registers take the record, `epc` and `eexec` are saved, every lane becomes active
and the wave enters its handler. In state Handler, or without a handler, the trap is unresolved: the wave stays where it is
until its record has been written, and its task then ends (R427, R431). -/
def takeTrap (s : State) (w : Wave) (r : FaultRec) (epc : Word64) : State :=
  if w.hnd || s.handlerOf w == 0 then
    let reports := if s.nonSpec (s.nodeOf w) then [] else s.rangeRecs w.node
    let s := s.setWave { w with st := .blocked, waitCtr := 0, held := true }
    let s := s.appendRec { r with flags := s.waveFlags w } (.ends w.wid)
    reports.foldl (fun s r => s.appendRec r .nothing) s
  else
    (s.landFinished w).setWave
      { w with trapRec := { r with flags := s.waveFlags w }, epc := epc, eexec := w.exec, exec := allLanes, hnd := true, pc := s.handlerOf w
               st := .ready, rp := none, pending := none, waitCtr := 0, bndFrom := none }

/-- `tret` in state Handler (R433). -/
def returnTrap (w : Wave) : Wave := { w with pc := w.epc, exec := w.eexec, hnd := false }

/-! ### Replay and debug stops (R172, R437) -/

/-- A wave enters Replay at its instruction: the record with REPLAY set, and the unfinished lanes (R172, R173). One whose lanes are
only parked, by the lock of a migration or a channel failure, waits there for the part with no record (R252, R457, R461). A deferred
command's fault carries the count of that command, `cmd`, and leaves the instruction's own as it is. -/
def enterReplay (s : State) (w : Wave) (cause : Nat) (addr : Nat) (faults todo : Word) (gid : Option Nat) (src : Nat := 0)
    (pc : Option Word64 := none) (cmd : Option Nat := none) : State :=
  let own := match w.rp with | some r => r.count | none => 0
  let count := cmd.getD own
  let rp : ReplayRec := { todo := todo, gid := gid, count := own, deferred := cmd.isSome || w.rp.any (·.deferred) }
  if cause == cPARK then s.setWave { w with st := .replay, rp := some { rp with park := some (addr / 8192) }, waitCtr := 0 }
  else
  let s := s.noteFault w.asid cause addr
  let code := if cause == cNOTMAPPED then kPAGE else kPROT
  let r := { s.waveRec w code cause addr faults 0 count with flags := 1 + s.waveFlags w, source := src, pc := pc.getD w.pc }
  let s := s.setWave { w with st := .replay, rp := some { rp with count := if cmd.isSome then own else own + 1 }, waitCtr := 0 }
  s.appendRec r (.wave w.wid)

/-- A wave takes the fault of a deferred command, with that command's count of repeats, into Replay at its instruction, of which
everything that was left is left still (R173, R190, R296, R371). -/
def holdReplay (s : State) (w : Wave) (cause addr : Nat) (faults : Word) (src : Nat) (pc : Option Word64) (count : Nat) : State :=
  s.enterReplay { w with supp := false } cause addr faults ((w.rp.map (·.todo)).getD allLanes) (w.rp.bind (·.gid)) src pc (some count)

/-- A debug stop where the context is marked for debugging, else the trap path (R437); pc is where the wave resumes and
where a trap returns to. -/
def debugStop (s : State) (w : Wave) (cause : Nat) (mask : Word) (info : Nat) (pc : Word64) : State :=
  let w := { w with stepping := false }
  let r := s.waveRec w kBREAK cause 0 mask 0 info
  let dbg := match s.ctx? w.asid with | some c => c.debug | none => false
  if dbg then
    let s := s.setWave { w with st := .debugStop, pc := pc, waitCtr := 0 }
    s.appendRec r (.debug w.wid)
  else s.takeTrap w r pc

end State

/-! ### What an instruction does -/

/-- What the body of an instruction answers. -/
inductive Act where
  /-- It completes: the wave goes on at PC + 12. -/
  | done (s : State)
  /-- It completes, and the wave goes on at a given address. -/
  | jump (s : State) (pc : Word64)
  /-- It completes, and the wave enters a scheduling state at PC + 12. -/
  | rest (s : State) (st : WSt)
  /-- It completes, and the wave is Blocked until a landing group has written its result (R181). -/
  | await (s : State) (gid : Nat)
  /-- It cannot proceed: the wave is Blocked and nothing has changed. -/
  | wait
  /-- As wait, in the order of a shared unit (R95): the state holds the place in the unit's order. -/
  | queue (s : State)
  /-- A precise trap. -/
  | trap (code cause : Nat) (addr : Nat) (mask : Word) (opnd info : Nat)
  /-- Some lanes failed R171: the state holds the effects of the finished lanes. -/
  | replay (s : State) (cause addr : Nat) (faults todo : Word) (gid : Option Nat)
  /-- The body has set the wave's state and PC itself. -/
  | final (s : State)

/-- An illegal-operand fault of a class chapter. -/
def Act.illopnd : Act := .trap kILLOPND 0 0 0 0 0
/-- A fault on what an instruction reads as a whole: all that is left of it replays, with the group in which its lanes land (R38,
R173). -/
def Act.replayRest (s : State) (w : Wave) (cause addr : Nat) (faults : Word) : Act :=
  .replay s cause addr faults ((w.rp.map (·.todo)).getD allLanes) (w.rp.bind (·.gid))
/-- A determinism trap. -/
def Act.det : Act := .trap kDET 0 0 0 0 0

/-- What a body is given: the wave, its node, the fields, the effective mask, and the resolved operands with their
source values. -/
structure Ctx where
  w : Wave
  node : Node
  f : Fields
  sh : Shape
  m : Word
  d : Option ROp := none
  a : Option ROp := none
  b : Option ROp := none
  c : Option ROp := none
  vd : SrcVal := []
  va : SrcVal := []
  vb : SrcVal := []
  vc : SrcVal := []
  pops : List Nat := []

/-! ### The guard (R37) -/

/-- The guard mask g. -/
def guardOf (w : Wave) (f : Fields) : Word := let g := w.pr f.pred.toNat; if f.neg then ~~~g else g

/-- Whether an instruction acts; for rule F a partial mask is none. -/
def acts (r : GRule) (f : Fields) (m : Word) : Option Bool :=
  match r with
  | .lane => some (m != 0)
  | .wave => some ((!f.neg && f.pred == 0) || m != 0)
  | .full => if m == 0 then some false else if m == allLanes then some true else none

/-! ### Queue operands (R34, R39, R189 to R191) -/

/-- Elements of one queue entry, 32, and the capacity of a queue (R188). -/
def queueCap (ty : Nat) : Nat := if ty == 5 then 4 else 8

/-- What a pop of a queue finds. -/
inductive Pop where
  | entry (sid : Nat) (e : QEntry)
  | empty
  /-- The entry's faulting elements are to be read again (R189). -/
  | again
  | illegal

/-- The k-th next entry of a queue as a source of one or two words. -/
def popAt (s : State) (w : Wave) (qn k count : Nat) : Pop :=
  match (w.q.getD qn none).bind s.stream? with
  | none => .illegal
  | some t =>
    if t.write || (t.ty == 5) != (count == 2) then .illegal
    else match t.entries[k]? with
      | some e => if e.again then .again else .entry t.sid e
      | none => if t.next ≥ t.total then .illegal else .empty

/-- Whether a queued `mstr` still reads a stream (R295). -/
def arrayReads (s : State) (sid : Nat) : Bool :=
  s.arrays.any fun a => a.queue.any fun h => match h.op with
    | .str _ _ _ _ _ _ q sc => q == some sid || sc == some sid
    | _ => false

/-- Pops the head entry of one queue; range faults of the lanes that act enter the wave's range mask, and a stream that an
array command reads from is mixed (R34, R189, R295). -/
def popOne (s : State) (w : Wave) (m : Word) (qn : Nat) : State :=
  match (w.q.getD qn none).bind s.stream? with
  | some t =>
    let r := match t.entries.head? with | some e => e.range &&& m | none => 0
    let s := s.setStream { t with entries := t.entries.drop 1, mixed := t.mixed || arrayReads s t.sid }
    match s.wave? w.wid with
    | some w => s.setWave { w with range := w.range ||| r }
    | none => s
  | none => s

/-- Drops the popped entries of a wave's queues; lanes of the mask whose scratchpad elements lay out of range enter the
range mask (R189). -/
def popAll (s : State) (w : Wave) (m : Word) (qs : List Nat) : State := qs.foldl (fun s qn => popOne s w m qn) s

/-- Pushes 32 values under a mask; every element consumes its position (R190), and has its own id in program order. -/
def pushQ (s : State) (w : Wave) (qn : Nat) (m : Word) (vals : List Nat) : State :=
  match (w.q.getD qn none).bind s.stream? with
  | none => s
  | some t =>
    let m := maskOf fun l => lane m l && decide (t.next + l < t.total)
    let e : QEntry := { vals := vals, mask := m, id := s.nextId }
    let s := { s with nextId := s.nextId + 32 }.setStream { t with next := t.next + 32, entries := t.entries ++ [e] }
    match s.wave? w.wid with
    | some w => s.setWave { w with outst := w.outst + (laneList.filter fun l => lane m l).length }
    | none => s

/-! ### Empty registers (R39, R40) -/

/-- Whether every vector register of an operand is full. -/
def regsFull (w : Wave) (u : OpUse) (r : ROp) : Bool :=
  match r with
  | .v n => (List.range u.w.count).all fun i => w.vfull (n + i)
  | _ => true

/-- The first empty register of an operand. -/
def firstEmpty (w : Wave) (u : OpUse) (r : ROp) : Nat :=
  match r with
  | .v n => n + ((List.range u.w.count).find? fun i => !w.vfull (n + i)).getD 0
  | _ => r.num

/-! ### Completion of an instruction -/

/-- The effects common to every issued instruction: the wait counter, the `hpri` run and a single step (R50, R95, R438). -/
def retire (w : Wave) : Wave := { w with waitCtr := 0, hpri := w.hpri - 1, rp := none, supp := false, pending := none, bndFrom := none }

/-- After a debugger's STEP the wave stops again (R438); one that waits in another state stops before its next issue. -/
def afterStep (s : State) (wid : Nat) : State :=
  match s.wave? wid with
  | some w => if w.stepping && w.st == .ready then s.debugStop w 35 0 0 w.pc else s
  | none => s

/-- A wave that a STEP has run for one instruction stops before the next; one in Replay has not completed it (R438). -/
def stepDue (w : Wave) : Bool := w.stepping && !w.supp && w.rp.isNone

/-- The state after an instruction's body has answered. -/
def finish (c : Ctx) (s : State) : Act → State
  | .done t =>
    let t := popAll t c.w c.m c.pops
    match t.wave? c.w.wid with
    | some w => afterStep (t.setWave { retire w with pc := w.pc + 12, st := .ready }) c.w.wid
    | none => t
  | .jump t pc =>
    let t := popAll t c.w c.m c.pops
    match t.wave? c.w.wid with
    | some w => afterStep (t.setWave { retire w with pc := pc, st := .ready }) c.w.wid
    | none => t
  | .rest t st =>
    let t := popAll t c.w c.m c.pops
    match t.wave? c.w.wid with
    | some w => afterStep (t.setWave { retire w with pc := w.pc + 12, st := st }) c.w.wid
    | none => t
  | .await t gid =>
    let t := popAll t c.w c.m c.pops
    match t.wave? c.w.wid with
    | some w => afterStep (t.setWave { retire w with pc := w.pc + 12, st := .blocked, pending := some gid }) c.w.wid
    | none => t
  | .wait => s.setWave { c.w with st := .blocked, waitCtr := 0 }
  | .queue t => match t.wave? c.w.wid with
    | some w => t.setWave { w with st := .blocked, waitCtr := 0 }
    | none => t
  | .trap code cause addr mask opnd info =>
    let r := s.waveRec c.w code cause addr mask opnd info
    if code == kTRAP then s.takeTrap { c.w with supp := false, hpri := c.w.hpri - 1 } r (c.w.pc + 12)
    else s.takeTrap { c.w with supp := false } r c.w.pc
  | .replay t cause addr faults todo gid => match t.wave? c.w.wid with
    | some w => t.enterReplay { w with supp := false } cause addr faults todo gid
    | none => t
  | .final t => t

/-! ### The issue of an instruction (R45) -/

/-- A PC comparator that matches, with the matching lanes (R436, R437). -/
def pcMatch (s : State) (w : Wave) : Option (Nat × Word) :=
  if w.supp then none
  else (s.comps.find? fun k => k.core == w.core && decide (k.idx < 8) && k.value.getLsbD 64
      && k.value.extractLsb' 66 5 == 0#5 && (k.value.getLsbD 83 || k.value.extractLsb' 71 12 == BitVec.ofNat 12 w.asid)
      && k.value.extractLsb' 0 64 == w.pc && w.exec &&& k.value.extractLsb' 96 32 != 0#32).map fun k =>
        (k.idx, w.exec &&& k.value.extractLsb' 96 32)

/-- A comparator with ONCE is disabled by its match (R436). -/
def compHit (s : State) (core idx : Nat) : State :=
  let off (k : Comparator) : Comparator := { k with value := k.value &&& ~~~(1#128 <<< 64) }
  { s with comps := modify (fun k => k.core == core && k.idx == idx && k.value.getLsbD 65) off s.comps }

/-- The operand fields of a word with their uses and index registers, in the order D, A, B, C. -/
def opnds (sh : Shape) (f : Fields) : List (Nat × OpUse × Opd) :=
  (match sh.d with | some u => [(0, u, f.d)] | none => [])
    ++ (match sh.a with | some u => [(1, u, f.a)] | none => [])
    ++ (match sh.b with | some u => if sh.imm then [] else [(2, u, f.b)] | none => [])
    ++ (match sh.c with | some u => [(3, u, f.c)] | none => [])

/-- OPND of a record: the operand's place and its register number (R424). -/
def opndRef (place num : Nat) : Nat := num % 1024 + place * 1024

/-- The first failing check of R45 step 5, with the operand it concerns. -/
def step5 (sh : Shape) (f : Fields) (allot : Nat) : Option (Nat × Nat) :=
  match (opnds sh f).findSome? fun (i, u, o) => (opndCheck allot u o).map fun k => (k, opndRef i o.num.toNat) with
  | some k => some k
  | none => if sh.op5 then none else some (kILLOPND, 0)

/-- The first failing check of R45 step 7, with the operand and its effective number. -/
def step7 (sh : Shape) (f : Fields) (w : Wave) : Option (Nat × Nat) :=
  (opnds sh f).findSome? fun (i, u, o) => match opndResolve w.allot (w.xr i) u o with
    | .error k => some (k, opndRef i (((o.num.toNat : Int) + (w.xr i).toInt) % 1024).toNat)
    | .ok _ => none

/-- An operand's registers once steps 5 and 7 have passed. -/
def resolved (w : Wave) (i : Nat) (u : Option OpUse) (o : Opd) : Option ROp :=
  u.bind fun u => match opndResolve w.allot (w.xr i) u o with | .ok r => some r | .error _ => none

/-- What the source checks of step 8 find. -/
inductive SrcRes where
  | ok (v : SrcVal) (pops : List Nat)
  | wait
  | trap (code opnd : Nat)
  | fault (s : State) (e : QEntry)

/-- The wave is told of the faulting elements of an entry it pops, which its release reads again (R189). -/
def tellEntry (s : State) (sid k : Nat) : State :=
  { s with streams := modify (fun t => t.sid == sid) (fun t =>
      { t with entries := t.entries.zipIdx.map fun (e, i) => if i == k then { e with told := true } else e }) s.streams }

/-- Step 8 of R45 for one source; `qs` are the queues popped before it. -/
def readSrc (s : State) (w : Wave) (place : Nat) (u : OpUse) (r : ROp) (fe : Bool) (qs : List Nat) : SrcRes :=
  match r with
  | .q n =>
    let k := (qs.filter (· == n)).length
    match popAt s w n k u.w.count with
    | .illegal => .trap kILLOPND (opndRef place (600 + n))
    | .empty => if fe then .trap kEMPTY (opndRef place (600 + n)) else .wait
    | .again => .wait
    | .entry sid e => if e.mask != 0 then .fault (tellEntry s sid k) e else .ok (readEntry u e) (qs ++ [n])
  | _ =>
    if regsFull w u r then .ok (readOp w u r) qs
    else if fe then .trap kEMPTY (opndRef place (firstEmpty w u r)) else .wait

/-- A full count blocks the instruction that would add to it (R226). -/
def outstFull (w : Wave) (n : Nat) : Bool := decide (w.outst + n > Config.maxOutstanding)

def maskCount (m : Word) : Nat := (laneList.filter fun l => lane m l).length

/-- The delivery of a stopped store stream's fault: Replay, with the access's counter of repeated faults (R173, R190). -/
def streamFault (s : State) (w : Wave) (t : Stream) (e : QEntry) : Act :=
  .final ((s.setStream { t with told := true }).holdReplay w e.cause e.addr.toNat e.mask 0 none t.count)

/-- Whether the destination lets the instruction issue (R40, R190, R191, R226): none if so. A push stores the lanes of m. An
illegal operand of a destination queue comes before the checks of the sources and before its own stream's fault (log entry 32). -/
def destCheck (s : State) (w : Wave) (m : Word) (u : OpUse) (r : ROp) : Option Act :=
  match r with
  | .q n => match (w.q.getD n none).bind s.stream? with
    | none => some (.trap kILLOPND 0 0 0 (opndRef 0 (600 + n)) 0)
    | some t =>
      if !t.write || (t.ty == 5) != (u.w.count == 2) || t.next ≥ t.total then
        some (.trap kILLOPND 0 0 0 (opndRef 0 (600 + n)) 0)
      else if t.stopped && !t.again then
        match t.entries.head? with
        | some e => some (streamFault s w t e)
        | none => some .wait
      else if t.again || t.entries.length ≥ queueCap t.ty
          || outstFull w (maskCount (maskOf fun l => lane m l && decide (t.next + l < t.total))) then some .wait
      else none
  | _ => if regsFull w u r then none else some .wait

/-- The outcome of the checks of R45. -/
inductive Prep where
  | stop (a : Act)
  | skip
  | go (c : Ctx)

/-- An instruction whose D field is a source (R177, R195): a store's data, read after the other operands. -/
def dIsData : Instr → Bool
  | .st _ | .stl _ | .sts _ | .stnt _ | .sps _ | .spcs _ => true
  | _ => false

/-- A D field that is an operand of a command and not a register destination (R279). -/
def dIsScalarSrc : Instr → Bool
  | .mstr _ | .mst _ => true
  | _ => false

/-- An instruction that tests or names the register in A without reading it (R108, R289, R345). -/
def aNotRead : Instr → Bool
  | .park _ | .aend _ | .ewait _ => true
  | .mstr f => f.m 0 0 == 0
  | _ => false

/-- An instruction whose D names a queue it binds, and does not push (R187), or the base of a set of registers that a mask
selects (R381, R397). -/
def dBinds : Instr → Bool
  | .astr _ | .astw _ | .trace _ | .tracec _ | .cgetLive _ => true
  | _ => false

/-- The lanes of a mask, ascending. -/
def maskBits (m : Word) : List Nat := laneList.filter fun i => lane m i

/-- Instructions whose D is the base of the live set that the mask in B selects (R381, R397). -/
def isLive : Instr → Bool
  | .trace _ | .tracec _ | .cgetLive _ => true
  | _ => false

/-- The live registers of an instruction (R381, R397). -/
def liveRegs (i : Instr) (c : Ctx) : List Nat :=
  match isLive i, c.d, c.b, c.sh.b with
  | true, some (.v base), some r, some u => (maskBits (SrcVal.w (readOp c.w u r) 0)).map (base + ·)
  | _, _, _, _ => []

/-- A wave whose replayed instruction finds the registers that it has itself marked empty as they were: they hold its operands
until its results land (R173). -/
def replayRegs (s : State) (w : Wave) : Wave :=
  match (w.rp.bind (·.gid)).bind fun g => s.lands.find? fun l => l.gid == g with
  | some l => match l.dest with
    | .vec r n => w.setFull r n true
    | .regs rs => rs.foldl (fun w r => w.setFull r 1 true) w
    | _ => w
  | none => w

/-- Reads the sources A, B, C and a store's data in that order; `c` gathers what has been read. -/
def readSources (i : Instr) (s : State) (c : Ctx) : Prep :=
  let w := replayRegs s c.w
  let srcA := match c.a, c.sh.a with
    | some r, some u => if aNotRead i then SrcRes.ok [] [] else readSrc s w 1 u r c.f.fea []
    | _, _ => SrcRes.ok [] []
  match srcA with
  | .wait => .stop .wait
  | .trap k o => .stop (.trap k 0 0 0 o 0)
  | .fault s e => .stop (.replayRest s c.w e.cause e.addr.toNat e.mask)
  | .ok va qs =>
    let srcB := match c.b, c.sh.b with
      | some r, some u => readSrc s w 2 u r c.f.feb qs
      | _, _ => .ok [] qs
    match srcB with
    | .wait => .stop .wait
    | .trap k o => .stop (.trap k 0 0 0 o 0)
    | .fault s e => .stop (.replayRest s c.w e.cause e.addr.toNat e.mask)
    | .ok vb qs =>
      let srcC := match c.c, c.sh.c with
        | some r, some u => readSrc s w 3 u r c.f.fec qs
        | _, _ => .ok [] qs
      match srcC with
      | .wait => .stop .wait
      | .trap k o => .stop (.trap k 0 0 0 o 0)
      | .fault s e => .stop (.replayRest s c.w e.cause e.addr.toNat e.mask)
      | .ok vc qs =>
        let srcD := match c.d, c.sh.d with
          | some r, some u => if dIsData i || dIsScalarSrc i then readSrc s w 0 u r false qs else .ok [] qs
          | _, _ => .ok [] qs
        match srcD with
        | .wait => .stop .wait
        | .trap k o => .stop (.trap k 0 0 0 o 0)
        | .fault s e => .stop (.replayRest s c.w e.cause e.addr.toNat e.mask)
        | .ok vd qs => .go { c with va := va, vb := vb, vc := vc, vd := vd, pops := qs }

/-- The destination of an instruction before its sources are checked (R40): a store's data waits as a destination does (R177),
and so does a live set (R381, R397); a replay of an instruction that has issued fills the registers it has itself marked empty
(R173). A push of an instruction that writes every lane pushes 32 elements. -/
def destWait (i : Instr) (s : State) (c : Ctx) : Option Act :=
  match c.d, c.sh.d with
  | some r, some u =>
    if dIsScalarSrc i || dBinds i then (if (liveRegs i c).all c.w.vfull then none else some .wait)
    else if dIsData i then (if regsFull c.w u r then none else some .wait)
    else if (c.w.rp.bind (·.gid)).isSome then none
    else destCheck s c.w (if c.sh.rule == .lane then c.m else allLanes) u r
  | _, _ => none

/-- The checks of R45 in order for the wave's instruction. -/
def prepare (i : Instr) (f : Fields) (w : Wave) (s : State) : Prep :=
  match shape i with
  | none => .stop (.trap kILLINST 0 0 0 0 0)
  | some sh =>
    if !shapeOk sh f then .stop (.trap kILLINST 0 0 0 0 0)
    else match step5 sh f w.allot with
      | some (k, o) => .stop (.trap k 0 0 0 o 0)
      | none =>
        let m := w.exec &&& guardOf w f
        match acts sh.rule f m with
        | some false => .skip
        | none => .stop (.trap kCONVERGE 0 0 0 0 m.toNat)
        | some true => match step7 sh f w with
          | some (k, o) => .stop (.trap k 0 0 0 o 0)
          | none =>
            let c : Ctx := { w := w, node := s.nodeOf w, f := f, sh := sh
                             m := match w.rp with | some r => m &&& r.todo | none => m
                             d := resolved w 0 sh.d f.d, a := resolved w 1 sh.a f.a
                             b := if sh.imm then none else resolved w 2 sh.b f.b, c := resolved w 3 sh.c f.c }
            match (liveRegs i c).getLast?.filter fun n => decide (n ≥ w.allot) with
            | some n => .stop (.trap kREGBOUND 0 0 0 (opndRef 0 n) 0)
            | none => match destWait i s c with
              | some a => .stop a
              | none => readSources i s c

/-- The issue of a wave instruction: a PC comparator first (R437), then the checks of R45, then its body; `onSkip` is what
an instruction that does not act does. -/
def issueOr (i : Instr) (f : Fields) (s : State) (onSkip body : Ctx → State → Act) : Host.Outcome State Fault Refusal :=
  match s.cur.bind s.wave? with
  | none => .fault .noWave
  | some w =>
    let s := { s with cur := none }
    if stepDue w then .next (s.debugStop w 35 0 0 w.pc) else
    match pcMatch s w with
    | some k => .next ((compHit s w.core k.1).debugStop w 33 k.2 k.1 w.pc)
    | none =>
      let c0 : Ctx := { w := w, node := s.nodeOf w, f := f, sh := { rule := .wave, modOk := true, extOk := true }, m := 0 }
      match prepare i f w s with
      | .stop a => .next (finish c0 s a)
      | .skip => .next (finish c0 s (onSkip c0 s))
      | .go c => .next (finish c s (body c s))

/-- The issue of an instruction that does nothing when it does not act (R37). -/
def issue (i : Instr) (f : Fields) (s : State) (body : Ctx → State → Act) : Host.Outcome State Fault Refusal :=
  issueOr i f s (fun _ s => .done s) body

/-- A hint (R47): it never faults or blocks; when it can act, its body only changes scheduling data. -/
def issueHint (i : Instr) (f : Fields) (s : State) (body : Ctx → State → State) : Host.Outcome State Fault Refusal :=
  match s.cur.bind s.wave? with
  | none => .fault .noWave
  | some w =>
    let s := { s with cur := none }
    if stepDue w then .next (s.debugStop w 35 0 0 w.pc) else
    match pcMatch s w with
    | some k => .next ((compHit s w.core k.1).debugStop w 33 k.2 k.1 w.pc)
    | none =>
      let c0 : Ctx := { w := w, node := s.nodeOf w, f := f, sh := { rule := .wave, modOk := true, extOk := true }, m := 0 }
      match prepare i f w s with
      | .go c => .next (finish { c with pops := [] } s (.done (body c s)))
      | _ => .next (finish c0 s (.done s))

/-- A word with no meaning of its own: a hint no-operation, or the illegal-instruction fault (R45, R47). -/
def issueWord (s : State) (a : State → Act) : Host.Outcome State Fault Refusal :=
  match s.cur.bind s.wave? with
  | none => .fault .noWave
  | some w =>
    let s := { s with cur := none }
    if stepDue w then .next (s.debugStop w 35 0 0 w.pc) else
    match pcMatch s w with
    | some k => .next ((compHit s w.core k.1).debugStop w 33 k.2 k.1 w.pc)
    | none =>
      let c0 : Ctx := { w := w, node := s.nodeOf w, f := ⟨0, false, 0, ⟨false, 0⟩, ⟨false, 0⟩, ⟨false, 0⟩, false, false, 0, 0⟩
                        sh := { rule := .wave, modOk := true, extOk := true }, m := 0 }
      .next (finish c0 s (a s))

/-! ### Results -/

/-- The wave of a context in a state. -/
def Ctx.wave (c : Ctx) (s : State) : Wave := (s.wave? c.w.wid).getD c.w

/-- Writes lane values of count words to D under a mask: vector registers, or one entry of a queue. -/
def Ctx.putVec (c : Ctx) (s : State) (count : Nat) (m : Word) (g : Nat → Nat) : State :=
  match c.d with
  | some (.v n) => s.setWave ((c.wave s).wvGrp n count m fun i l => wordI (g l) i)
  | some (.q n) => pushQ s c.w n m (laneList.map g)
  | _ => s

/-- Writes a scalar destination of count words. -/
def Ctx.putScalar (c : Ctx) (s : State) (count v : Nat) : State :=
  match c.d with
  | some r => s.setWave ((c.wave s).wScalar r count v)
  | none => s

/-- Writes bits of a predicate destination in the lanes of a mask (R146). -/
def Ctx.putPred (c : Ctx) (s : State) (m v : Word) : State :=
  match c.d with
  | some (.p n) => let w := c.wave s; s.setWave (w.wp n ((w.pr n &&& ~~~m) ||| (v &&& m)))
  | _ => s

/-- ORs flags into `fpflags` (R86). -/
def Ctx.addFlags (c : Ctx) (s : State) (fl : Flags) : State :=
  let w := c.wave s
  s.setWave { w with fpflags := w.fpflags ||| BitVec.ofNat 32 fl }

/-- The task has DET (R328). -/
def Ctx.det (c : Ctx) : Bool := c.node.launch.det

/-- A continuation wave (R396). -/
def Ctx.isCont (c : Ctx) : Bool := c.w.cont.isSome

/-- A cross-lane instruction of a continuation wave under DET takes the determinism trap (R115, R134, R158). -/
def Ctx.contDet (c : Ctx) : Bool := c.det && c.isCont

/-- The scalar value of a source: that of lane 0, also for a lane constant (log entry 34). -/
def SrcVal.scalar (v : SrcVal) : Word := v.w 0
def SrcVal.scalar64 (v : SrcVal) : Nat := v.d 0

end Sys2Proof.Machine
end

