-- ==== Sys2Proof/Machine/Troupe.lean ====
section
/-! DEFINITION. Scratchpad targets, troupe words, and the steps that arrivals, departures and releases make on them
(R193 to R200, R221 to R229). -/

namespace Sys2Proof.Machine

/-! ### Scratchpad targets (R196, R197, R199) -/

/-- Whether a task may reach a core from another (R197). -/
def coreReach (n : Node) (own core : Nat) : Bool := dieOf own == dieOf core || (n.launch.gang && n.launch.classB)

/-- The core and offset of a scratchpad access, or none where R199 puts it out of range. -/
def spTarget (s : State) (w : Wave) (loc : Bool) (addr size : Nat) : Option (Nat × Nat) :=
  let n := s.nodeOf w
  let core := if loc then w.core else addr / 2 ^ 20 % 128
  let off := if loc then addr else addr % 2 ^ 20
  if !loc && addr / 2 ^ 27 % 32 != 0 then none
  else if !coreReach n w.core core then none
  else if off % size != 0 then none
  else match s.spad? w.node core with
    | some p => if off + size ≤ p.size then some (core, off) else none
    | none => none

/-- n bytes of a scratchpad. -/
def spRead (s : State) (node core off n : Nat) : Nat :=
  match s.spad? node core with | some p => leNat (p.bytes.getBytes off n) | none => 0

/-- The troupe words that n bytes at an offset meet. -/
def wordsMet (p : Spad) (off n : Nat) : List Nat := p.words.filter fun o => decide (o < off + n) && decide (off < o + 8)

/-- Writes n bytes of a scratchpad; a troupe word that they meet takes an open value (R221, R1). -/
def spWrite (s : State) (node core off n v : Nat) : State :=
  match s.spad? node core with
  | some p =>
    let r := (wordsMet p off n).foldl (fun (m, s) o => let b := freeBytes s 8; (m.setBytes o b.1, b.2))
      (p.bytes.setBytes off (leBytes n v), s)
    r.2.setSpad { p with bytes := r.1 }
  | none => s

/-! ### Troupe words (R221) -/

/-- The fields of a troupe word. -/
structure TWord where
  members : Nat := 0
  arrived : Nat := 0
  kind : Bool := false
  root : Bool := false
  gang : Bool := false
  classB : Bool := false
  init : Bool := false
  phase : Nat := 0
  diearr : Nat := 0
  dies : Nat := 0
  deriving DecidableEq, Repr

def tword (v : Nat) : TWord :=
  let b (hi lo : Nat) := State.bits v hi lo
  { members := b 12 0, arrived := b 25 13, kind := b 26 26 == 1, root := b 27 27 == 1, gang := b 28 28 == 1
    classB := b 29 29 == 1, init := b 31 31 == 1, phase := b 47 32, diearr := b 49 48, dies := b 51 50 }

def TWord.val (t : TWord) : Nat :=
  let f (x : Bool) (n : Nat) := if x then 2 ^ n else 0
  t.members % 2 ^ 13 + t.arrived % 2 ^ 13 * 2 ^ 13 + f t.kind 26 + f t.root 27 + f t.gang 28 + f t.classB 29 + f t.init 31
    + t.phase % 2 ^ 16 * 2 ^ 32 + t.diearr % 4 * 2 ^ 48 + t.dies % 4 * 2 ^ 50

def getTw (s : State) (node : Nat) (r : TroupeRef) : TWord := tword (spRead s node r.core r.off 8)
def setTw (s : State) (node : Nat) (r : TroupeRef) (t : TWord) : State :=
  match s.spad? node r.core with
  | some p => s.setSpad { p with bytes := p.bytes.setBytes r.off (leBytes 8 t.val)
                                 words := if t.init && !p.words.contains r.off then r.off :: p.words else p.words }
  | none => s

/-- The member waves of a word. -/
def isMember (node : Nat) (r : TroupeRef) (w : Wave) : Bool := w.node == node && w.troupe == some r

/-- Applies a change to every member. -/
def onMembers (s : State) (node : Nat) (r : TroupeRef) (g : Wave → Wave) : State :=
  { s with waves := modify (isMember node r) g s.waves }

/-- Sets a wake latch; a wave parked on it wakes and consumes it (R108). -/
def wakeLatch (w : Wave) : Wave :=
  match w.st with
  | .parked .troupe _ => { w with st := .ready }
  | _ => { w with latch := true }

/-- Ends a Barrier wait that a release or a new phase satisfies (R225). A member that waits for its outstanding count stays in its wait
(R226, log entry 20). -/
def leaveBarrier (newPhase : Nat) (w : Wave) : Wave :=
  match w.st with
  | .barrier (.release _) => { w with st := .ready }
  | .barrier (.phaseNot p) => if newPhase != p then { w with st := .ready } else w
  | _ => w

/-- release() of R225. -/
def troupeRelease (s : State) (node : Nat) (r : TroupeRef) : State :=
  let t := getTw s node r
  let ph := (t.phase + 1) % 2 ^ 16
  let s := setTw s node r { t with phase := ph, arrived := 0, kind := false }
  onMembers s node r fun w => wakeLatch (leaveBarrier ph w)

/-- Where the word of a gang on a die is made: at GWORD x 8 in the allocation of the lowest-numbered core there (R227). -/
def gangPlace (s : State) (node die : Nat) : Option TroupeRef :=
  let cores := (s.spads.filter fun p => p.node == node && dieOf p.core == die).map (·.core)
  match cores, s.node? node with
  | c :: cs, some n => if n.launch.gang then some ⟨cs.foldl min c, 8 * n.launch.gword⟩ else none
  | _, _ => none

/-- The word of a gang on a die, which keeps its place in the allocation when a restore moves that to another core (R227, R441). -/
def gangWord (s : State) (node die : Nat) : Option TroupeRef :=
  (s.node? node).bind fun n => n.gangAt.find? fun r => dieOf r.core == die

/-- The root word of a gang: the one with ROOT set (R227). -/
def rootWord (s : State) (node : Nat) : Option TroupeRef :=
  match gangWord s node 0 with
  | some r => if (getTw s node r).root then some r else gangWord s node 1
  | none => gangWord s node 1

/-- test() of R225: a complete phase is released, or forwarded to the root of a gang on two dies (R229). -/
def troupeTest (s : State) (node : Nat) (r : TroupeRef) : State :=
  let t := getTw s node r
  if t.arrived > 0 && t.arrived == t.members then
    let only := match rootWord s node with | some k => (getTw s node k).dies < 2 | none => true
    if t.kind && t.gang && !only then
      { s with gangMsgs := s.gangMsgs ++ [{ node := node, die := dieOf r.core, release := false }] }
    else troupeRelease s node r
  else s

/-- arrive(w, kind) of R225: the phase arrived in, or none where an open phase has another kind. -/
def troupeArrive (s : State) (node : Nat) (r : TroupeRef) (kind : Bool) : Option (Nat × State) :=
  let t := getTw s node r
  if t.arrived > 0 && t.kind != kind then none
  else
    let s := setTw s node r { t with kind := kind, arrived := t.arrived + 1 }
    some (t.phase, onMembers s node r wakeLatch)

/-- A wave leaves its troupe: MEMBERS falls, its latch clears, and the completion test follows (R224). -/
def troupeLeave (s : State) (w : Wave) : State :=
  match w.troupe with
  | none => s
  | some r =>
    let t := getTw s w.node r
    let s := setTw s w.node r { t with members := t.members - 1 }
    let s := match s.wave? w.wid with
      | some w => s.setWave { w with troupe := none, latch := false }
      | none => s
    troupeTest s w.node r

/-! ### Streams at `aend` and `halt` (R110, R191) -/

/-- Ends a stream: unpopped entries of a load stream are dropped with it; pushed entries are still stored. A stream that
a queued `mstr` reads ends after its last row (R295). -/
def endStream (s : State) (sid : Nat) : State :=
  match s.stream? sid with
  | none => s
  | some t =>
    if (t.write && !t.entries.isEmpty) || arrayReads s sid then s.setStream { t with ended := true }
    else { s with streams := s.streams.filter fun x => x.sid != sid }

/-- The stopped store stream of a wave whose fault is to be delivered (R190), with the entry that failed; none where the engine is to
store it again. -/
def stoppedStream (s : State) (w : Wave) : Option (Stream × QEntry) :=
  s.streams.findSome? fun t => if t.wid == w.wid && t.write && t.stopped && !t.again then t.entries.head?.map fun e => (t, e) else none

/-- Whether the engine still has to repeat the stores of a wave's stream after a release (R190). -/
def streamAgain (s : State) (w : Wave) : Bool := s.streams.any fun t => t.wid == w.wid && t.write && t.again

end Sys2Proof.Machine
end

