-- ==== Sys2Proof/Machine/Deferred.lean ====
section
/-! DEFINITION. Commands that act on their own after issue, and their deferred faults: what stops a command and where the
issuing wave takes the fault (R116, R191, R296, R371). -/

namespace Sys2Proof.Machine

/-- The active bank of a quadrant. -/
def activeBank (s : State) (core quad : Nat) : Nat :=
  match s.quads.find? fun q => q.core == core && q.quad == quad with | some q => q.active | none => 0

/-- The code of a lane cause (R425). -/
def codeOf (cause : Nat) : Nat := if cause == cNOTMAPPED then kPAGE else kPROT

/-- The report of a fault of a Halting wave's stream, array or bank command, with the halt's PC: no reply resumes it
(R116). -/
def haltingFault (s : State) (w : Wave) (d : Deferred) (src : Nat := 0) : State :=
  let r := s.waveRec w d.code d.cause d.addr d.mask 0 0
  s.appendRec { r with flags := 8 + s.waveFlags w, source := src } .nothing

/-! ### Arrays -/

def isArray (core quad bank : Nat) (a : ArrayBank) : Bool := a.core == core && a.quad == quad && a.bank == bank
def State.array? (s : State) (core quad bank : Nat) : Option ArrayBank := s.arrays.find? (isArray core quad bank)
def State.setArray (s : State) (a : ArrayBank) : State :=
  { s with arrays := modify (isArray a.core a.quad a.bank) (fun _ => a) s.arrays }

/-- Counted items of an access. -/
def Access.items (a : Access) : Nat := match a.kind with | .talloc lanes => lanes.length | _ => 1

/-- Bytes of one output element (R292). -/
def outBytes (outf : Nat) : Nat := if outf == 15 then 4 else match fmtOf outf with | some g => g.bits / 8 | none => 1

/-- The store items of an `mst` that rows of 128 outputs make: one for each line of each row (R292). -/
def mstLines (dst pitch rows size : Nat) : Nat :=
  (List.range rows).foldl (fun n m => n + lineSpan (dst + m * pitch) (128 * size)) 0

/-- Ends the streams of a wave that only an array command kept (R295). -/
def dropEndedStreams (s : State) : State :=
  { s with streams := s.streams.filter fun t => !(t.ended && !t.write && !arrayReads s t.sid) }

/-- Lowers a wave's outstanding count. -/
def lessOutst (s : State) (wid n : Nat) : State :=
  match s.wave? wid with | some w => s.setWave { w with outst := w.outst - n } | none => s

/-- Removes the head command of an array queue. -/
def popCmd (s : State) (a : ArrayBank) : State :=
  dropEndedStreams (s.setArray { a with queue := a.queue.drop 1, loading := none, fault := none, again := false, count := 0, fkey := none })

/-- Discards the head command after its fault has been taken; an `mst`'s unsent items are no longer outstanding. -/
def discardCmd (s : State) (a : ArrayBank) (h : ArrCmd) : State :=
  let s := popCmd s a
  match h.op with
  | .st _ _ _ dst _ pitch rows _ =>
    lessOutst s h.wid (mstLines dst pitch rows (outBytes (State.bits h.cfg 18 14)) - h.sent)
  | _ => s

/-- A wave's undelivered array fault. -/
def arrayFault (s : State) (wid : Nat) : Option (ArrayBank × ArrCmd × Deferred) :=
  s.arrays.findSome? fun a => match a.fault, a.queue.head? with
    | some d, some h => if h.wid == wid then some (a, h, d) else none
    | _, _ => none

/-! ### Bank commands -/

/-- A wave's first undelivered bank fault. -/
def bankFault (s : State) (wid : Nat) : Option (BankCmd × Deferred) :=
  s.bcmds.findSome? fun c => if c.wid == wid then (c.fault.filter fun d => !d.again).map fun d => (c, d) else none

/-- Whether a bank command counts as an outstanding item (R358). -/
def BankOp.counted : BankOp → Bool
  | .rd _ _ _ _ _ => false
  | _ => true

/-- Removes a bank command that will not be performed; a discarded `bkrd` writes no lane and its registers are full
again. -/
def discardBank (s : State) (c : BankCmd) : State :=
  let s := { s with bcmds := s.bcmds.filter fun x => x.cid != c.cid }
  let s := if c.op.counted then lessOutst s c.wid 1 else s
  match c.op with
  | .rd gid _ _ _ _ => { s with lands := modify (fun l => l.gid == gid) (fun l => { l with ready := true }) s.lands }
  | _ => s

/-! ### Delivery -/

/-- A deferred fault that no reply answers: the trap path at the wave's instruction with the command's PC. -/
def deferredTrap (s : State) (w : Wave) (d : Deferred) (pc : Word64) (src : Nat) : State :=
  let w := (s.wave? w.wid).getD w
  let r := { s.waveRec w d.code d.cause d.addr 0 0 0 with pc := pc, source := src }
  s.takeTrap { w with supp := false } r w.pc

/-- The delivery of a deferred fault at a wave's instruction: Replay for a page or protection fault, which keeps the
command, and a precise trap for the others, which discards it. -/
def deliver (s : State) (w : Wave) (arr bank : Bool) : Option State :=
  match (if arr then arrayFault s w.wid else none) with
  | some (a, h, d) =>
    if d.code == kPAGE || d.code == kPROT then
      let s := s.setArray { a with fault := some { d with told := true }, count := a.count + 1 }
      some (s.holdReplay w d.cause d.addr d.mask 3 (some h.pc) a.count)
    else some (deferredTrap (discardCmd s a h) w d h.pc 3)
  | none => match (if bank then bankFault s w.wid else none) with
    | some (c, d) =>
      if d.code == kPAGE || d.code == kPROT then
        let mark (x : BankCmd) : BankCmd := { x with fault := some { d with told := true }, count := x.count + 1 }
        let s := { s with bcmds := modify (fun x => x.cid == c.cid) mark s.bcmds }
        some (s.holdReplay w d.cause d.addr d.mask 4 (some c.pc) c.count)
      else some (deferredTrap (discardBank s c) w d c.pc 4)
    | none => none

/-- Whether an array still has to repeat a wave's command after a release (R296). -/
def arrayAgain (s : State) (wid : Nat) : Bool :=
  s.arrays.any fun a => a.again && (match a.queue.head? with | some h => h.wid == wid | none => false)

/-- Whether a bank controller still has to repeat a wave's command after a release (R116, R371). -/
def bankAgain (s : State) (wid : Nat) : Bool :=
  s.bcmds.any fun c => c.wid == wid && (match c.fault with | some d => d.again | none => false)

/-- The head entry that stops an array's stream from queues: the source's, or the scales' (R191, R289). -/
def faultSid (s : State) (h : ArrCmd) : Option Nat :=
  match h.op with
  | .str _ _ _ _ _ _ q sc => (q.toList ++ sc.toList).find? fun sid => match (s.stream? sid).bind (·.entries.head?) with
    | some e => e.mask != 0
    | none => false
  | _ => none

/-- Runs a body unless a deferred fault is delivered first, or its release still has work for the array. -/
def withDelivery (c : Ctx) (s : State) (arr bank : Bool) (body : Act) : Act :=
  if arr && arrayAgain s c.w.wid then .wait
  else match deliver s (c.wave s) arr bank with
  | some t => .final t
  | none => body

/-! ### Faults that no instruction of the wave takes (R116) -/

/-- The lanes that a stopped store stream could not store are discarded with their entry's fault, and the stream goes on. -/
def discardEntry (s : State) (t : Stream) : State :=
  match t.entries with
  | [] => s
  | e :: rest =>
    let s := lessOutst s t.wid (maskCount e.mask)
    let t := { t with entries := rest, stored := t.stored + 32, stopped := false, told := false, again := false, count := 0 }
    if rest.isEmpty && t.ended then { s with streams := s.streams.filter fun x => x.sid != t.sid } else s.setStream t

/-- A wave that halts takes no deferred fault any more: what its streams and commands still hold is reported with the halt's PC and
discarded (R116). -/
def reportHeld (s : State) (w : Wave) : State :=
  let s := s.streams.foldl (fun s t => match t.entries.head? with
    | some e =>
      if t.wid == w.wid && t.write && t.stopped && !t.again then
        discardEntry (haltingFault s w { code := codeOf e.cause, cause := e.cause, addr := e.addr.toNat, mask := e.mask }) t
      else s
    | none => s) s
  let s := s.arrays.foldl (fun s a => match a.fault, a.queue.head? with
    | some d, some h => if h.wid == w.wid then discardCmd (haltingFault s w d 3) a h else s
    | _, _ => s) s
  s.bcmds.foldl (fun s c => match c.fault with
    | some d => if c.wid == w.wid && !d.again then discardBank (haltingFault s w d 4) c else s
    | none => s) s

/-! ### What a wave still waits for -/

/-- Whether a wave that was released from a deferred fault at its instruction still has pushed stores, array commands or bank
commands to be performed (R116). -/
def releasedWork (s : State) (w : Wave) : Bool :=
  w.rp.any (·.deferred) && ((s.streams.any fun t => t.wid == w.wid && t.write && !t.entries.isEmpty)
    || (s.arrays.any fun a => a.queue.any fun h => h.wid == w.wid) || (s.bcmds.any fun c => c.wid == w.wid))

/-- Whether an access kind writes. -/
def AccKind.writes : AccKind → Bool
  | .load _ _ _ => false
  | _ => true

/-- Earlier unperformed accesses of a wave to scratchpads (R200, R231): accesses in flight, pushed stream elements and
array stores. -/
def spadPending (s : State) (w : Wave) : Bool :=
  (s.accs.any fun a => a.wid == w.wid && a.space != .glob && a.st == .issued)
    || (s.streams.any fun t => t.wid == w.wid && t.write && t.sp && !t.entries.isEmpty)
    || (s.arrays.any fun a => a.queue.any fun h => h.wid == w.wid && (match h.op with
      | .st _ _ true _ _ _ _ _ => true
      | _ => false))

/-- Whether a wave that halts cannot leave its troupe yet: `leave` follows its earlier accesses to scratchpads (R110, R200). -/
def leaveHeld (s : State) (w : Wave) : Bool := w.troupe.isSome && spadPending s w

/-- Whether every earlier load of a wave has returned (R243). -/
def loadsReturned (s : State) (wid : Nat) : Bool := !(s.lands.any fun l => l.wid == wid && l.load)

/-- Whether every store and atomic that a wave issued before a command has been acknowledged (R248). -/
def storesAcked (s : State) (wid id : Nat) : Bool :=
  !(s.accs.any fun a => a.wid == wid && decide (a.id < id) && a.kind.writes)
    && !(s.streams.any fun t => t.wid == wid && t.write && t.entries.any fun e => decide (e.id < id))
    && !(s.arrays.any fun a => a.queue.any fun h => h.wid == wid && decide (h.id < id) && (match h.op with
      | .st _ _ _ _ _ _ _ _ => true
      | _ => false))

end Sys2Proof.Machine
end

