-- ==== Sys2Proof/Machine/Control.lean ====
section
/-! DEFINITION. Class CTL (R100 to R111). -/

namespace Sys2Proof.Machine

/-- The offset target of a branch (R26). -/
def branchTarget (c : Ctx) : Word64 := c.w.pc + BitVec.ofInt 64 (12 * c.f.off)

/-- Branches where a condition holds. -/
def branchIf (c : Ctx) (s : State) (b : Bool) : Act := if b then .jump s (branchTarget c) else .done s

def execNop (f : Fields) (s : State) : Host.Outcome State Fault Refusal := issue (.nop f) f s fun _ s => .done s

def execBra (f : Fields) (s : State) : Host.Outcome State Fault Refusal := issue (.bra f) f s fun c s => .jump s (branchTarget c)

/-- R102. -/
def brsCond (code : Nat) (a : Int) : Bool :=
  match code with | 0 => a == 0 | 1 => a != 0 | 2 => decide (a < 0) | _ => decide (a ≥ 0)

def execBrs (f : Fields) (s : State) : Host.Outcome State Fault Refusal :=
  issue (.brs f) f s fun c s => branchIf c s (brsCond (f.m 2 0) c.va.scalar.toInt)

/-- R103. -/
def brmCond (code : Nat) (a exec : Word) : Bool :=
  let t := a &&& exec
  match code with | 0 => t != 0 | 1 => t == exec | 2 => t == 0 | _ => t != exec

def execBrm (f : Fields) (s : State) : Host.Outcome State Fault Refusal :=
  issue (.brm f) f s fun c s => branchIf c s (brmCond (f.m 1 0) c.va.scalar c.w.exec)

def execCall (f : Fields) (s : State) : Host.Outcome State Fault Refusal :=
  issue (.call f) f s fun c s => .jump (c.putScalar s 2 (c.w.pc + 12).toNat) (branchTarget c)

def execRet (f : Fields) (s : State) : Host.Outcome State Fault Refusal :=
  issue (.ret f) f s fun c s => .jump s (BitVec.ofNat 64 c.va.scalar64)

def execJmpi (f : Fields) (s : State) : Host.Outcome State Fault Refusal :=
  issue (.jmpi f) f s fun c s => .jump s (BitVec.ofNat 64 c.va.scalar64 + BitVec.ofInt 64 f.off)

/-- The counter register of `loop`. -/
def counterOf (c : Ctx) : Word :=
  match c.d with | some (.s n) => c.w.sr n | some (.x n) => c.w.xr n | _ => 0

/-- R106. -/
def execLoop (f : Fields) (s : State) : Host.Outcome State Fault Refusal :=
  issue (.loop f) f s fun c s =>
    let cnt := counterOf c - 1
    branchIf c (c.putScalar s 1 cnt.toNat) (cnt != 0)

/-- A new age stamp: the cycle (R97). -/
def stamp (s : State) (w : Wave) : State := s.setWave { w with age := s.cc, ageSub := 0 }

def execYield (f : Fields) (s : State) : Host.Outcome State Fault Refusal :=
  issue (.yield f) f s fun c s => .done (stamp s (c.wave s))

/-- The limit of a park, n cc from issue; 0 means none (R108). -/
def parkLimit (s : State) (n : Nat) : Option Nat := if n == 0 then none else some (s.cc + n)

/-- R108. -/
def execPark (f : Fields) (s : State) : Host.Outcome State Fault Refusal :=
  issue (.park f) f s fun c s =>
    let n := f.e 24 0
    match f.m 1 0 with
    | 0 => if n == 0 then .done s else .rest s (.parked .time (some (s.cc + n)))
    | 1 => match c.a with
      | some (.v r) => if c.w.vfull r then .done s else .rest s (.parked (.full r) (parkLimit s n))
      | _ => .done s
    | _ =>
      if c.w.latch then .done (s.setWave { c.wave s with latch := false })
      else if c.w.troupe.isNone && n == 0 then .done s
      else .rest s (.parked .troupe (parkLimit s n))

/-- Steps 1 to 4 of R110: the wave's streams end, it leaves its troupe and enters Halting at its PC. A continuation
wave's records are freed (R398). -/
def haltWave (s : State) (w : Wave) : State :=
  let s := { s with lands := modify (fun l => l.wid == w.wid) (fun l => { l with held := false }) s.lands }
  let s := if w.cont.isSome then s.freeRays fun r => r.place == .inWave w.node else s
  let s := reportHeld s w
  let sids := w.q.filterMap id
  let s := sids.foldl endStream s
  let s := troupeLeave s w
  match s.wave? w.wid with
  | some w => s.setWave { retire w with st := .halting, q := List.replicate 8 none, held := false, ending := false }
  | none => s

/-- A halt comes after the delivery of what a unit or a store stream still holds, and after what a release has them repeat (R110, R116);
it leaves its troupe after the wave's earlier accesses to scratchpads (R200). After a release at the halt it waits until the wave's held
stores and commands have been performed (R116). Several undelivered faults are delivered in the order
array, bank, streams (log entry 32). -/
def haltAct (c : Ctx) (s : State) (body : State → Act) : Act :=
  withDelivery c s true true <|
    if streamAgain s c.w || bankAgain s c.w.wid then .wait
    else match stoppedStream s c.w with
    | some (t, e) => streamFault s c.w t e
    | none => if releasedWork s c.w || leaveHeld s (c.wave s) then .wait else body s

/-- `halt` (R110): an undelivered deferred fault comes first (R116). -/
def execHalt (f : Fields) (s : State) : Host.Outcome State Fault Refusal :=
  issue (.halt f) f s fun c s => haltAct c s fun s => .final (haltWave s (c.wave s))

/-- The value of `getid` in a lane (R111, R396). -/
def getidVal (c : Ctx) (sel l : Nat) : Nat :=
  match sel with
  | 0 => if c.isCont then (match c.w.contLanes.find? fun k => k.lane == l with
      | some k => k.laneIdx.toNat | none => 0xFFFFFFFF) else (32 * c.w.idx + l) % 2 ^ 32
  | 1 => (match c.w.cont with | some n => n | none => c.w.idx) % 2 ^ 32
  | 2 => c.node.launch.count % 2 ^ 32
  | 3 => State.taskId c.node
  | 4 => c.node.queue
  | _ => State.locOf c.w

def execGetid (f : Fields) (s : State) : Host.Outcome State Fault Refusal :=
  issue (.getid f) f s fun c s =>
    let sel := f.m 2 0
    if sel == 0 then .done (c.putVec s 1 allLanes fun l => getidVal c 0 l)
    else if (sel == 5 && c.det) || (sel == 1 && c.contDet) then .det
    else .done (c.putScalar s 1 (getidVal c sel 0))

end Sys2Proof.Machine
end

