-- ==== Sys2Proof/Machine/Flags.lean ====
section
/-! DEFINITION. Rounding modes and flags of the float classes: the mode an instruction uses, its element format, and
results with the flags its active lanes raise (R80, R86, R137 to R143). -/

namespace Sys2Proof.Machine

/-- The mode of RM, or `fpmode`.RM under `.dyn` (R80, R137). -/
def modeOf (w : Wave) (rm : Nat) : Nat := if rm == 5 then (w.fpmode.toNat % 8) else rm

/-- The element format of a VFD (`dbl`) or VFS operation (R140). -/
def fpOf (dbl : Bool) (fmt : Nat) : Fp := if dbl then fp64 else match fmt with | 1 => fp16 | 2 => Sys2Proof.Machine.bf16 | _ => fp32

/-- Elements of an operand (R143). -/
def elemsOf (dbl : Bool) (fmt : Nat) : Nat := if dbl || fmt == 0 then 1 else 2

/-- Element e of an operand's value. -/
def elemAt (p : Fp) (v e : Nat) : Nat := v / 2 ^ (p.width * e) % 2 ^ p.width

/-- `In` of R143 on a code: a subnormal becomes a zero of its sign under FTZ. -/
def flushCode (p : Fp) (ftz : Bool) (b : Nat) : Nat := if ftz && p.subnormal b then b / 2 ^ (p.eb + p.fb) % 2 * 2 ^ (p.eb + p.fb) else b

/-- The union of the flags of the lanes of a mask (R86). -/
def flagsOf (m : Word) (g : Nat → Flags) : Flags := laneList.foldl (fun a l => if lane m l then a ||| g l else a) 0

/-- Writes lane results with their flags. -/
def Ctx.putFlagged (c : Ctx) (s : State) (count : Nat) (g : Nat → Nat × Flags) : State :=
  c.addFlags (c.putVec s count c.m fun l => (g l).1) (flagsOf c.m fun l => (g l).2)

/-- Packs element results and unites their flags. -/
def packElems (p : Fp) (k : Nat) (g : Nat → Nat × Flags) : Nat × Flags :=
  (List.range k).foldl (fun a e => let r := g e; (a.1 + r.1 * 2 ^ (p.width * e), a.2 ||| r.2)) (0, 0)

end Sys2Proof.Machine
end

