-- ==== Sys2Proof/Machine/IntOps.lean ====
section
/-! DEFINITION. The integer operations of R122 to R129 on numbers of one element, shared by classes SIA and VIA. -/

namespace Sys2Proof.Machine

/-- Val of R122: an n-bit element as a signed or unsigned integer. -/
def elemVal (sg : Bool) (n v : Nat) : Int := if sg then sext n v else ((v % 2 ^ n : Nat) : Int)

/-- Clamp(t, lo, hi) to the n-bit range (R122). -/
def clamp (sg : Bool) (n : Nat) (t : Int) : Int :=
  let lo : Int := if sg then -((2 ^ (n - 1) : Nat) : Int) else 0
  let hi : Int := if sg then ((2 ^ (n - 1) : Nat) : Int) - 1 else ((2 ^ n : Nat) : Int) - 1
  if t < lo then lo else if t > hi then hi else t

/-- The final reduction of an exact result (R122). -/
def narrow (sat sg : Bool) (n : Nat) (t : Int) : Nat := wrap n (if sat then clamp sg n t else t)

/-- Applies an element operation to the packed elements of two numbers (R68, R118): elements of n bits, k of them. -/
def packed (n k : Nat) (g : Nat → Nat → Nat) (a b : Nat) : Nat :=
  (List.range k).foldl (fun acc i => acc + g (a / 2 ^ (n * i) % 2 ^ n) (b / 2 ^ (n * i) % 2 ^ n) % 2 ^ n * 2 ^ (n * i)) 0

/-- Element width and count of WD (R118). -/
def wdBits (w : Nat) : Nat := match w with | 1 => 64 | 2 => 16 | 3 => 8 | _ => 32
def wdCount (w : Nat) : Nat := match w with | 2 => 2 | 3 => 4 | _ => 1

/-- An exact two-operand operation over Val with saturation (R122). -/
def arith (f : Fields) (g : Int → Int → Int) (a b : Nat) : Nat :=
  let n := wdBits (wd f)
  packed n (wdCount (wd f)) (fun x y => narrow (vr f == 1) (sg f) n (g (elemVal (sg f) n x) (elemVal (sg f) n y))) a b

/-- min and max (R122). -/
def intMin (f : Fields) : Nat → Nat → Nat := arith f fun a b => if a < b then a else b
def intMax (f : Fields) : Nat → Nat → Nat := arith f fun a b => if a > b then a else b

/-- High half of a 32-bit product (R122). -/
def mulHigh (sg : Bool) (a b : Nat) : Nat := wrap 32 (elemVal sg 32 a * elemVal sg 32 b / 2 ^ 32)

/-- |a| per element; SG = 0 returns a (R122). -/
def absOp (f : Fields) (a : Nat) : Nat :=
  let n := wdBits (wd f)
  packed n (wdCount (wd f)) (fun x _ => if sg f then narrow (vr f == 1) true n (elemVal true n x).natAbs else x) a 0

/-- Quotient of R123. -/
def divOp (sg : Bool) (a b : Nat) : Nat :=
  if b % 2 ^ 32 == 0 then
    if sg then (if elemVal true 32 a ≥ 0 then 0xFFFFFFFF else 1) else 0xFFFFFFFF
  else if sg then wrap 32 ((elemVal true 32 a).tdiv (elemVal true 32 b))
  else a % 2 ^ 32 / (b % 2 ^ 32)

/-- Remainder of R123. -/
def remOp (sg : Bool) (a b : Nat) : Nat :=
  if b % 2 ^ 32 == 0 then a % 2 ^ 32
  else if sg then wrap 32 ((elemVal true 32 a).tmod (elemVal true 32 b))
  else a % 2 ^ 32 % (b % 2 ^ 32)

/-- Shifts of n bits by an unsigned count (R125). -/
def shlOp (n a c : Nat) : Nat := if c ≥ n then 0 else a * 2 ^ c % 2 ^ n
def shrOp (n a c : Nat) : Nat := if c ≥ n then 0 else a / 2 ^ c
def sraOp (n a c : Nat) : Nat := wrap n (sext n a / 2 ^ (min c n))

/-- The conditions of R126. -/
def intCond (code : Nat) (a b : Int) : Bool :=
  match code with
  | 0 => a == b
  | 1 => a != b
  | 2 => decide (a < b)
  | 3 => decide (a ≤ b)
  | 4 => decide (a > b)
  | _ => decide (a ≥ b)

/-- `bfe` of R128. -/
def bfeOp (sg : Bool) (n o w a : Nat) : Nat :=
  if w == 0 then 0
  else
    let v := a / 2 ^ o % 2 ^ w
    if sg then wrap n (sext w v) else v

/-- `bfi` of R128. -/
def bfiOp (o w a b : Nat) : Nat := b - b / 2 ^ o % 2 ^ w * 2 ^ o + a % 2 ^ w * 2 ^ o

/-- Set bits and leading zeros of n bits (R129). -/
def popOp (n a : Nat) : Nat := ((List.range n).filter fun i => a.testBit i).length
def clzOp (n a : Nat) : Nat := if a % 2 ^ n == 0 then n else n - 1 - Nat.log2 (a % 2 ^ n)

/-- The immediate of R120 as an operand of the operation's width. -/
def immVal (f : Fields) : Nat :=
  if wd f == 1 then (if sg f then wrap 64 f.imm32.toInt else f.imm32.toNat) else f.imm32.toNat

/-- An operation of WD 1 reads and writes pairs. -/
def wide (f : Fields) : Bool := wd f == 1

/-- Operand B of a lane: the immediate or the source. -/
def Ctx.bAt (c : Ctx) (l : Nat) : Nat := if im c.f then immVal c.f else c.vb.n (wide c.f) l

/-- A shift count: one 32-bit operand (R119). -/
def Ctx.countAt (c : Ctx) (l : Nat) : Nat := if im c.f then c.f.imm32.toNat else (c.vb.w l).toNat

def Ctx.aAt (c : Ctx) (l : Nat) : Nat := c.va.n (wide c.f) l

/-- Registers of a result of the operation's width. -/
def words (f : Fields) : Nat := if wide f then 2 else 1

end Sys2Proof.Machine
end

