-- ==== Sys2Proof/Machine/Convert.lean ====
section
/-! DEFINITION. Class CVT (R152 to R157). -/

namespace Sys2Proof.Machine

/-- Decode of a float format (R69, R72, R77), with `In`'s flush (R71). -/
def fmtRead (g : Fmt) (ftz : Bool) (b : Nat) : FV :=
  match g with
  | .f16 => fp16.readIn ftz (b % 2 ^ 16)
  | .bf16 => Sys2Proof.Machine.bf16.readIn ftz (b % 2 ^ 16)
  | .f32 => fp32.readIn ftz (b % 2 ^ 32)
  | .f64 => fp64.readIn ftz b
  | .e4m3 => decodeE4m3 (b % 256)
  | .e5m2 => decodeE5m2 b
  | _ => decodeDyn8 (b % 256)

/-- Out in a float format; a signalling NaN raises NV (R70, R79, R83). -/
def fmtRound (g : Fmt) (mode : Nat) (ftz : Bool) (v : FV) : Nat × Flags :=
  let ieee (p : Fp) : Nat × Flags := let (r, fl) := p.round mode ftz v; (r, fl ||| flagIf v.isSig fNV)
  match g with
  | .f16 => ieee fp16
  | .bf16 => ieee Sys2Proof.Machine.bf16
  | .f32 => ieee fp32
  | .f64 => ieee fp64
  | .e4m3 => roundFp8 true mode v
  | .e5m2 => roundFp8 false mode v
  | _ => encodeDyn8 v

/-- A result placed in a register: a signed format is sign-extended to 32 bits (R154). -/
def fmtPlace (g : Fmt) (v : Nat) : Nat := if g.signed && g.bits < 32 then wrap 32 (sext g.bits v) else v

/-- `cvt` of one element (R154). -/
def cvtElem (src dst : Fmt) (mode : Nat) (sat ftz : Bool) (b : Nat) : Nat × Flags :=
  let (r, fl) :=
    if src.isFloat then
      let v := fmtRead src ftz b
      if dst.isFloat then fmtRound dst mode ftz v
      else let (n, fl) := v.toInt mode dst.signed dst.bits; (wrap dst.bits n, fl)
    else
      let n := elemVal src.signed src.bits b
      if dst.isFloat then fmtRound dst mode ftz (ofInt n)
      else (wrap dst.bits (if sat then clamp dst.signed dst.bits n else n), 0)
  (fmtPlace dst r, fl)

def execCvt (f : Fields) (s : State) : Host.Outcome State Fault Refusal :=
  issue (.cvt f) f s fun c s =>
    match fmtOf (f.e 4 0), fmtOf (f.e 9 5) with
    | some src, some dst =>
      let mode := modeOf c.w (rmF f)
      .done (c.putFlagged s (if dst.bits == 64 then 2 else 1) fun l =>
        cvtElem src dst mode (f.m 4 4 == 1) (ftzF f) (c.va.n (src.bits == 64) l))
    | _, _ => .done s

/-- Merges P packed elements of w bits into positions b to b + P - 1 of a word (R155). -/
def mergeElems (w b p : Nat) (old : Nat) (g : Nat → Nat × Flags) : Nat × Flags :=
  (List.range p).foldl (fun a i =>
    let r := g i
    let o := w * (b + i)
    (a.1 - a.1 / 2 ^ o % 2 ^ w * 2 ^ o + r.1 % 2 ^ w * 2 ^ o, a.2 ||| r.2)) (old, 0)

/-- The old value of a packing destination (R155). -/
def Ctx.dOld (c : Ctx) (l : Nat) : Nat := match c.d with | some (.v n) => (c.w.vl n l).toNat | _ => 0

/-! ### Stochastic rounding (R87, R88) -/

/-- The truncation of a nonzero finite magnitude to a format's grid: k units of 2^q, and the rest of m * 2^e in units
of 2^(q - s) with s: phi = rest / 2^s. -/
structure SrTrunc where
  k : Nat
  q : Int
  rest : Nat
  s : Nat

def srTruncAt (m : Nat) (e q : Int) : SrTrunc :=
  if e ≥ q then ⟨m * 2 ^ (e - q).toNat, q, 0, 0⟩
  else let s := (q - e).toNat; ⟨m / 2 ^ s, q, m % 2 ^ s, s⟩

/-- The IEEE-like layout of a `cvs` destination. -/
def srFp (g : Fmt) : Fp :=
  match g with | .f16 => fp16 | .bf16 => Sys2Proof.Machine.bf16 | .e4m3 => Sys2Proof.Machine.e4m3 | _ => Sys2Proof.Machine.e5m2

def srTrunc (g : Fmt) (m : Nat) (e : Int) : SrTrunc :=
  let lead := leadExp m e
  if g == .dyn8 then
    if lead < -11 then srTruncAt m e (-11) else srTruncAt m e (lead - (dynBand (dynCode lead).1).2)
  else
    let p := srFp g
    let qu := lead - p.fb
    srTruncAt m e (if qu < p.emin - p.fb then p.emin - p.fb else qu)

/-- The discard word d(e) (R87). -/
def srDiscard (g : Fmt) (v : FV) : Nat :=
  match v with
  | .fin _ m e =>
    if m == 0 || (g == .dyn8 && geTwo m e 9) then 0
    else let t := srTrunc g m e; t.rest * 2 ^ 32 / 2 ^ t.s
  | _ => 0

/-- One element's result from its value, whether it rounds away, and its flags (R88). -/
def srResult (g : Fmt) (ftz : Bool) (v : FV) (away : Bool) : Nat × Flags :=
  match v with
  | .fin neg m e =>
    if m == 0 then fmtRound g mRNE false v
    else if g == .dyn8 then
      if geTwo m e 9 then encodeDyn8 v
      else
        let t := srTrunc .dyn8 m e
        let k := if away then t.k + 1 else t.k
        let fl := flagIf (t.rest != 0) fNX ||| flagIf (!geTwo m e (-11)) fUF
        if k == 0 then (0, fl)
        else ((encodeDyn8 (.fin neg k t.q)).1, fl)
    else
      let p := srFp g
      let t := srTrunc g m e
      let k := if away then t.k + 1 else t.k
      let code := (t.q - (p.emin - p.fb)).toNat * 2 ^ p.fb + k
      let tiny := decide (k == 0 || leadExp k t.q < p.emin)
      let narrow := g == .e4m3 || g == .e5m2
      let max := match g with | .e4m3 => 0x7E | .e5m2 => 0x7B | _ => p.maxFin
      let big : Bool := narrow && decide ((FV.fin false m e).cmp (if g == .e4m3 then decodeE4m3 0x7E else decodeE5m2 0x7B) > 0)
      if narrow && (big || decide (code > max)) then (p.sign neg + max, fSAT ||| fNX)
      else if code > max then (p.sign neg + p.inf, fOF ||| fNX)
      else if ftz && tiny && !narrow then (p.sign neg, fUF ||| fNX)
      else (p.sign neg + code, flagIf (t.rest != 0) fNX ||| flagIf (tiny && t.rest != 0) fUF)
  | w => fmtRound g mRNE false w

/-- The decision of R88 for element i of a row with discard words d. -/
def srAway (d : List Nat) (i : Nat) (idx : Word) : Bool :=
  let n := d.length
  let w (j : Nat) : Word := BitVec.ofNat 32 (d.getD (j % n) 0)
  let h := mix32 (srKey (w (i + n - 1)) (w (i + 1)) idx)
  decide (d.getD i 0 / 2 ^ 16 > h.toNat / 2 ^ 16)

def execCvs (f : Fields) (s : State) : Host.Outcome State Fault Refusal :=
  issue (.cvs f) f s fun c s =>
    if c.contDet then .det
    else match fmtOf (f.e 9 5) with
      | none => .done s
      | some g =>
        let p := pCount f
        let v (e : Nat) : FV := fp32.readIn (ftzF f) (c.va.w (e / p) (e % p)).toNat
        let d := (List.range (32 * p)).map fun e => srDiscard g (v e)
        let idx (e : Nat) : Word := BitVec.ofNat 32 (p * getidVal c 0 (e / p) + e % p)
        .done (c.putFlagged s 1 fun l => mergeElems g.bits (pPos f) p (c.dOld l) fun i =>
          let e := p * l + i
          srResult g (ftzF f) (v e) (srAway d e (idx e)))

def execPkd8 (f : Fields) (s : State) : Host.Outcome State Fault Refusal :=
  issue (.pkd8 f) f s fun c s =>
    .done (c.putFlagged s 1 fun l => mergeElems 8 (pPos f) (pCount f) (c.dOld l) fun i =>
      encodeDyn8 (fp32.readIn (ftzF f) (c.va.w l i).toNat))

/-- Writes P results to consecutive registers (R156). -/
def Ctx.putGroup (c : Ctx) (s : State) (p : Nat) (g : Nat → Nat → Nat × Flags) : State :=
  let s := match c.d with
    | some (.v n) => s.setWave ((c.wave s).wvGrp n p c.m fun i l => BitVec.ofNat 32 (g i l).1)
    | _ => s
  c.addFlags s (flagsOf c.m fun l => (List.range p).foldl (fun a i => a ||| (g i l).2) 0)

/-- Byte k of a number. -/
def byteAt (v k : Nat) : Nat := v / 2 ^ (8 * k) % 256

def execUpd8 (f : Fields) (s : State) : Host.Outcome State Fault Refusal :=
  issue (.upd8 f) f s fun c s =>
    .done (c.putGroup s (pCount f) fun i l =>
      ((fp32.round mRNE false (decodeDyn8 (byteAt (c.va.w l).toNat (pPos f + i)))).1, 0))

/-- The trit code of five signed bytes (R75, R155). -/
def encodeT3 (v : Nat) : Nat :=
  let d (k : Nat) : Nat :=
    let x := sext 8 (byteAt v k)
    if x > 0 then 2 else if x < 0 then 0 else 1
  d 0 + 3 * d 1 + 9 * d 2 + 27 * d 3 + 81 * d 4

def execPkt3 (f : Fields) (s : State) : Host.Outcome State Fault Refusal :=
  issue (.pkt3 f) f s fun c s =>
    .done (c.putFlagged s 1 fun l => mergeElems 8 (pPos f) 1 (c.dOld l) fun _ => (encodeT3 (c.va.d l), 0))

/-- Five signed bytes of a trit code, and TERN for a reserved one (R156). -/
def unpackT3 (b : Nat) : Nat × Flags :=
  match decodeT3 b with
  | some ts => ((ts.zipIdx).foldl (fun a ti => a + wrap 8 ti.1 * 2 ^ (8 * ti.2)) 0, 0)
  | none => (0, fTERN)

def execUpt3 (f : Fields) (s : State) : Host.Outcome State Fault Refusal :=
  issue (.upt3 f) f s fun c s => .done (c.putFlagged s 2 fun l => unpackT3 (byteAt (c.va.w l).toNat (pPos f)))

/-- The E8M0 scale of the active lanes (R157). -/
def mxScale (fmt : Nat) (vs : List FV) : Nat × Flags :=
  if vs.any fun v => v.isNan || v.isInf then (0xFF, flagIf (vs.any FV.isSig) fNV)
  else
    let lead := vs.foldl (fun (a : Option Int) v => match v with
      | .fin _ m e => if m == 0 then a else match a with
        | some x => some (if leadExp m e > x then leadExp m e else x)
        | none => some (leadExp m e)
      | _ => a) none
    match lead with
    | none => (0, 0)
    | some x =>
      let emax : Int := match fmt with | 0 => 8 | 1 => 15 | _ => 0
      let code := x - emax + 127
      if code > 254 then (254, fSAT) else (code.toNat, 0)

def execMxsc (f : Fields) (s : State) : Host.Outcome State Fault Refusal :=
  issue (.mxsc f) f s fun c s =>
    if c.contDet then .det
    else
      let vs := (laneList.filter fun l => lane c.m l).map fun l => fp32.readIn (ftzF f) (c.va.w l).toNat
      let (r, fl) := mxScale (f.m 5 4) vs
      let s := match c.d with | some (.s _) => c.putScalar s 1 r | _ => c.putVec s 1 c.m fun _ => r
      .done (c.addFlags s fl)

/-- A value times 2^k, exactly. -/
def scaleBy (v : FV) (k : Int) : FV := match v with | .fin n m e => .fin n m (e + k) | w => w

/-- `pkf8` of one element with scale code sc; a signalling NaN raises NV whatever the scale (R70, R155). -/
def pkf8Elem (fmt mode sc : Nat) (v : FV) : Nat × Flags :=
  if fmt == 2 then
    if sc == 0xFF then (0, fNV)
    else let (n, fl) := (scaleBy v (133 - (sc : Int))).toInt mode true 8; (wrap 8 n, fl)
  else if sc == 0xFF then (if fmt == 0 then 0x7F else 0x7E, flagIf v.isSig fNV)
  else roundFp8 (fmt == 0) mode (scaleBy v (127 - (sc : Int)))

def execPkf8 (f : Fields) (s : State) : Host.Outcome State Fault Refusal :=
  issue (.pkf8 f) f s fun c s =>
    let mode := modeOf c.w (rmF f)
    .done (c.putFlagged s 1 fun l => mergeElems 8 (pPos f) (pCount f) (c.dOld l) fun i =>
      pkf8Elem (f.m 5 4) mode ((c.vb.w l).toNat % 256) (fp32.readIn (ftzF f) (c.va.w l i).toNat))

/-- `upf8` of one element; a signalling NaN raises NV whatever the scale (R70, R74, R156). -/
def upf8Elem (fmt mode sc : Nat) (ftz : Bool) (b : Nat) : Nat × Flags :=
  let v := match fmt with
    | 0 => decodeE4m3 b
    | 1 => decodeE5m2 b
    | _ => scaleBy (ofInt (sext 8 b)) (-6)
  if sc == 0xFF then (fp32.nan, flagIf v.isSig fNV)
  else
    let (r, fl) := fp32.round mode ftz (scaleBy v ((sc : Int) - 127))
    (r, fl ||| flagIf v.isSig fNV)

def execUpf8 (f : Fields) (s : State) : Host.Outcome State Fault Refusal :=
  issue (.upf8 f) f s fun c s =>
    let mode := modeOf c.w (rmF f)
    .done (c.putGroup s (pCount f) fun i l =>
      upf8Elem (f.m 5 4) mode ((c.vb.w l).toNat % 256) (ftzF f) (byteAt (c.va.w l).toNat (pPos f + i)))

end Sys2Proof.Machine
end

