-- ==== Sys2Proof/Machine/ArrayNum.lean ====
section
/-! DEFINITION. The arithmetic of the Matryoshka path: configurations, the slicer, column sums, accumulators and the
error bound (R258 to R273, R280 to R284). -/

namespace Sys2Proof.Machine

/-! ### Configurations (R280, R281) -/

/-- A configuration word's fields; `s` is the slice count. -/
structure ArrCfg where
  s : Nat
  tri : Bool
  af : Nat
  bf : Nat
  outf : Nat
  amx : Bool
  bmx : Bool
  sparse : Bool
  f32 : Bool
  preset : Bool

def arrCfg (c : Nat) : ArrCfg :=
  let b (n : Nat) : Bool := State.bits c n n == 1
  { s := State.bits c 2 0 + 1, tri := b 3, af := State.bits c 8 4, bf := State.bits c 13 9, outf := State.bits c 18 14
    amx := b 19, bmx := b 20, sparse := b 21, f32 := b 22, preset := b 23 }

/-- Slice counts that a format admits. -/
def slicesOk (code s : Nat) : Bool :=
  if code == 4 || code == 5 then s == 2
  else if code == 6 then s == 3 || s == 4
  else if code == 7 then true
  else s == 1

/-- R281. -/
def cfgOk (w : Nat) : Bool :=
  let c := arrCfg w
  w / 2 ^ 24 == 0 && decide (4 ≤ c.af ∧ c.af ≤ 13) && decide (4 ≤ c.bf ∧ c.bf ≤ 13)
    && [4, 5, 6, 7, 8, 9, 10, 15].contains c.outf
    && (!c.amx || [8, 9, 13].contains c.af) && (!c.bmx || [8, 9, 13].contains c.bf)
    && slicesOk c.af c.s && slicesOk c.bf c.s

/-! ### Packed elements (R68, R75, R283) -/

/-- Bytes of n packed elements. -/
def packedBytes (code n : Nat) : Nat :=
  if code == 11 then (n + 4) / 5
  else match fmtOf code with | some g => n * g.bits / 8 | none => 0

/-- Byte i of a byte list. -/
def byteN (bs : List Byte) (i : Nat) : Nat := (bs.getD i 0).toNat

/-- n little-endian bytes from position i. -/
def bytesNat (bs : List Byte) (i n : Nat) : Nat := leNat ((bs.drop i).take n)

/-- Element k of a packed row as bits; a `.t3` element as its trit in two's complement. -/
def packedElem (code : Nat) (bs : List Byte) (k : Nat) : Nat :=
  if code == 11 then
    match decodeT3 (byteN bs (k / 5)) with
    | some ts => wrap 8 (ts.getD (k % 5) 0)
    | none => 0
  else if code == 12 then byteN bs (k / 2) / 16 ^ (k % 2) % 16
  else match fmtOf code with
    | some g => bytesNat bs (g.bits / 8 * k) (g.bits / 8)
    | none => 0

/-- Whether a row of `.t3` bytes holds a reserved code (R75). -/
def hasTern (code n : Nat) (bs : List Byte) : Bool :=
  code == 11 && (List.range (packedBytes 11 n)).any fun i => (decodeT3 (byteN bs i)).isNone

/-! ### The slicer (R260 to R262) -/

/-- An element for the slicer: t and u with the loss mark, a special value, or a dropped one. -/
inductive SlEl where
  | val (t u : Int) (loss : Bool)
  | special
  | dropped

/-- t and u of a finite float (R260). -/
def sliceFloat (s : Nat) (v : FV) : SlEl :=
  match v with
  | .fin neg m e =>
    if m == 0 then .val 0 0 false
    else
      let ex := leadExp m e
      let sh : Int := e + 7 * (s : Int) - 1 - ex
      let t := if sh ≥ 0 then m * 2 ^ sh.toNat else m / 2 ^ (-sh).toNat
      let lost := sh < 0 && m % 2 ^ (-sh).toNat != 0
      .val (if neg then -(t : Int) else t) (ex - 7 * s + 1) lost
  | _ => .special

/-- The element of a format code with its scale code, if the block has one (R260, R74). -/
def sliceElem (s code : Nat) (scale : Option Nat) (b : Nat) : SlEl :=
  if scale == some 0xFF then .special
  else if code == 13 || code == 11 then .val (sext 8 b) (match scale with | some x => (x : Int) - 133 | none => 0) false
  else if code == 12 then .val (sext 4 b) 0 false
  else match fmtOf code with
    | some g => sliceFloat s (match scale with
      | some x => scaleBy (fmtRead g false b) ((x : Int) - 127)
      | none => fmtRead g false b)
    | none => .special

/-- Slice i of t (R261). -/
def sliceOfT (s i : Nat) (t : Int) : Int :=
  if i == 0 then t / 2 ^ (7 * (s - 1)) else t / 2 ^ (7 * (s - 1 - i)) % 128

/-- A segment cut into s slices (R261, R262). -/
def cutSeg (s : Nat) (els : List SlEl) : Seg :=
  let loss := els.any fun x => match x with | .val _ _ l => l | _ => false
  let special := els.any fun x => match x with | .special => true | _ => false
  let dropped := els.any fun x => match x with | .dropped => true | _ => false
  let top := els.foldl (fun (a : Option Int) x => match x with
    | .val t u _ => if t == 0 then a else match a with
      | some y => some (if u > y then u else y)
      | none => some u
    | _ => a) none
  match top with
  | none => { shifts := els.map fun _ => 0, slices := (List.range s).map fun _ => els.map fun _ => 0
              loss := loss, drop := dropped, special := special }
  | some top =>
    let kept := els.map fun x => match x with
      | .val t u _ => if t == 0 then (0, 0, false) else if top - u > 15 then (0, 0, true) else (t, (15 - (top - u)).toNat, false)
      | _ => ((0 : Int), 0, false)
    let slices := (List.range s).map fun i => kept.map fun k => sliceOfT s i k.1
    { w := top + 7 * ((s : Int) - 1) - 15, shifts := kept.map fun k => k.2.1, slices := slices, loss := loss
      drop := dropped || kept.any fun k => k.2.2
      special := special
      marks := (List.range s).foldl (fun a i => if (slices.getD i []).any (· != 0) then a + 2 ^ i else a) 0 }

/-- The segment of a row or column record: n elements of a code with the scale bytes that follow, one per 32 places of
K; `place` gives an element's K index, `skip` the elements that read as dropped. -/
def segOf (s code n : Nat) (mx : Bool) (place : Nat → Nat) (skip : Nat → Bool) (data scales : List Byte) : Seg :=
  cutSeg s ((List.range n).map fun k =>
    if skip k then .dropped
    else sliceElem s code (if mx then some (byteN scales (place k / 32)) else none) (packedElem code data k))

/-! ### B planes (R282 to R284) -/

/-- K elements of a block. -/
def blockK (c : ArrCfg) : Nat := if c.sparse then 256 else 128

/-- Bytes of a raw column record and of a column image. -/
def recBytesB (c : ArrCfg) : Nat :=
  packedBytes c.bf 128 + (if c.bmx then blockK c / 32 else 0) + (if c.sparse then 32 else 0)
def imgBytes (c : ArrCfg) : Nat := if c.sparse then 232 else 200

/-- The K index that metadata give a kept element (R283). -/
def metaPlace (md : List Byte) (e : Nat) : Nat := 4 * (e / 2) + byteN md (e / 4) / 4 ^ (e % 4) % 4

/-- The K indices of a column's kept elements. -/
def selOf (c : ArrCfg) (md : List Byte) : List Nat := (List.range 128).map fun e => if c.sparse then metaPlace md e else e

/-- A raw column record, slice j (R283, R285). -/
def rawCol (c : ArrCfg) (j : Nat) (bs : List Byte) : PlaneCol :=
  let eb := packedBytes c.bf 128
  let sb := if c.bmx then blockK c / 32 else 0
  let md := bs.drop (eb + sb)
  let place (e : Nat) := if c.sparse then metaPlace md e else e
  let g := segOf c.s c.bf 128 c.bmx place (fun e => c.sparse && e % 2 == 1 && metaPlace md e == metaPlace md (e - 1))
    (bs.take eb) ((bs.drop eb).take sb)
  { slice := g.slices.getD j [], shifts := g.shifts, sel := selOf c md, w := g.w, loss := g.loss, drop := g.drop
    special := g.special, marks := g.marks }

/-- A sliced column image (R284). -/
def imgCol (c : ArrCfg) (bs : List Byte) : PlaneCol :=
  let md := bs.drop 192
  let h := bytesNat bs (if c.sparse then 224 else 192) 8
  let marks := State.bits h 47 40
  let bad := State.bits h 39 35 != 0 || State.bits h 63 48 != 0 || marks / 2 ^ c.s != 0
  let twice (e : Nat) : Bool := c.sparse && e % 2 == 1 && metaPlace md e == metaPlace md (e - 1)
  { slice := (List.range 128).map fun k => if twice k then 0 else sext 8 (byteN bs k)
    shifts := (List.range 128).map fun k => byteN bs (128 + k / 2) / 16 ^ (k % 2) % 16
    sel := selOf c md, w := sext 32 (State.bits h 31 0), loss := State.bits h 32 32 == 1
    drop := State.bits h 33 33 == 1 || (List.range 128).any twice
    special := State.bits h 34 34 == 1 || bad, marks := marks }

/-! ### Contributions (R258, R263, R266, R267, R269) -/

/-- C[m][n] of a pass of slice i. -/
def colSum (r : Seg) (i : Nat) (c : PlaneCol) : Int :=
  let sa := r.slices.getD i []
  ((c.slice.zip (c.shifts.zip c.sel)).foldl (fun a (b, h, k) =>
    if b == 0 then a else a + sa.getD k 0 * b * 2 ^ (h + r.shifts.getD k 0)) 0)

/-- The largest set mark, or none. -/
def topMark (m : Nat) : Option Nat := if m == 0 then none else some (Nat.log2 m)

/-- Whether a skipped pair carries both marks (R263). -/
def skipsPair (tri : Bool) (s ma mb : Nat) : Bool :=
  tri && (match topMark ma, topMark mb with | some a, some b => decide (a + b ≥ s) | _, _ => false)

/-- Raises the anchor by 64 until the value fits in 256 bits; x is in units of 2^e0 and α ≥ e0. A value of n bits fits
after n / 64 steps. -/
def renormFrom : Nat → Int → Int → Int → Bool → Int × Bool
  | 0, _, _, al, r => (al, r)
  | n + 1, x, e0, al, r =>
    let q := x / 2 ^ (al - e0).toNat
    if q ≥ 2 ^ 255 || q < -(2 ^ 255) then renormFrom n x e0 (al + 64) true else (al, r)

/-- min of counts where one may be absent. -/
def optMin (a : Option Nat) (b : Nat) : Option Nat := match a with | some x => some (min x b) | none => some b

/-- One contribution num * 2^exp to an accumulator by a wave (R267, R269). -/
def Accum.apply (a : Accum) (f32 : Bool) (num exp : Int) (s : Nat) (loss drop special skip : Bool) (wid : Nat) : Accum :=
  let a := { a with
    opener := match a.opener with | some o => some o | none => some wid
    loss := a.loss || loss, drop := a.drop || drop, special := a.special || special, sMin := optMin a.sMin s }
  if f32 then
    let (x, _) := (fp32.decode a.y).add mRNE (ofSigned false num exp)
    let (y, fl) := fp32.round mRNE false x
    let nx := fl &&& fNX != 0
    { a with y := y, inexact := a.inexact || nx, ni := if nx then a.ni + 1 else a.ni, drop := a.drop || fl &&& fOF != 0 }
  else
    let a := { a with n := min (a.n + 1) (2 ^ 22 + 1), skip := a.skip || skip, sSkip := if skip then optMin a.sSkip s else a.sSkip }
    if num == 0 then a
    else
      let al := if a.opened then a.alpha else leadExp num.natAbs exp - 120
      let e0 := if al < exp then al else exp
      let x := a.acc * 2 ^ (al - e0).toNat + num * 2 ^ (exp - e0).toNat
      let (al, r) := renormFrom (Nat.log2 x.natAbs / 64 + 1) x e0 al a.renorm
      let q := x / 2 ^ (al - e0).toNat
      { a with opened := true, alpha := al, renorm := r, acc := q, trunc := a.trunc || q * 2 ^ (al - e0).toNat != x }

/-! ### Reading (R271 to R273, R291) -/

/-- The exact value an accumulator holds. -/
def Accum.value (a : Accum) (f32 : Bool) : FV :=
  if f32 then fp32.decode a.y else ofSigned false a.acc a.alpha

/-- The bound exponent β (R271): Λ in units of 2^-100. -/
def Accum.beta (a : Accum) : Nat :=
  if !(a.loss || a.drop || a.skip || a.trunc || a.inexact) then 255
  else if a.drop then 0
  else if a.trunc && a.n > 2 ^ 22 then 0
  else
    let s := a.sMin.getD 1
    let t := a.sSkip.getD 2
    let l := (if a.loss then 2 ^ (103 - 7 * s) else 0) + (if a.skip then (t - 1) * 2 ^ (103 - 7 * t) else 0)
      + (if a.trunc then 2 ^ 4 else 0) + (if a.inexact then a.ni * 2 ^ 77 else 0)
    let up := if l == 2 ^ Nat.log2 l then Nat.log2 l else Nat.log2 l + 1
    min 254 (100 - up)

/-- An accumulator's value converted to the output format (R291). -/
def accOut (outf mode : Nat) (f32 : Bool) (a : Accum) : Nat × Flags :=
  let v := a.value f32
  if outf == 15 then
    if a.special then (0, fNV) else let (n, fl) := v.toInt mode true 32; (wrap 32 n, fl)
  else match fmtOf outf with
    | none => (0, 0)
    | some g =>
      if a.special then ((fmtRound g mRNE false (.nan false)).1, fNV)
      else if v.isZero then (0, 0)
      else fmtRound g mode false v

/-- `mbound` after one `mrd` or `mst` over the accumulators it reads (R273). -/
def mboundNext (mb : Word) (as : List Accum) : Word :=
  let bs := (as.filter fun a => !a.special).map Accum.beta
  let exact := mb.getLsbD 31 && bs.all (· == 255)
  let ren := mb.getLsbD 30 || as.any (·.renorm)
  let beta := bs.foldl min (mb.extractLsb' 16 8).toNat
  let lossy := min 0xFFFF ((mb.extractLsb' 0 16).toNat + (bs.filter (· != 255)).length)
  BitVec.ofNat 32 ((if exact then 2 ^ 31 else 0) + (if ren then 2 ^ 30 else 0) + beta * 2 ^ 16 + lossy)

end Sys2Proof.Machine
end

