-- ==== Sys2Proof/Machine/Hold.lean ====
section
/-! DEFINITION. What a wave's queued stores and array commands hold back: the bytes they touch, against accesses that come
later in program order (R186, R190, R200, R295). -/

namespace Sys2Proof.Machine

/-! ### Addresses -/

/-- Addresses modulo 2^64 (R178). -/
def addr64 (a : Int) : Nat := wrap 64 a
def addr32 (a : Int) : Nat := wrap 32 a

/-- Address of element i. -/
def streamAddr (t : Stream) (i : Nat) : Nat :=
  let r := t.dims.foldl (fun (a : Int × Nat) d => (a.1 + d.2 * ((a.2 % d.1 : Nat) : Int), a.2 / d.1)) ((t.base : Int), i)
  if t.sp then addr32 r.1 else addr64 r.1

/-! ### The bytes that queued commands touch (R295) -/

/-- Whether the page of an address is never cached, so that accesses to it are performed in program order (R186). -/
def uncachedAt (s : State) (asid va : Nat) : Bool := match s.lookup asid va .read with | some t => t.uncached | none => false

/-- A range as it wraps in its space: modulo 2^32 in the scratchpad and 2^64 in global memory (R178, R196). -/
def wrapRange (sp : Bool) (r : Nat × Nat) : List (Nat × Nat) :=
  let top := if sp then 2 ^ 32 else 2 ^ 64
  let lo := r.1 % top
  if lo + r.2 ≤ top then [(lo, r.2)] else [(lo, top - lo), (0, lo + r.2 - top)]

/-- Whether a range touches a page that is never cached. -/
def rangeUncached (s : State) (asid : Nat) (r : Nat × Nat) : Bool :=
  r.2 != 0 && (uncachedAt s asid r.1 || uncachedAt s asid (r.1 + r.2 - 1))

/-- The byte ranges of an array command, whether they lie in the scratchpad, and whether it writes them. -/
def cmdRanges (h : ArrCmd) : List (Nat × Nat) × Bool × Bool :=
  let c := arrCfg h.cfg
  match h.op with
  | .lds sp img _ base pitch =>
    if h.started then ([], sp, false)
    else ((List.range 128).flatMap fun k => wrapRange sp (base + k * pitch, if img then imgBytes c else recBytesB c), sp, false)
  | .str true _ src rows _ pitch _ _ =>
    let n := packedBytes c.af (blockK c) + (if c.amx then blockK c / 32 else 0)
    ((List.range rows).flatMap fun m => wrapRange true (src + m * pitch, n), true, false)
  | .st _ _ sp dst _ pitch rows _ => ((List.range rows).flatMap fun m => wrapRange sp (dst + m * pitch, 128 * outBytes c.outf), sp, true)
  | _ => ([], false, false)

/-- Whether a queued command of a wave that is earlier than an access holds it back: one of the two writes common bytes, or both
lie at HOME 11. -/
def arrayHolds (s : State) (wid asid id : Nat) (sp cached : Bool) (addr size : Nat) (writes : Bool) : Bool :=
  s.arrays.any fun a => a.queue.any fun h =>
    h.wid == wid && decide (h.id < id) &&
      (let (rs, hsp, hw) := cmdRanges h
       hsp == sp && (((writes || hw) && rs.any fun r => decide (r.1 < addr + size ∧ addr < r.1 + r.2))
         || (!sp && !cached && rs.any (rangeUncached s asid))))

/-- Whether an element of a pushed entry that is not issued yet meets an access: a common scratchpad, common bytes, or two
places of HOME 11. -/
def entryMeets (s : State) (t : Stream) (asid k : Nat) (e : QEntry) (sp cached : Bool) (addr size : Nat) : Bool :=
  t.sp == sp && laneList.any fun l => lane e.mask l && (sp ||
    (let b := streamAddr t (t.stored + 32 * k + l)
     decide (b < addr + size ∧ addr < b + tySize t.ty)
       || (!cached && uncachedAt s asid b)))

/-- Whether an entry that a wave has pushed before an access holds it back (R186, R190, R200). -/
def streamHolds (s : State) (wid asid id : Nat) (sp cached : Bool) (addr size : Nat) : Bool :=
  s.streams.any fun t => t.wid == wid && t.write
    && t.entries.zipIdx.any fun (e, k) => decide (e.id < id) && entryMeets s t asid k e sp cached addr size

end Sys2Proof.Machine
end

