-- ==== Sys2Proof/Machine/Lanes.lean ====
section
/-! DEFINITION. What the lanes of a memory instruction issue: checks, data comparators, L1 hits, accesses in flight and
landing groups (R171 to R173, R178, R186, R226, R237, R437). -/

namespace Sys2Proof.Machine

/-! ### Data comparators (R436, R437) -/

/-- The first data comparator that a lane's access matches, with the lanes that match it. -/
def dataMatch (s : State) (c : Ctx) (rd wr : Bool) (size : Nat) (addr : Nat → Nat) : Option (Nat × Word) :=
  if c.w.supp then none
  else s.comps.findSome? fun k =>
    let base := (k.value.extractLsb' 0 64).toNat
    let sz := 2 ^ (k.value.extractLsb' 68 3).toNat
    let kind := (k.value.extractLsb' 66 2).toNat
    let admits := (kind == 1 && rd) || (kind == 2 && wr) || kind == 3
    if k.core == c.w.core && decide (8 ≤ k.idx) && k.value.getLsbD 64 && admits && base % sz == 0
        && (k.value.getLsbD 83 || k.value.extractLsb' 71 12 == BitVec.ofNat 12 c.w.asid) then
      let hit := maskOf fun l => lane (c.m &&& k.value.extractLsb' 96 32) l && decide (addr l < base + sz ∧ base < addr l + size)
      if hit != 0 then some (k.idx, hit) else none
    else none

/-- The debug stop of a data comparator match (R437): no lane is performed. -/
def dataStop (s : State) (c : Ctx) (k : Nat) (hit : Word) : Act :=
  .final ((compHit s c.w.core k).debugStop { c.w with waitCtr := 0 } 34 hit (k - 8) c.w.pc)

/-! ### Lane addresses and checks -/

/-- The lanes of a mask that fail their checks, and the cause and address of the lowest (R172), one that is only parked where
no other fails. -/
def lanesFailing (m : Word) (addr : Nat → Nat) (why : Nat → Option Nat) : Word × Nat × Nat :=
  let bad := maskOf fun l => lane m l && (why l).isSome
  let real := maskOf fun l => lane bad l && why l != some cPARK
  let low := lowLane (if real == 0 then bad else real)
  (bad, (why low).getD cPARK, addr low)

/-- The reads of the walks of failing lanes (R462). -/
def State.noteLanes (s : State) (asid size : Nat) (bad : Word) (addr : Nat → Nat) : State :=
  (laneList.filter fun l => lane bad l && decide (addr l < Config.vaEnd) && addr l % size == 0).foldl (fun s l => s.noteWalk asid (addr l)) s

def laneFaults (s : State) (asid : Nat) (m : Word) (size : Nat) (k : Want) (addr : Nat → Nat) : Word × Nat × Nat :=
  lanesFailing m addr fun l => s.laneCheck asid (addr l) size k

/-- Adds an access at the place of its id. -/
def putAccess (s : State) (a : Access) : State :=
  let pc := match s.wave? a.wid with | some w => w.pc | none => 0
  { s with accs := s.accs ++ [{ a with since := s.cc, pc := pc, fam := (s.node? a.node).bind (·.fam) }] }

/-- Adds an access with a fresh id. -/
def addAccess (s : State) (a : Access) : State :=
  let (id, s) := s.fresh
  putAccess s { a with id := id }

/-- The group an instruction's lanes land in: the one an earlier replay began, or a fresh one. -/
def groupOf (s : State) (w : Wave) : Nat × State :=
  match w.rp.bind (·.gid) with
  | some g => (g, s)
  | none => s.fresh

/-- Counts items as outstanding (R226). -/
def addOutst (s : State) (wid n : Nat) : State :=
  match s.wave? wid with | some w => s.setWave { w with outst := w.outst + n } | none => s

/-- Opens or updates a landing group and marks its destination empty (R38). -/
def openLanding (s : State) (w : Wave) (gid : Nat) (dest : LandDest) (load held : Bool) (vals : List (Nat × Nat)) : State :=
  let s := if s.lands.any fun l => l.gid == gid then
      { s with lands := modify (fun l => l.gid == gid) (fun l => { l with held := held, vals := l.vals ++ vals }) s.lands }
    else { s with lands := s.lands ++ [{ gid := gid, wid := w.wid, dest := dest, load := load, held := held, vals := vals }] }
  match dest, s.wave? w.wid with
  | .vec r n, some w => s.setWave (w.setFull r n false)
  | .regs rs, some w => s.setWave (rs.foldl (fun w r => w.setFull r 1 false) w)
  | _, _ => s

/-- The register value of a loaded element (R176). -/
def extend (ty v : Nat) : Nat :=
  match ty with
  | 1 => wrap 32 (sext 8 v)
  | 3 => wrap 32 (sext 16 v)
  | _ => v

/-- Registers of an element (R176). -/
def tyWords (ty : Nat) : Nat := match ty with | 5 => 2 | 6 => 4 | _ => 1

/-! ### Loads -/

/-- Whether a range touches a page that is never cached, in any of its pages. -/
def spanUncached (s : State) (asid va size : Nat) : Bool :=
  size != 0 && (List.range ((va + size - 1) / 8192 + 1 - va / 8192)).any fun i =>
    uncachedAt s asid (addr64 ((if i == 0 then va else (va / 8192 + i) * 8192 : Nat) : Int))

/-- Whether a load of a wave may be served from its core's copy, or performed at issue: no own access to its bytes is in flight or
queued, nor one to HOME 11 where some of it lies there (R186, R247), and every `lda` has returned (R180). -/
def mayHit (s : State) (w : Wave) (va size : Nat) : Bool :=
  let un := spanUncached s w.asid va size
  !(s.accs.any fun a => a.wid == w.wid && a.space == .glob && ((match a.kind with
      | .load acq _ _ => acq
      | _ => false)
    || (!a.cached && a.st == .issued && un)
    || a.ranges.any fun r => decide (r.1 < va + size ∧ va < r.1 + r.2)))
    && !streamHolds s w.wid w.asid s.nextId false (!un) va size
    && !arrayHolds s w.wid w.asid s.nextId false (!un) va size false

/-- Whether a channel failure parks a wave's read of n bytes (R461): one of its lines is neither in its core's L1 nor free to be read. -/
def readParked (s : State) (w : Wave) (va n : Nat) : Bool :=
  s.anyParked && (List.range (lineSpan va n)).any fun i =>
    let a := if i == 0 then va else (va / 128 + i) * 128
    !s.l1Own w.core w.asid a (s.specFam w.node) && (match s.lookup w.asid a .read with
      | some t => s.isParked t.pa
      | none => false)

/-- The cause of a wave's load, which its core's L1 may serve where `hits` (R14, R170, R171). -/
def loadCause (s : State) (w : Wave) (hits : Bool) (va size : Nat) : Option Nat :=
  if hits && mayHit s w va size then s.loadCheck w.core w.asid va size (s.specFam w.node) else s.laneCheck w.asid va size .read

/-- The value of an element in a line's data. -/
def lineVal (d : List Byte) (va size : Nat) : Nat := leNat ((d.drop (va % 128)).take size)

/-- Issues the global loads of a mask: hits are taken from L1, other lanes become accesses. -/
def issueLoads (s : State) (c : Ctx) (gid : Nat) (m : Word) (ty : Nat) (kind : AccKind) (hits : Bool) (scope : Nat)
    (addr : Nat → Nat) : State × List (Nat × Nat) :=
  let size := tySize ty
  let fam := s.specFam c.w.node
  (laneList.filter fun l => lane m l).foldl (fun (s, vs) l =>
    let va := addr l
    let hit := if hits && mayHit s c.w va size then s.l1Serves c.w.core c.w.asid va fam else none
    match hit with
    | some x => (s, vs ++ [(l, extend ty (lineVal (s.copyData c.w.asid x.line x.tr x.data) va size))])
    | none =>
      let cached := match s.lookup c.w.asid va .read with | some t => !t.uncached | none => true
      (addAccess s { id := 0, gid := gid, wid := c.w.wid, node := c.w.node, core := c.w.core, lane := l, kind := kind
                     space := .glob, scope := scope, asid := c.w.asid, addr := va, size := size, data := ty
                     cached := cached }, vs)) (s, [])

/-- A vector load of the global space (R172, R178 to R180). -/
def vectorLoad (c : Ctx) (s : State) (ty : Nat) (kind : AccKind) (hits : Bool) (scope : Nat) (addr : Nat → Nat) : Act :=
  let size := tySize ty
  match dataMatch s c true false size addr with
  | some (k, hit) => dataStop s c k hit
  | none =>
    let (bad, cause, fa) := lanesFailing c.m addr fun l => loadCause s c.w hits (addr l) size
    let (gid, s) := groupOf s c.w
    let (s, vs) := issueLoads s c gid (c.m &&& ~~~bad) ty kind hits scope addr
    match c.d with
    | some (.v r) =>
      let s := openLanding s c.w gid (.vec r (tyWords ty)) true (bad != 0) vs
      if bad != 0 then .replay (s.noteLanes c.w.asid size bad addr) cause fa bad bad (some gid) else .done s
    | _ => .done s

/-! ### Stores -/

/-- The data of a store's element: its registers, cut to the element's size (R183). -/
def storeData (c : Ctx) (ty l : Nat) : Nat :=
  (List.range (tyWords ty)).foldl (fun a i => a + (c.vd.w l i).toNat * 2 ^ (32 * i)) 0 % 2 ^ (8 * tySize ty)

/-- Issues the global stores of a mask. -/
def issueStores (s : State) (c : Ctx) (gid : Nat) (m : Word) (ty : Nat) (release : Bool) (scope : Nat) (addr : Nat → Nat) : State :=
  (laneList.filter fun l => lane m l).foldl (fun s l =>
    let cached := match s.lookup c.w.asid (addr l) .write with | some t => !t.uncached | none => true
    addAccess s { id := 0, gid := gid, wid := c.w.wid, node := c.w.node, core := c.w.core, lane := l, kind := .store release
                  space := .glob, scope := scope, asid := c.w.asid, addr := addr l, size := tySize ty
                  data := storeData c ty l, cached := cached, replayed := c.w.rp.isSome }) s

/-- A vector store of the global space (R172, R183, R184). -/
def vectorStore (c : Ctx) (s : State) (ty : Nat) (release : Bool) (scope : Nat) (addr : Nat → Nat) : Act :=
  let size := tySize ty
  match dataMatch s c false true size addr with
  | some (k, hit) => dataStop s c k hit
  | none =>
    let (bad, cause, fa) := laneFaults s c.w.asid c.m size .write addr
    let good := c.m &&& ~~~bad
    if outstFull c.w (maskCount good) then .wait
    else
      let (gid, s) := groupOf s c.w
      let s := addOutst (issueStores s c gid good ty release scope addr) c.w.wid (maskCount good)
      if bad != 0 then .replay (s.noteLanes c.w.asid size bad addr) cause fa bad bad (some gid) else .done s

/-! ### Scratchpad lanes (R196 to R199) -/

/-- The lanes of a mask whose targets lie in range; the others enter the wave's range mask. -/
def spLanes (s : State) (c : Ctx) (loc : Bool) (size : Nat) (addr : Nat → Nat) : Word :=
  maskOf fun l => lane c.m l && (spTarget s c.w loc (addr l) size).isSome

def noteRange (s : State) (wid : Nat) (bad : Word) : State :=
  match s.wave? wid with | some w => s.setWave { w with range := w.range ||| bad } | none => s

/-- Issues the scratchpad accesses of a mask, each with what its lane gives it. -/
def issueSpad (s : State) (c : Ctx) (gid : Nat) (m : Word) (loc : Bool) (size : Nat) (kind : Nat → AccKind) (data : Nat → Nat)
    (addr : Nat → Nat) : State :=
  (laneList.filter fun l => lane m l).foldl (fun s l => match spTarget s c.w loc (addr l) size with
    | some (core, off) => addAccess s { id := 0, gid := gid, wid := c.w.wid, node := c.w.node, core := c.w.core, lane := l
                                        kind := kind l, space := .spad core, asid := c.w.asid, addr := off, size := size
                                        data := data l }
    | none => s) s

def spLoad (c : Ctx) (s : State) (loc : Bool) (ty : Nat) (addr : Nat → Nat) : Act :=
  let size := tySize ty
  let good := spLanes s c loc size addr
  let s := noteRange s c.w.wid (c.m &&& ~~~good)
  let (gid, s) := s.fresh
  let s := issueSpad s c gid good loc size (fun _ => .load false false false) (fun _ => ty) addr
  match c.d with
  | some (.v r) => .done (openLanding s c.w gid (.vec r (tyWords ty)) true false [])
  | _ => .done s

def spStore (c : Ctx) (s : State) (loc : Bool) (ty : Nat) (addr : Nat → Nat) : Act :=
  let size := tySize ty
  let good := spLanes s c loc size addr
  if outstFull c.w (maskCount good) then .wait
  else
    let s := noteRange s c.w.wid (c.m &&& ~~~good)
    let (gid, s) := s.fresh
    let s := issueSpad s c gid good loc size (fun _ => .store false) (storeData c ty) addr
    .done (addOutst s c.w.wid (maskCount good))

end Sys2Proof.Machine
end

