-- ==== Sys2Proof/Machine/Streams.lean ====
section
/-! DEFINITION. Operand streams: `astr`, `astw`, `aend` and the wind-up engine's reads and stores (R187 to R192). -/

namespace Sys2Proof.Machine

/-! ### Shared units in order (R95) -/

/-- The names of the shared units whose wait is a block on a functional unit (R95). -/
def unitStreams (core quad : Nat) : Nat := core * 4 + quad
def unitBank (wid : Nat) : Nat := 1000000 + wid
def unitReduce (stack : Nat) : Nat := 2000 + stack
def unitRays (asid : Nat) : Nat := 10000 + asid

/-- Whether a wave that waits for a unit can take it: it stands in an active bank, as a swapped-out wave does not. -/
def unitLive (s : State) (x : UnitWait) : Bool :=
  match s.wave? x.wid with | some w => !w.spilled && w.bank == activeBank s w.core w.quad | none => false

/-- Whether a wave's request reached its unit before another's: by the cycle, then the older age stamp (R95). -/
def unitBefore (s : State) (x y : UnitWait) : Bool :=
  let key (u : UnitWait) : List Nat := match s.wave? u.wid with | some w => [u.at_, w.age, w.ageSub, w.idx, w.slot] | none => [u.at_]
  decide (key x < key y)

/-- The first in a unit's order of the waves that can take it. -/
def unitFirst (s : State) (u : Nat) : Option UnitWait :=
  (s.unitQ.filter fun x => x.unit == u && unitLive s x).foldl (fun best x => match best with
    | none => some x
    | some b => if unitBefore s x b then some x else some b) none

/-- Whether a wave is the first in a unit's order, or the order is empty. -/
def unitTurn (s : State) (u wid : Nat) : Bool :=
  match unitFirst s u with | some x => x.wid == wid | none => true

/-- Whether a datapath unit is occupied now (R117, R136). -/
def unitBusy (s : State) (u : Nat) : Bool := s.units.any fun x => x.unit == u && decide (s.cc < x.until_)

/-- Takes a place in a unit's order. -/
def unitWait (s : State) (u wid : Nat) : State :=
  if s.unitQ.any fun x => x.unit == u && x.wid == wid then s
  else { s with unitQ := s.unitQ ++ [{ unit := u, wid := wid, at_ := s.cc }] }

/-- Leaves a unit's order once the instruction issues. -/
def unitLeave (s : State) (u wid : Nat) : State :=
  { s with unitQ := s.unitQ.filter fun x => !(x.unit == u && x.wid == wid) }

/-! ### Binding and ending (R187, R191) -/

/-- Queue contexts of a quadrant in use: streams that the waves of its active bank have not ended (R191). -/
def streamsUsed (s : State) (w : Wave) : Nat :=
  (s.streams.filter fun t => match s.wave? t.wid with
    | some v => !t.ended && v.core == w.core && v.quad == w.quad && v.bank == w.bank && !v.spilled
    | none => false).length

/-- The descriptor of 2L scalar registers (R187): counts and signed strides. -/
def streamDims (w : Wave) (n levels : Nat) : List (Nat × Int) :=
  (List.range levels).map fun j => ((w.sr (n + 2 * j)).toNat, (w.sr (n + 2 * j + 1)).toInt)

/-- The stream that `astr` or `astw` binds to a queue, with its descriptor in the scalar registers from n (R187). -/
def streamOf (c : Ctx) (write : Bool) (qn n sid : Nat) : Stream :=
  let dims := streamDims c.w n (c.f.m 5 4 + 1)
  { sid := sid, wid := c.w.wid, qn := qn, write := write, sp := c.f.m 3 3 == 1, ty := tyF c.f
    base := if c.f.m 3 3 == 1 then (c.va.scalar).toNat else c.va.scalar64, dims := dims
    total := dims.foldl (fun a d => a * d.1) 1 }

/-- `astr` and `astw` (R187). -/
def bindStream (i : Instr) (f : Fields) (s : State) (write : Bool) : Host.Outcome State Fault Refusal :=
  issue i f s fun c s =>
    match c.d, c.b with
    | some (.q qn), some (.s n) =>
      let t := streamOf c write qn n s.nextId
      let size := tySize t.ty
      let u := unitStreams c.w.core c.w.quad
      if (c.w.q.getD qn none).isSome || t.base % size != 0 || t.dims.any (fun d => d.2 % (size : Int) != 0)
          || (write && t.sp && c.node.launch.scratch == 0) then .illopnd
      else if streamsUsed s c.w ≥ Config.queueContexts || !unitTurn s u c.w.wid then .queue (unitWait s u c.w.wid)
      else
        let s := { unitLeave s u c.w.wid with nextId := s.nextId + 1, streams := s.streams ++ [t] }
        let w := c.wave s
        .done (s.setWave { w with q := w.q.set qn (some t.sid) })
    | _, _ => .illopnd

def execAstr (f : Fields) (s : State) : Host.Outcome State Fault Refusal := bindStream (.astr f) f s false
def execAstw (f : Fields) (s : State) : Host.Outcome State Fault Refusal := bindStream (.astw f) f s true

/-- R191; an undelivered fault of the array queue or of the stream comes first (R190, R296). -/
def execAend (f : Fields) (s : State) : Host.Outcome State Fault Refusal :=
  issue (.aend f) f s fun c s => withDelivery c s true false <|
    match c.a with
    | some (.q qn) => match (c.w.q.getD qn none).bind s.stream? with
      | none => .done s
      | some t => if t.again then .wait else match t.stopped, t.entries.head? with
        | true, some e => streamFault s c.w t e
        | _, _ =>
          let s := endStream (s.setStream { t with mixed := t.mixed || arrayReads s t.sid }) t.sid
          let w := c.wave s
          .done (s.setWave { w with q := w.q.set qn none })
    | _ => .done s

/-! ### The engine's reads (R189) -/

/-- An ordinary load performed now: from the core's copy within its lease, else at the home with a fresh lease. -/
def loadNow (s : State) (core asid va size : Nat) (fam : Option Nat) (t : Trans) : Nat × State :=
  match if t.uncached then none else s.l1Serves core asid va fam with
  | some x => (lineVal (s.copyData asid x.line x.tr x.data) va size, s)
  | none =>
    if t.home == 3 then (s.readVal asid none va t size, (s.noteWalk asid va).reach asid va t)
    else
      let s := (s.leaveCluster (some (dieOf core)) asid va).ensureLine asid va t
      let v := s.readVal asid fam va t size
      (v, if t.uncached || t.home == 1 then s else s.grantL1 core asid va fam t)

/-- An ordinary load of n bytes of a wave that is performed now, with elements of a size, or the cause of its fault: a copy that serves it asks for no translation (R14,
R169, R170). -/
def loadAt (s : State) (w : Wave) (va size n : Nat) : Except Nat (Nat × State) :=
  let fam := s.specFam w.node
  match s.loadCheck w.core w.asid va size fam with
  | some cause => .error cause
  | none => match if s.l1Own w.core w.asid va fam then s.l1? w.core w.asid (va / 128) else none with
    | some x => .ok (lineVal (s.copyData w.asid x.line x.tr x.data) va n, s)
    | none => match s.lookup w.asid va .read with
      | some tr => .ok (loadNow s w.core w.asid va n fam tr)
      | none => .error cNOTMAPPED

/-- Reads the lanes of a mask of an entry whose first element is i0; the lanes that fail stay in the entry's mask. -/
def fetchLanes (s : State) (t : Stream) (w : Wave) (i0 : Nat) (todo : Word) (e : QEntry) : State × QEntry :=
  let size := tySize t.ty
  (laneList.filter fun l => lane todo l && decide (i0 + l < t.total)).foldl (fun (s, e) l =>
    let va := streamAddr t (i0 + l)
    if t.sp then
      match spTarget s w true va size with
      | some (core, off) => (s, { e with vals := e.vals.set l (extend t.ty (spRead s w.node core off size)) })
      | none => (s, { e with range := e.range ||| maskOf (· == l) })
    else match loadAt s w va size size with
      | .error cause =>
        (s.noteFault w.asid cause va,
          { e with mask := e.mask ||| maskOf (· == l)
                   addr := if e.mask == 0 then BitVec.ofNat 64 va else e.addr, cause := if e.mask == 0 then cause else e.cause })
      | .ok (v, s) => (s, { e with vals := e.vals.set l (extend t.ty v) })) (s, e)

/-- Whether a load stream has room and elements for another entry. -/
def canFetch (t : Stream) : Bool := !t.write && decide (t.next < t.total) && decide (t.entries.length < queueCap t.ty)

/-- Whether an own access that is earlier than a stream holds back the read of one of its elements: any access to a common
scratchpad (R200), an `lda` that has not returned (R180), one to the element's bytes, or one at HOME 11 where the element
lies there (R186). -/
def heldBy (s : State) (t : Stream) (w : Wave) (va size : Nat) (a : Access) : Bool :=
  let uncached := uncachedAt s w.asid va
  a.wid == t.wid && decide (a.id < t.sid) &&
    (if t.sp then a.onSpad w.core && a.st == .issued
     else a.space == .glob && ((match a.kind with | .load acq _ _ => acq | _ => false)
       || (!a.cached && uncached && a.st == .issued)
       || a.ranges.any fun r => decide (r.1 < va + size ∧ va < r.1 + r.2)))

/-- Whether earlier accesses of the wave hold back the reads of a stream's next entry (R180, R186, R200). -/
def fetchHeld (s : State) (t : Stream) (w : Wave) : Bool :=
  (laneList.filter fun l => decide (t.next + l < t.total)).any fun l =>
    let va := streamAddr t (t.next + l)
    let size := tySize t.ty
    let cached := t.sp || !uncachedAt s w.asid va
    (s.accs.any (heldBy s t w va size)) || streamHolds s t.wid w.asid t.sid t.sp cached va size
      || arrayHolds s t.wid w.asid t.sid t.sp cached va size false

/-- Whether a wave stands in an active bank, where a release of its Replay takes effect (R94, R201). -/
def returned (s : State) (w : Wave) : Bool := !w.spilled && w.bank == activeBank s w.core w.quad

/-- The faulting elements of the entries whose wave has been released are read again (R189). -/
def refetch (s : State) (t : Stream) (w : Wave) : State :=
  let first := t.next - 32 * t.entries.length
  let (s, es) := (t.entries.zipIdx).foldl (fun (s, es) (e, k) =>
    if e.again then
      let (s, e') := fetchLanes s t w (first + 32 * k) e.mask { e with mask := 0, again := false }
      (s, es ++ [e'])
    else (s, es ++ [e])) (s, [])
  s.setStream { t with entries := es }

/-- The next queue entry of a load stream is read, after those that a release has it read again (R188, R189). -/
def execStreamFetch (stream : Nat) (s : State) : Host.Outcome State Fault Refusal :=
  match s.stream? stream with
  | some t => match s.wave? t.wid with
    | some w =>
      if t.entries.any (·.again) then .next (if !s.anyParked && ctxRuns s w.asid && returned s w then refetch s t w else s)
      else if canFetch t && !s.anyParked && ctxRuns s w.asid && !w.spilled && !fetchHeld s t w then
        let (s, e) := fetchLanes s t w t.next allLanes { vals := List.replicate 32 0 }
        .next (s.setStream { t with next := t.next + 32, entries := t.entries ++ [e] })
      else .next s
    | none => .next s
  | none => .next s

/-! ### The engine's stores (R190) -/

/-- Stores the elements of the oldest pushed entry; the lanes that fail stop the stream (R190). -/
def storeEntry (s : State) (t : Stream) (w : Wave) : State :=
  match t.entries with
  | [] => s
  | e :: rest =>
    let size := tySize t.ty
    let addr (l : Nat) := streamAddr t (t.stored + l)
    let bad := if t.sp then 0 else maskOf fun l => lane e.mask l && (s.laneCheck w.asid (addr l) size .write).isSome
    let (gid, s) := s.fresh
    let s := (laneList.filter fun l => lane e.mask l && !lane bad l).foldl (fun s l =>
      let data := e.vals.getD l 0 % 2 ^ (8 * size)
      let a : Access := { id := e.id + l, gid := gid, wid := w.wid, node := w.node, core := w.core, lane := l, kind := .store false
                          space := .glob, asid := w.asid, addr := addr l, size := size, data := data, sid := some t.sid }
      if t.sp then
        match spTarget s w true (addr l) size with
        | some (core, off) => putAccess s { a with space := .spad core, addr := off }
        | none =>
          let s := noteRange s w.wid (maskOf (· == l))
          match s.wave? w.wid with | some w => s.setWave { w with outst := w.outst - 1 } | none => s
      else
        let cached := match s.lookup w.asid (addr l) .write with | some tr => !tr.uncached | none => true
        putAccess s { a with cached := cached }) s
    if bad == 0 then
      if rest.isEmpty && t.ended then { s with streams := s.streams.filter fun x => x.sid != t.sid }
      else s.setStream { t with entries := rest, stored := t.stored + 32, stopped := false, told := false, count := 0 }
    else
      let low := lowLane bad
      let cause := (s.laneCheck w.asid (addr low) size .write).getD 0
      let s := s.noteLanes w.asid size bad addr
      if w.st == .halting then
        let s := haltingFault s w { code := codeOf cause, cause := cause, addr := addr low, mask := bad }
        let s := match s.wave? w.wid with | some w => s.setWave { w with outst := w.outst - maskCount bad } | none => s
        if rest.isEmpty then { s with streams := s.streams.filter fun x => x.sid != t.sid }
        else s.setStream { t with entries := rest, stored := t.stored + 32 }
      else s.setStream { t with stopped := true, told := false
                                entries := { e with mask := bad, cause := cause, addr := BitVec.ofNat 64 (addr low) } :: rest }

def execStreamStore (stream : Nat) (s : State) : Host.Outcome State Fault Refusal :=
  match s.stream? stream with
  | some t => match s.wave? t.wid with
    | some w =>
      if !t.write || t.entries.isEmpty || s.anyParked then .next s
      else if t.again then .next (if returned s w then storeEntry s { t with stopped := false, again := false, count := t.count + 1 } w else s)
      else .next (if t.stopped then s else storeEntry s t w)
    | none => .next s
  | none => .next s

/-! ### Releases and ends of a Replay (R173, R189, R190) -/

/-- A release of a wave's Replay: what it was told of is read or stored again once the wave is back (R94, R201). -/
def redoStreams (s : State) (wid : Nat) : State :=
  let entry (t : Stream) (x : QEntry × Nat) : QEntry :=
    if x.1.told || (t.toldAt.contains x.2 && x.1.mask != 0) then { x.1 with told := false, again := true } else x.1
  let redo (t : Stream) : Stream :=
    { t with entries := t.entries.zipIdx.map (entry t), toldAt := [], again := t.again || (t.write && t.stopped && t.told), told := false }
  { s with streams := modify (·.wid == wid) redo s.streams }

/-- A Replay that ends in a trap: the wave has taken the faults it was told of, the lanes of a store stream that failed are discarded,
and their stream goes on (log entry 14). -/
def endStreams (s : State) (wid : Nat) : State :=
  let entry (e : QEntry) : QEntry := { e with told := false }
  let taken (t : Stream) : Stream := { t with entries := t.entries.map entry, toldAt := [] }
  let s := { s with streams := modify (·.wid == wid) taken s.streams }
  (s.streams.filter fun t => t.wid == wid && t.write && t.stopped && t.told).foldl discardEntry s

end Sys2Proof.Machine
end

