-- ==== Sys2Proof/Machine/Array.lean ====
section
/-! DEFINITION. The array command queue: the queue view, the performing of commands, and the array's events (R254 to
R257, R267, R270, R278, R282 to R296). -/

namespace Sys2Proof.Machine

/-! ### Accumulators -/

/-- The key of an accumulator: units are 8 keys wide (R287). -/
def accKey (f32 : Bool) (i : Nat) : Nat := if f32 then i else 8 * i

def accGet (a : ArrayBank) (key : Nat) : Accum :=
  match a.accs.find? fun x => x.1 == key with | some x => x.2 | none => {}

def accSet (l : List (Nat × Accum)) (key : Nat) (v : Accum) : List (Nat × Accum) :=
  if l.any fun x => x.1 == key then l.map fun x => if x.1 == key then (key, v) else x else l ++ [(key, v)]

/-- The units of a range of accumulators. -/
def unitsOf (f32 : Bool) (first count : Nat) : List Nat :=
  if count == 0 then []
  else if f32 then (List.range ((first + count - 1) / 8 + 1 - first / 8)).map fun i => first / 8 + i
  else (List.range count).map fun i => first + i

/-- Whether accumulators lie in the grant (R256). -/
def inGrant (a : ArrayBank) (f32 : Bool) (first count : Nat) : Bool :=
  decide (first + count ≤ (if f32 then 4096 else 512) * a.grant)

/-! ### The queue view (R278) -/

def viewCfg (a : ArrayBank) : Option Nat :=
  a.queue.foldl (fun c h => match h.op with | .cfg => some h.cfg | _ => c) a.cfg

/-- The tag an `mlds` gives its plane. -/
def ldsTag (c : ArrCfg) (j : Nat) : Plane := { loaded := true, bf := c.bf, bmx := c.bmx, s := c.s, sparse := c.sparse, j := j }

/-- Active and shadow planes in the queue view; only tags are looked at. -/
def viewPlanes (a : ArrayBank) : Plane × Plane :=
  a.queue.foldl (fun p h => match h.op with
    | .lds _ _ j _ _ => (p.1, ldsTag (arrCfg h.cfg) j)
    | .swp => (p.2, p.1)
    | _ => p) (a.active, a.shadow)

/-- The FP32 units after a command. -/
def f32After (l : List Nat) : ArrOp → List Nat
  | .clr f32 _ first count _ =>
    let us := unitsOf f32 first count
    let rest := l.filter fun u => !us.contains u
    if f32 then us ++ rest else rest
  | _ => l

def viewF32 (a : ArrayBank) : List Nat := a.queue.foldl (fun l h => f32After l h.op) a.f32

/-- R288. -/
def accsOk (a : ArrayBank) (c : ArrCfg) (base rows rs n : Nat) : Bool :=
  let l := viewF32 a
  !(c.f32 && c.s > 1) && (List.range rows).all fun m =>
    inGrant a c.f32 (base + m * rs) n && (unitsOf c.f32 (base + m * rs) n).all fun u => l.contains u == c.f32

/-- Whether a stream names an accumulator. -/
def strNames (f32 : Bool) (base rows rs key : Nat) : Bool :=
  (List.range rows).any fun m =>
    let lo := accKey f32 (base + m * rs)
    decide (lo ≤ key ∧ key < lo + accKey f32 128) && (f32 || key % 8 == 0)

/-- The opener of an accumulator in the queue view: a queued stream opens accumulators of its own kind (R267, R270). -/
def viewOpener (a : ArrayBank) (key : Nat) : Option Nat :=
  a.queue.foldl (fun o h => match h.op with
    | .clr k _ first count _ => if (unitsOf k first count).contains (key / 8) then none else o
    | .str _ base _ rows rs _ _ _ => if o.isNone && strNames (arrCfg h.cfg).f32 base rows rs key then some h.wid else o
    | _ => o) (accGet a key).opener

/-! ### Reading bytes -/

/-- The pieces of n bytes from an address that lie in one line each. -/
def linePieces (va n : Nat) : List (Nat × Nat) :=
  (List.range (lineSpan va n)).map fun i =>
    let lo := if i == 0 then va else (va / 128 + i) * 128
    (lo, min (va + n) ((va / 128 + i + 1) * 128) - lo)

/-- n bytes of global memory read as ordinary loads of a wave (R169, R285), or the cause and address of a fault. -/
def arrGlobal (s : State) (w : Wave) (va n : Nat) : Except (Nat × Nat) (List Byte × State) :=
  (linePieces va n).foldlM (fun (bs, s) (pa : Nat × Nat) =>
    let a := addr64 pa.1
    match loadAt s w a 1 pa.2 with
    | .error cause => .error (cause, a)
    | .ok (v, s) => .ok (bs ++ leBytes pa.2 v, s)) ([], s)

/-- n bytes of the wave's scratchpad in elements of a size; bytes out of range, and elements not at a multiple of their
size, read as zero and set its whole range mask (R199, R285, R299). -/
def arrLocal (s : State) (w : Wave) (off n size : Nat) : List Byte × State :=
  let target (i : Nat) :=
    if addr32 (off : Int) % size != 0 then none else spTarget s w true (addr32 ((off + i : Nat) : Int)) 1
  let bs := (List.range n).map fun i => match target i with
    | some (core, o) => BitVec.ofNat 8 (spRead s w.node core o 1)
    | none => 0#8
  let bad := (List.range n).any fun i => (target i).isNone
  (bs, if bad then noteRange s w.wid allLanes else s)

/-- Bytes of an element of a code; those of less than a byte are packed into bytes (R68, R75). -/
def elemBytes (code : Nat) : Nat := match fmtOf code with | some g => max 1 (g.bits / 8) | none => if code == 15 then 4 else 1

def arrRead (s : State) (w : Wave) (sp : Bool) (a n size : Nat) : Except (Nat × Nat) (List Byte × State) :=
  if sp then .ok (arrLocal s w a n size) else arrGlobal s w a n

/-- TERN of a reserved `.t3` code in a slice (R75, R276). -/
def noteTern (s : State) (wid : Nat) (b : Bool) : State :=
  match b, s.wave? wid with
  | true, some w => s.setWave { w with fpflags := w.fpflags ||| BitVec.ofNat 32 fTERN }
  | _, _ => s

/-- The 128 columns of an `mlds`. -/
def readCols (s : State) (w : Wave) (c : ArrCfg) (sp img : Bool) (j base pitch : Nat) :
    Except (Nat × Nat) (List PlaneCol × State) :=
  let n := if img then imgBytes c else recBytesB c
  (List.range 128).foldlM (fun (cols, s) k => do
    let (bs, s) ← arrRead s w sp (base + k * pitch) n (if img then 1 else elemBytes c.bf)
    let col := if img then imgCol c bs else rawCol c j bs
    .ok (cols ++ [col], noteTern s w.wid (!img && hasTern c.bf 128 bs))) ([], s)

/-! ### Order with the wave's own accesses (R295) -/

/-- Whether earlier accesses of the issuing wave hold a command back: any that is not performed on a common scratchpad (R200), and in
global memory one in flight to its bytes (R186, R247), one at HOME 11 where the command lies there too (R186), or an `lda` before a
reading command (R180). -/
def ownBusy (s : State) (a : ArrayBank) (h : ArrCmd) : Bool :=
  let (rs, sp, hw) := cmdRanges h
  let asid := match s.wave? h.wid with | some w => w.asid | none => 0
  let un := !sp && rs.any (rangeUncached s asid)
  (!rs.isEmpty && s.accs.any fun x => x.wid == h.wid && decide (x.id < h.id)
    && (if sp then x.onSpad a.core && x.st == .issued
      else (x.pieces.any fun p => p.space == .glob && rs.any fun r => decide (r.1 < p.addr + p.size ∧ p.addr < r.1 + r.2))
        || (un && x.space == .glob && !x.cached && x.st == .issued)
        || (!hw && (match x.kind with | .load acq _ _ => acq | _ => false))))
    || rs.any fun r => streamHolds s h.wid asid h.id sp (!un) r.1 r.2

/-! ### Performing commands -/

/-- `mclr` (R287). -/
def performClr (a : ArrayBank) (f32 anc : Bool) (first count : Nat) (anchor : Int) : ArrayBank :=
  let us := unitsOf f32 first count
  let accs := a.accs.filter fun x => !us.contains (x.1 / 8)
  { a with f32 := f32After a.f32 (.clr f32 anc first count anchor)
           accs := if anc then accs ++ us.map fun u => (8 * u, { opened := true, alpha := anchor }) else accs }

/-- `mrd`: lane values and flags (R291). -/
def performRd (a : ArrayBank) (c : ArrCfg) (base rm : Nat) : List (Nat × Nat) × Flags × ArrayBank :=
  let bits := 8 * outBytes c.outf
  let p := if bits < 32 then 32 / bits else 1
  let acc (i : Nat) := accGet a (accKey c.f32 (base + i))
  let outs (l : Nat) := (List.range p).map fun k => accOut c.outf rm c.f32 (acc (p * l + k))
  let vals := laneList.map fun l => (l, ((outs l).zipIdx).foldl (fun v ok => v + ok.1.1 * 2 ^ (bits * ok.2)) 0)
  let fl := laneList.foldl (fun f l => (outs l).foldl (fun f o => f ||| o.2) f) 0
  (vals, fl, { a with mbound := mboundNext a.mbound ((List.range (32 * p)).map acc) })

/-- The outputs of row m of an `mst` with their flags (R292). -/
def stRow (a : ArrayBank) (c : ArrCfg) (rm : Nat) (sr : Bool) (base rs m : Nat) : List (Nat × Flags) :=
  let acc (n : Nat) := accGet a (accKey c.f32 (base + m * rs + n))
  if sr then
    match fmtOf c.outf with
    | none => []
    | some g =>
      let v (n : Nat) : FV := if (acc n).special then .nan false else
        let x := (acc n).value c.f32
        if x.isZero then .fin false 0 0 else x
      let d := (List.range 128).map fun n => srDiscard g (v n)
      (List.range 128).map fun n =>
        let (r, fl) := srResult g false (v n) (srAway d n (BitVec.ofNat 32 (128 * m + n)))
        (r, fl ||| flagIf (acc n).special fNV)
  else (List.range 128).map fun n => accOut c.outf rm c.f32 (acc n)

/-- One store item of an `mst`: the elements of row m that start in one line. -/
def stPiece (s : State) (w : Wave) (sp : Bool) (addr size : Nat) (row : List (Nat × Flags)) (piece : Nat × Nat) :
    List (Nat × Byte) × State :=
  let n0 := (piece.1 - addr) / size
  (List.range (piece.2 / size)).foldl (fun (bs, s) k =>
    let a := if sp then addr32 ((piece.1 + k * size : Nat) : Int) else addr64 ((piece.1 + k * size : Nat) : Int)
    let v := (row.getD (n0 + k) (0, 0)).1
    let cells := ((List.range size).zip (leBytes size v)).map fun ib => (a + ib.1, ib.2)
    if sp then
      match spTarget s w true a size with
      | some (_, o) => (bs ++ cells.map fun x => (x.1 - a + o, x.2), s)
      | none => (bs, noteRange s w.wid allLanes)
    else (bs ++ cells, s)) ([], s)

/-- Sends the store items of an `mst` from the first unsent one; a page or protection fault stops there (R292, R296). -/
def sendStores (s : State) (a : ArrayBank) (h : ArrCmd) (w : Wave) (c : ArrCfg) (rm : Nat) (sr sp : Bool)
    (dst base pitch rows rs : Nat) : Nat × Option (Nat × Nat) × State :=
  let size := outBytes c.outf
  let fl := (List.range rows).foldl (fun f m => (stRow a c rm sr base rs m).foldl (fun f o => f ||| o.2) f) 0
  let items := (List.range rows).flatMap fun m => (linePieces (dst + m * pitch) (128 * size)).map fun p => (m, p)
  (items.zipIdx).foldl (fun (sent, stop, s) ((m, p), k) =>
    if stop.isSome || decide (k < h.sent) then (sent, stop, s)
    else
      let fault := if sp then none else s.laneCheck w.asid (addr64 p.1) 1 .write
      match fault with
      | some cause => (sent, some (cause, addr64 p.1), s)
      | none =>
        let (bytes, s) := stPiece s w sp (dst + m * pitch) size (stRow a c rm sr base rs m) p
        match bytes with
        | [] => (sent + 1, none, lessOutst s w.wid 1)
        | (lo, _) :: _ =>
          let cached := match s.lookup w.asid lo .write with | some t => !t.uncached | none => true
          let x : Access := { id := h.id + 1 + k, gid := h.id, wid := w.wid, node := w.node, core := w.core, lane := 0
                              kind := .line size bytes, space := if sp then .spad w.core else .glob, asid := w.asid, addr := lo
                              size := (bytes.getLast?.getD (lo, 0)).1 + 1 - lo, flags := fl, since := s.cc, fam := (s.node? w.node).bind (·.fam)
                              cached := sp || cached }
          (sent + 1, none, { s with accs := s.accs ++ [x] })) (h.sent, none, s)

/-- Replaces the head command of an array's queue. -/
def setHead (a : ArrayBank) (h : ArrCmd) : ArrayBank := { a with queue := h :: a.queue.drop 1 }

/-- An array stops at its head command (R296); the fault of a wave that is Halting already is reported at once, and the
command is not performed (R116). Repeats are counted for the access that faults: another one starts at 0 (R173). -/
def stopArray (s : State) (a : ArrayBank) (d : Deferred) : State :=
  let a := { a with fault := some d, again := false, count := if a.fkey == some d.addr then a.count else 0, fkey := some d.addr }
  match a.queue.head?, a.queue.head?.bind fun h => s.wave? h.wid with
  | some h, some w =>
    let s := s.noteFault w.asid d.cause d.addr
    if w.st == .halting then discardCmd (haltingFault s w d 3) a h else s.setArray a
  | _, _ => s.setArray a

/-- Performs or starts the head command of an array (R294). -/
def startCmd (s : State) (a : ArrayBank) (h : ArrCmd) (w : Wave) : State :=
  let c := arrCfg h.cfg
  match h.op with
  | .cfg => popCmd s { a with cfg := some h.cfg }
  | .swp => popCmd s { a with active := a.shadow, shadow := a.active }
  | .clr f32 anc first count anchor => popCmd s (performClr a f32 anc first count anchor)
  | .lds sp img j base pitch => match readCols s w c sp img j base pitch with
    | .error (cause, addr) => stopArray s a { code := codeOf cause, cause := cause, addr := addr, mask := allLanes }
    | .ok (cols, s) =>
      s.setArray { setHead a { h with started := true } with loading := some { ldsTag c j with cols := cols }, again := false }
  | .str _ _ _ _ _ _ _ _ => s.setArray (setHead a { h with started := true })
  | .rd gid base rm =>
    let (vals, fl, a) := performRd a c base rm
    let land (l : Landing) : Landing := { l with ready := true, vals := vals, flags := fl }
    popCmd { s with lands := modify (fun l => l.gid == gid) land s.lands } a
  | .st rm sr sp dst base pitch rows rs =>
    let (sent, stop, s) := sendStores s a h w c rm sr sp dst base pitch rows rs
    match stop with
    | some (cause, addr) =>
      stopArray s (setHead a { h with sent := sent }) { code := codeOf cause, cause := cause, addr := addr, mask := allLanes }
    | none =>
      let accs := (List.range rows).flatMap fun m => (List.range 128).map fun n => accGet a (accKey c.f32 (base + m * rs + n))
      let s := if s.accs.any fun x => x.gid == h.id then s else
        let fl := (List.range rows).foldl (fun f m => (stRow a c rm sr base rs m).foldl (fun f o => f ||| o.2) f) 0
        match s.wave? h.wid with
        | some w => s.setWave { w with fpflags := w.fpflags ||| BitVec.ofNat 32 fl }
        | none => s
      popCmd s { a with mbound := mboundNext a.mbound accs }

/-- Whether the array may start its head command: its core has not failed, its bank is active, it is not stopped, and the wave's own
earlier accesses to the command's bytes have been performed (R257, R294 to R296, R434). -/
def canStart (s : State) (a : ArrayBank) (h : ArrCmd) : Bool :=
  !h.started && a.fault.isNone && !s.deadCores.contains a.core && a.bank == activeBank s a.core a.quad && !ownBusy s a h && !s.anyParked
    && (match s.wave? h.wid with | some w => ctxRuns s w.asid && !w.spilled | none => false)

/-- The array starts its next command. -/
def execArrayCommandStart (core quad bank : Nat) (s : State) : Host.Outcome State Fault Refusal :=
  match s.array? core quad bank with
  | some a => match a.queue with
    | h :: _ => match s.wave? h.wid with
      | some w => if canStart s a h then .next (startCmd s a h w) else .next s
      | none => .next s
    | [] => .next s
  | none => .next s

/-- On a release the array repeats the reads or stores that faulted, once its bank is active again (R201, R296). -/
def resumeArray (s : State) (a : ArrayBank) (h : ArrCmd) : State :=
  let head (l : List QEntry) : List QEntry := match l with | e :: es => { e with again := true } :: es | [] => []
  let s := match faultSid s h with
    | some sid => { s with streams := modify (fun t => t.sid == sid) (fun t => { t with entries := head t.entries }) s.streams }
    | none => s
  s.setArray { a with fault := none, again := true }

/-- The shadow plane has been loaded and takes its tag (R285). -/
def execPlaneLoadComplete (core quad bank : Nat) (s : State) : Host.Outcome State Fault Refusal :=
  match s.array? core quad bank with
  | some a => match a.loading with
    | some p => .next (popCmd s { a with shadow := p })
    | none => .next s
  | none => .next s

/-! ### Streaming rows (R289, R290) -/

/-- What a row's source gives. -/
inductive RowIn where
  | wait (h : ArrCmd) (s : State)
  | stop (d : Deferred) (h : ArrCmd) (s : State)
  | row (bs scales : List Byte) (h : ArrCmd) (s : State)

/-- The bytes of popped entries: lane l holds bytes 4l to 4l + 3, or 8l to 8l + 7. -/
def entryBytes (ty : Nat) (e : QEntry) : List Byte := e.vals.flatMap fun v => leBytes (if ty == 5 then 8 else 4) v

/-- How a pop for the array ends. -/
inductive PopEnd where
  | got
  | wait
  | stop (d : Deferred)

/-- Pops k entries of a stream for the array, each as soon as it is there, after the bytes popped before (R191, R289); elements that
lay out of range enter the wave's range mask (R189, R299). -/
def popRows (sid : Nat) : Nat → List Byte → State → PopEnd × List Byte × State
  | 0, bs, s => (.got, bs, s)
  | k + 1, bs, s => match s.stream? sid with
    | none => (.wait, bs, s)
    | some t => match t.entries with
      | [] => (if t.next ≥ t.total then .stop { code := kILLOPND } else .wait, bs, s)
      | e :: rest =>
        if e.again then (.wait, bs, s)
        else if e.mask != 0 then (.stop { code := codeOf e.cause, cause := e.cause, addr := e.addr.toNat, mask := e.mask }, bs, s)
        else
          let s := noteRange (s.setStream { t with entries := rest }) t.wid e.range
          let (d, s) := if t.mixed then freeBytes s (if t.ty == 5 then 256 else 128) else (entryBytes t.ty e, s)
          popRows sid k (bs ++ d) s

/-- Bytes of an entry of a stream (R289). -/
def entrySize (s : State) (sid : Nat) : Nat := match s.stream? sid with | some t => if t.ty == 5 then 256 else 128 | none => 128

/-- The scale bytes of row m: each pop of the scale queue serves 32 rows. -/
def rowScales (s : State) (h : ArrCmd) (scale : Option Nat) : PopEnd × ArrCmd × State :=
  match scale with
  | none => (.got, h, s)
  | some sc =>
    if h.row % 32 != 0 then (.got, h, s)
    else
      let (e, bs, s) := popRows sc 1 [] s
      let n := entrySize s sc / 32
      (e, match e with | .got => { h with scales := h.scales ++ laneList.map fun l => (bs.drop (n * l)).take n } | _ => h, s)

/-- The row that a stream from a queue needs next: its entries first, then its scales; what has been popped is kept while
the rest has not arrived. -/
def queueRow (s : State) (h : ArrCmd) (n sid : Nat) (scale : Option Nat) : RowIn :=
  let size := entrySize s sid
  match popRows sid ((n + size - 1) / size - h.part.length / size) h.part s with
  | (.stop d, bs, s) => .stop d { h with part := bs } s
  | (.wait, bs, s) => .wait { h with part := bs } s
  | (.got, bs, s) => match rowScales s { h with part := bs } scale with
    | (.stop d, h, s) => .stop d h s
    | (.wait, h, s) => .wait h s
    | (.got, h, s) => .row (bs.take n) (h.scales.getD h.row []) { h with part := [] } s

/-- The bytes of the row that the stream needs next. -/
def nextRow (s : State) (w : Wave) (c : ArrCfg) (h : ArrCmd) : RowIn :=
  let n := packedBytes c.af (blockK c)
  let sb := if c.amx then blockK c / 32 else 0
  match h.op with
  | .str true _ src _ _ pitch _ _ =>
    let (bs, s) := arrLocal s w (src + h.row * pitch) n (elemBytes c.af)
    let (sc, s) := arrLocal s w (src + h.row * pitch + n) sb 1
    .row bs sc h s
  | .str false _ _ _ _ _ (some sid) scale => queueRow s h n sid scale
  | _ => .wait h s

/-- Applies the 128 contributions of one row in one pass (R267, R269, R290). -/
def applyRow (a : ArrayBank) (c : ArrCfg) (h : ArrCmd) (base rs : Nat) (g : Seg) : ArrayBank :=
  let one (l : List (Nat × Accum)) (cn : PlaneCol × Nat) : List (Nat × Accum) :=
    let col := cn.1
    let key := accKey c.f32 (base + h.row * rs + cn.2)
    let exp := g.w + col.w - 7 * ((h.pass + a.active.j : Nat) : Int)
    let old := match l.find? fun x => x.1 == key with | some x => x.2 | none => {}
    accSet l key (old.apply c.f32 (colSum g h.pass col) exp c.s (g.loss || col.loss) (g.drop || col.drop)
      (g.special || col.special) (skipsPair c.tri c.s g.marks col.marks) h.wid)
  { a with accs := (a.active.cols.zipIdx).foldl one a.accs }

/-- One row of the current pass: sliced on the first pass, applied to its accumulators, then the next row or pass. -/
def streamRow (s : State) (a : ArrayBank) (h : ArrCmd) (w : Wave) (base rows rs : Nat) : State :=
  let c := arrCfg h.cfg
  let src := if h.pass == 0 then nextRow s w c h else .row [] [] h s
  match src with
  | .wait h s => s.setArray (setHead a h)
  | .stop d h s => stopArray s (setHead a h) d
  | .row bs sc h s =>
    let a := { a with again := false, count := 0 }
    let h := if h.pass == 0 then
        { h with segs := h.segs ++ [segOf c.s c.af (blockK c) c.amx id (fun _ => false) bs sc] } else h
    let s := noteTern s w.wid (h.pass == 0 && hasTern c.af (blockK c) bs)
    let a := applyRow a c h base rs (h.segs.getD h.row {})
    let last := if c.tri then c.s - 1 - a.active.j else c.s - 1
    if h.row + 1 < rows then s.setArray (setHead a { h with row := h.row + 1 })
    else if h.pass < last then s.setArray (setHead a { h with row := 0, pass := h.pass + 1 })
    else popCmd s a

/-- A row's contributions are checked and applied; the bank must be active (R257). -/
def execArrayContributionApply (core quad bank : Nat) (s : State) : Host.Outcome State Fault Refusal :=
  match s.array? core quad bank with
  | some a => match a.queue with
    | h :: _ => match s.wave? h.wid, h.op with
      | some w, .str _ base _ rows rs _ _ _ =>
        let runs := !s.deadCores.contains core && a.bank == activeBank s core quad && ctxRuns s w.asid && !w.spilled && !s.anyParked
        if h.started && a.fault.isNone && runs then .next (streamRow s a h w base rows rs) else .next s
      | _, _ => .next s
    | [] => .next s
  | none => .next s

end Sys2Proof.Machine
end

