-- ==== Sys2Proof/Machine/VectorInt.lean ====
section
/-! DEFINITION. Class VIA (R117 to R135). -/

namespace Sys2Proof.Machine

/-- A lane operation on A and B at the operation's width. -/
def viaOp (i : Instr) (f : Fields) (s : State) (g : Nat → Nat → Nat) : Host.Outcome State Fault Refusal :=
  issue i f s fun c s => .done (c.putVec s (words f) c.m fun l => g (c.aAt l) (c.bAt l))

/-- A lane shift: the count is one 32-bit operand (R119, R125). -/
def viaShift (i : Instr) (f : Fields) (s : State) (g : Nat → Nat → Nat → Nat) : Host.Outcome State Fault Refusal :=
  issue i f s fun c s => .done (c.putVec s (words f) c.m fun l => g (wdBits (wd f)) (c.aAt l) (c.countAt l))

def execVadd (f : Fields) (s : State) : Host.Outcome State Fault Refusal := viaOp (.vadd f) f s (arith f (· + ·))
def execVsub (f : Fields) (s : State) : Host.Outcome State Fault Refusal := viaOp (.vsub f) f s (arith f (· - ·))
def execVmul (f : Fields) (s : State) : Host.Outcome State Fault Refusal := viaOp (.vmul f) f s (arith f (· * ·))
def execVmulh (f : Fields) (s : State) : Host.Outcome State Fault Refusal := viaOp (.vmulh f) f s (mulHigh (sg f))
def execVand (f : Fields) (s : State) : Host.Outcome State Fault Refusal := viaOp (.vand f) f s (Nat.land)
def execVor (f : Fields) (s : State) : Host.Outcome State Fault Refusal := viaOp (.vor f) f s (Nat.lor)
def execVxor (f : Fields) (s : State) : Host.Outcome State Fault Refusal := viaOp (.vxor f) f s (Nat.xor)
def execVmin (f : Fields) (s : State) : Host.Outcome State Fault Refusal := viaOp (.vmin f) f s (intMin f)
def execVmax (f : Fields) (s : State) : Host.Outcome State Fault Refusal := viaOp (.vmax f) f s (intMax f)
def execVshl (f : Fields) (s : State) : Host.Outcome State Fault Refusal := viaShift (.vshl f) f s (shlOp)
def execVshr (f : Fields) (s : State) : Host.Outcome State Fault Refusal := viaShift (.vshr f) f s (shrOp)
def execVsra (f : Fields) (s : State) : Host.Outcome State Fault Refusal := viaShift (.vsra f) f s (sraOp)

/-- R122: `vmad`, with the 64-bit addend and result of `.wide`. -/
def madOp (f : Fields) (a b c : Nat) : Nat :=
  if vr f == 2 then wrap 64 (elemVal (sg f) 32 a * elemVal (sg f) 32 b + (c : Int))
  else narrow (vr f == 1) (sg f) 32 (elemVal (sg f) 32 a * elemVal (sg f) 32 b + elemVal (sg f) 32 c)

def execVmad (f : Fields) (s : State) : Host.Outcome State Fault Refusal :=
  issue (.vmad f) f s fun c s =>
    .done (c.putVec s (if vr f == 2 then 2 else 1) c.m fun l => madOp f (c.aAt l) (c.bAt l) (c.vc.n (vr f == 2) l))

def execVabs (f : Fields) (s : State) : Host.Outcome State Fault Refusal :=
  issue (.vabs f) f s fun c s => .done (c.putVec s (words f) c.m fun l => absOp f (c.aAt l))

/-- R126: bits outside m are unchanged. -/
def execVcmp (f : Fields) (s : State) : Host.Outcome State Fault Refusal :=
  issue (.vcmp f) f s fun c s =>
    let n := wdBits (wd f)
    .done (c.putPred s c.m (maskOf fun l => intCond (f.e 2 0) (elemVal (sg f) n (c.aAt l)) (elemVal (sg f) n (c.bAt l))))

/-- R127. -/
def execVsel (f : Fields) (s : State) : Host.Outcome State Fault Refusal :=
  issue (.vsel f) f s fun c s =>
    .done (c.putVec s (words f) c.m fun l => if lane (c.w.pr (f.e 2 0)) l then c.aAt l else c.bAt l)

/-- R128. -/
def execVbfe (f : Fields) (s : State) : Host.Outcome State Fault Refusal :=
  issue (.vbfe f) f s fun c s =>
    .done (c.putVec s (words f) c.m fun l => bfeOp (sg f) (wdBits (wd f)) (f.e 5 0) (f.e 12 6) (c.aAt l))

def execVbfi (f : Fields) (s : State) : Host.Outcome State Fault Refusal :=
  issue (.vbfi f) f s fun c s =>
    .done (c.putVec s (words f) c.m fun l => bfiOp (f.e 5 0) (f.e 12 6) (c.aAt l) (c.bAt l))

/-- R129. -/
def execVpopc (f : Fields) (s : State) : Host.Outcome State Fault Refusal :=
  issue (.vpopc f) f s fun c s => .done (c.putVec s 1 c.m fun l => popOp (wdBits (wd f)) (c.aAt l))

def execVclz (f : Fields) (s : State) : Host.Outcome State Fault Refusal :=
  issue (.vclz f) f s fun c s => .done (c.putVec s 1 c.m fun l => clzOp (wdBits (wd f)) (c.aAt l))

def execVmov (f : Fields) (s : State) : Host.Outcome State Fault Refusal :=
  issue (.vmov f) f s fun c s => .done (c.putVec s (words f) c.m fun l => c.aAt l)

/-- R132. Of a lane constant, which has a value per lane, the model takes the source lane's in A, as `vshfl` does, and lane 0's in B
(log entry 34). -/
def execVbcast (f : Fields) (s : State) : Host.Outcome State Fault Refusal :=
  issue (.vbcast f) f s fun c s =>
    if c.contDet then .det
    else
      let k := c.vb.scalar.toNat % 32
      .done (c.putVec s (words f) c.m fun _ => c.aAt k)

/-- The source lane of `vshfl` (R132). -/
def shflSrc (mode b l : Nat) : Nat :=
  match mode with
  | 0 => b % 32
  | 1 => if l ≥ b then l - b else l
  | 2 => if l + b ≤ 31 then l + b else l
  | _ => l ^^^ (b % 32)

def execVshfl (f : Fields) (s : State) : Host.Outcome State Fault Refusal :=
  issue (.vshfl f) f s fun c s =>
    if c.contDet then .det
    else .done (c.putVec s (words f) c.m fun l => c.aAt (shflSrc (vr f) (c.vb.w l).toNat l))

/-- R131: carries of lanes outside m are unchanged. -/
def execVaddx (f : Fields) (s : State) : Host.Outcome State Fault Refusal :=
  issue (.vaddx f) f s fun c s =>
    let k := f.e 2 0
    let p := c.w.pr k
    let sum (l : Nat) : Nat :=
      c.aAt l + (if vr f == 1 then 2 ^ 32 - 1 - c.bAt l else c.bAt l) + (if lane p l then 1 else 0)
    let s := c.putVec s 1 c.m fun l => sum l % 2 ^ 32
    .done (s.setWave ((c.wave s).wp k ((p &&& ~~~c.m) ||| (maskOf (fun l => decide (sum l ≥ 2 ^ 32)) &&& c.m))))

/-- The combination of a scan (R133). -/
def scanOp (f : Fields) (a b : Nat) : Nat :=
  let n := wdBits (wd f)
  let x := elemVal (sg f) n a
  let y := elemVal (sg f) n b
  match f.e 2 0 with
  | 0 => wrap n (x + y)
  | 1 => narrow true (sg f) n (x + y)
  | 2 => if x < y then a else b
  | 3 => if x > y then a else b
  | 4 => a &&& b
  | 5 => a ||| b
  | _ => a ^^^ b

/-- One level of the pairwise tree of R89: neighbours combine, an absent child gives the other. -/
def treeStep {α : Type} (g : α → α → α) : List (Option α) → List (Option α)
  | a :: b :: r => (match a, b with | some x, some y => some (g x y) | some x, none => some x | none, y => y) :: treeStep g r
  | r => r

/-- The levels of the tree from the leaves on (R89). -/
def treeLevels {α : Type} (g : α → α → α) : Nat → List (Option α) → List (List (Option α))
  | 0, l => [l]
  | n + 1, l => l :: treeLevels g n (treeStep g l)

/-- The scan of R90 for lane l: the blocks of l + 1 from the largest, in ascending lane order. -/
def scanLane {α : Type} (g : α → α → α) (levels : List (List (Option α))) (l : Nat) : Option α :=
  let blocks := ([5, 4, 3, 2, 1, 0] : List Nat).filter fun k => (l + 1).testBit k
  (blocks.foldl (fun (acc : Option α × Nat) k =>
    let node := ((levels.getD k []).getD (acc.2 / 2 ^ k) none)
    (match acc.1, node with | some x, some y => some (g x y) | some x, none => some x | none, y => y, acc.2 + 2 ^ k)) (none, 0)).1

def execVscan (f : Fields) (s : State) : Host.Outcome State Fault Refusal :=
  issue (.vscan f) f s fun c s =>
    if c.contDet then .det
    else
      let levels := treeLevels (scanOp f) 5 (laneList.map fun l => if lane c.m l then some (c.aAt l) else none)
      .done (c.putVec s (words f) c.m fun l => (scanLane (scanOp f) levels l).getD 0)

end Sys2Proof.Machine
end

