-- ==== Sys2Proof/Machine/VectorFloat.lean ====
section
/-! DEFINITION. Classes VFD and VFS (R136 to R151). -/

namespace Sys2Proof.Machine

/-- A lane operation whose exact value is rounded per element (R143, R144). -/
def fpArith (dbl : Bool) (i : Instr) (f : Fields) (s : State) (g : Nat → FV → FV → FV → FV × Flags) :
    Host.Outcome State Fault Refusal :=
  issue i f s fun c s =>
    let p := fpOf dbl (fmtF f)
    let mode := modeOf c.w (rmF f)
    let rd (v : SrcVal) (l e : Nat) : FV := p.readIn (ftzF f) (elemAt p (v.n dbl l) e)
    .done (c.putFlagged s (if dbl then 2 else 1) fun l => packElems p (elemsOf dbl (fmtF f)) fun e =>
      let (x, fl) := g mode (rd c.va l e) (rd c.vb l e) (rd c.vc l e)
      let (r, fr) := p.round mode (ftzF f) x
      (r, fl ||| fr))

def fpAdd (mode : Nat) (a b _c : FV) : FV × Flags := a.add mode b
def fpSub (mode : Nat) (a b _c : FV) : FV × Flags := a.add mode b.flip
def fpMul (_mode : Nat) (a b _c : FV) : FV × Flags := a.mul b
def fpFma (mode : Nat) (a b c : FV) : FV × Flags := a.fma mode b c

/-- A function of one operand rounded once in RNE (R148, R149). -/
def fpFunc (dbl : Bool) (i : Instr) (f : Fields) (s : State) (g : FV → FV × Flags) : Host.Outcome State Fault Refusal :=
  fpArith dbl i f s fun _ a _ _ => g a

/-- min or max of one element's codes (R145). -/
def fpPick (p : Fp) (ftz isMax : Bool) (a b : Nat) : Nat × Flags :=
  let a := flushCode p ftz a
  let b := flushCode p ftz b
  match (p.decode a).pick isMax (p.decode b) with
  | (some x, fl) => (if x then a else b, fl)
  | (none, fl) => (p.nan, fl)

def fpMinMax (dbl isMax : Bool) (i : Instr) (f : Fields) (s : State) : Host.Outcome State Fault Refusal :=
  issue i f s fun c s =>
    let p := fpOf dbl (fmtF f)
    .done (c.putFlagged s (if dbl then 2 else 1) fun l => packElems p (elemsOf dbl (fmtF f)) fun e =>
      fpPick p (ftzF f) isMax (elemAt p (c.va.n dbl l) e) (elemAt p (c.vb.n dbl l) e))

/-- The combine of R146 over the elements' truth values. -/
def combine (code : Nat) (a b : Bool) : Bool := match code with | 0 => a | 1 => b | 2 => a && b | _ => a || b

/-- Writes a predicate from element tests with their flags (R146, R147). -/
def fpTest (dbl : Bool) (c : Ctx) (s : State) (comb : Nat) (g : Nat → Nat → Bool × Flags) : State :=
  let two := elemsOf dbl (fmtF c.f) == 2
  let r (l : Nat) : Bool × Flags :=
    let (a, fa) := g l 0
    if two then let (b, fb) := g l 1; (combine comb a b, fa ||| fb) else (a, fa)
  c.addFlags (c.putPred s c.m (maskOf fun l => (r l).1)) (flagsOf c.m fun l => (r l).2)

def fpCmp (dbl : Bool) (i : Instr) (f : Fields) (s : State) : Host.Outcome State Fault Refusal :=
  issue i f s fun c s =>
    let p := fpOf dbl (fmtF f)
    let rd (v : SrcVal) (l e : Nat) : FV := p.readIn (ftzF f) (elemAt p (v.n dbl l) e)
    .done (fpTest dbl c s (f.e 4 3) fun l e => (rd c.va l e).cond (f.e 2 0) (rd c.vb l e))

/-- R147: class raises no flag. -/
def fpClass (dbl : Bool) (i : Instr) (f : Fields) (s : State) : Host.Outcome State Fault Refusal :=
  issue i f s fun c s =>
    let p := fpOf dbl (fmtF f)
    .done (fpTest dbl c s (f.e 11 10) fun l e =>
      let b := elemAt p (c.va.n dbl l) e
      ((f.e 9 0).testBit ((p.readIn (ftzF f) b).classBit (p.subnormal b)), 0))

/-- A leaf of the tree of R89: flushed, a NaN as the default NaN. -/
def redLeaf (p : Fp) (ftz : Bool) (b : Nat) : Nat × Flags :=
  let v := p.readIn ftz b
  if v.isNan then (p.nan, flagIf v.isSig fNV) else (flushCode p ftz b, 0)

/-- A node of the tree of R89 (R151). -/
def redNode (p : Fp) (mode op : Nat) (ftz : Bool) (a b : Nat × Flags) : Nat × Flags :=
  if op == 0 then
    let (x, fl) := (p.decode a.1).add mode (p.decode b.1)
    let (r, fr) := p.round mode ftz x
    (r, a.2 ||| b.2 ||| fl ||| fr)
  else
    let (r, fl) := fpPick p false (op == 2) a.1 b.1
    (r, a.2 ||| b.2 ||| fl)

/-- The result of a lane reduction over a mask (R89, R151). -/
def fpReduce (dbl : Bool) (c : Ctx) : Nat × Flags :=
  let f := c.f
  let p := fpOf dbl (fmtF f)
  let mode := modeOf c.w (rmF f)
  packElems p (elemsOf dbl (fmtF f)) fun e =>
    let leaves := laneList.map fun l =>
      if lane c.m l then some (redLeaf p (ftzF f) (elemAt p (c.va.n dbl l) e)) else none
    match (treeLevels (redNode p mode (f.e 1 0) (ftzF f)) 5 leaves).getD 5 [] with
    | some r :: _ => r
    | _ => (0, 0)

def fpRed (dbl : Bool) (i : Instr) (f : Fields) (s : State) : Host.Outcome State Fault Refusal :=
  issue i f s fun c s =>
    if c.contDet then .det
    else
      let (r, fl) := fpReduce dbl c
      let n := if dbl then 2 else 1
      let s := match c.d with | some (.s _) => c.putScalar s n r | _ => c.putVec s n c.m fun _ => r
      .done (c.addFlags s fl)

def execDadd (f : Fields) (s : State) : Host.Outcome State Fault Refusal := fpArith true (.dadd f) f s fpAdd
def execDsub (f : Fields) (s : State) : Host.Outcome State Fault Refusal := fpArith true (.dsub f) f s fpSub
def execDmul (f : Fields) (s : State) : Host.Outcome State Fault Refusal := fpArith true (.dmul f) f s fpMul
def execDfma (f : Fields) (s : State) : Host.Outcome State Fault Refusal := fpArith true (.dfma f) f s fpFma
def execDmin (f : Fields) (s : State) : Host.Outcome State Fault Refusal := fpMinMax true false (.dmin f) f s
def execDmax (f : Fields) (s : State) : Host.Outcome State Fault Refusal := fpMinMax true true (.dmax f) f s
def execDcmp (f : Fields) (s : State) : Host.Outcome State Fault Refusal := fpCmp true (.dcmp f) f s
def execDclass (f : Fields) (s : State) : Host.Outcome State Fault Refusal := fpClass true (.dclass f) f s
def execDred (f : Fields) (s : State) : Host.Outcome State Fault Refusal := fpRed true (.dred f) f s
def execFadd (f : Fields) (s : State) : Host.Outcome State Fault Refusal := fpArith false (.fadd f) f s fpAdd
def execFsub (f : Fields) (s : State) : Host.Outcome State Fault Refusal := fpArith false (.fsub f) f s fpSub
def execFmul (f : Fields) (s : State) : Host.Outcome State Fault Refusal := fpArith false (.fmul f) f s fpMul
def execFfma (f : Fields) (s : State) : Host.Outcome State Fault Refusal := fpArith false (.ffma f) f s fpFma
def execFmin (f : Fields) (s : State) : Host.Outcome State Fault Refusal := fpMinMax false false (.fmin f) f s
def execFmax (f : Fields) (s : State) : Host.Outcome State Fault Refusal := fpMinMax false true (.fmax f) f s
def execFcmp (f : Fields) (s : State) : Host.Outcome State Fault Refusal := fpCmp false (.fcmp f) f s
def execFclass (f : Fields) (s : State) : Host.Outcome State Fault Refusal := fpClass false (.fclass f) f s
def execFred (f : Fields) (s : State) : Host.Outcome State Fault Refusal := fpRed false (.fred f) f s
def execDrcpe (f : Fields) (s : State) : Host.Outcome State Fault Refusal := fpFunc true (.drcpe f) f s rcpEst
def execDrsqe (f : Fields) (s : State) : Host.Outcome State Fault Refusal := fpFunc true (.drsqe f) f s rsqEst
def execFrcp (f : Fields) (s : State) : Host.Outcome State Fault Refusal := fpFunc false (.frcp f) f s frcpV
def execFrsq (f : Fields) (s : State) : Host.Outcome State Fault Refusal := fpFunc false (.frsq f) f s frsqV
def execFex2 (f : Fields) (s : State) : Host.Outcome State Fault Refusal := fpFunc false (.fex2 f) f s fex2V
def execFlg2 (f : Fields) (s : State) : Host.Outcome State Fault Refusal := fpFunc false (.flg2 f) f s flg2V
def execFsin (f : Fields) (s : State) : Host.Outcome State Fault Refusal := fpFunc false (.fsin f) f s fsinV
def execFcos (f : Fields) (s : State) : Host.Outcome State Fault Refusal := fpFunc false (.fcos f) f s fcosV

/-- R150: a * 2^n. -/
def execDldx (f : Fields) (s : State) : Host.Outcome State Fault Refusal :=
  issue (.dldx f) f s fun c s =>
    let mode := modeOf c.w (rmF f)
    .done (c.putFlagged s 2 fun l =>
      let v := fp64.readIn (ftzF f) (c.va.d l)
      let x : FV := match v with
        | .fin n m e => .fin n m (e + (c.vb.w l).toInt)
        | w => w
      let (r, fr) := fp64.round mode (ftzF f) x
      (r, fr ||| flagIf v.isSig fNV))

/-- R150, `.mant`. -/
def frxMant (v : FV) : Nat :=
  match v with
  | .fin n m _ => if m == 0 then fp64.sign n else (fp64.round mRNE false (.fin n m (-(Nat.log2 m : Nat)))).1
  | w => (fp64.round mRNE false w).1

/-- R150, `.exp`. -/
def frxExp (v : FV) : Nat :=
  match v with
  | .fin _ m e => if m == 0 then 0 else wrap 32 (leadExp m e)
  | _ => 0x80000000

def execDfrx (f : Fields) (s : State) : Host.Outcome State Fault Refusal :=
  issue (.dfrx f) f s fun c s =>
    let mant := f.e 0 0 == 0
    .done (c.putFlagged s (if mant then 2 else 1) fun l =>
      let v := fp64.readIn (ftzF f) (c.va.d l)
      (if mant then frxMant v else frxExp v, flagIf v.isSig fNV))

/-- R144: the exact sum of two packed products and an FP32 addend, rounded once; of infinities of opposite signs beside a quiet NaN only
those that meet in the order products, addend raise NV (log entry 34). -/
def execFdot2 (f : Fields) (s : State) : Host.Outcome State Fault Refusal :=
  issue (.fdot2 f) f s fun c s =>
    let p := fpOf false (fmtF f)
    let mode := modeOf c.w (rmF f)
    let rd (v : SrcVal) (l e : Nat) : FV := p.readIn (ftzF f) (elemAt p (v.w l).toNat e)
    .done (c.putFlagged s 1 fun l =>
      let (p0, f0) := (rd c.va l 0).mul (rd c.vb l 0)
      let (p1, f1) := (rd c.va l 1).mul (rd c.vb l 1)
      let (q, f2) := p0.add mode p1
      let (x, f3) := q.add mode (fp32.readIn (ftzF f) (c.vc.w l).toNat)
      let (r, f4) := fp32.round mode (ftzF f) x
      (r, f0 ||| f1 ||| f2 ||| f3 ||| f4))

end Sys2Proof.Machine
end

