-- ==== Sys2Proof/Machine/Atomic.lean ====
section
/-! DEFINITION. Class ATM: what its lanes issue (R205 to R213, R216), and the operations of a performing place. -/

namespace Sys2Proof.Machine

/-! ### Operations at the place (R207 to R209) -/

/-- The new value of `atom` and `red` on n bits (R207). -/
def atomNew (op : Nat) (sg : Bool) (n old b : Nat) : Nat :=
  match op with
  | 0 => (old + b) % 2 ^ n
  | 1 => if elemVal sg n b < elemVal sg n old then b else old
  | 2 => if elemVal sg n b > elemVal sg n old then b else old
  | 3 => old &&& b
  | 4 => old ||| b
  | 5 => old ^^^ b
  | 6 => b
  | 7 => if old ≥ b then 0 else old + 1
  | _ => if old == 0 || old > b then b else old - 1

/-- The element format of an `atomf` type (R205). -/
def atomfFp (ty : Nat) : Fp := match ty with | 0 => fp32 | 1 => fp64 | 2 => fp16 | _ => Sys2Proof.Machine.bf16

/-- The new value and flags of `atomf` and `redf` (R209). -/
def atomfNew (op ty old b : Nat) : Nat × Flags :=
  let p := atomfFp ty
  packElems p (if ty < 2 then 1 else 2) fun e =>
    let x := elemAt p old e
    let y := elemAt p b e
    if op == 0 then
      let (v, fl) := (p.decode x).add mRNE (p.decode y)
      let (r, fr) := p.round mRNE false v
      (r, fl ||| fr)
    else fpPick p false (op == 2) x y

/-! ### Issue -/

/-- The lane address of an atomic (R206). -/
def atomAddr (c : Ctx) (off : Int) (l : Nat) : Nat :=
  if c.f.m 5 3 == 1 then addr32 (((c.va.w l).toNat : Int) + off) else addr64 ((c.va.d l : Int) + off)

/-- Sext(EXT[20:0], 21). -/
def atomOff (f : Fields) : Int := sext 21 (f.e 20 0)

/-- Element size of an atomic. -/
def atomSize (wide : Bool) : Nat := if wide then 8 else 4

/-- Issues the atomics of a mask. -/
def issueAtoms (s : State) (c : Ctx) (gid : Nat) (m : Word) (kind : AccKind) (wide : Bool) (addr : Nat → Nat) : State :=
  let scope := c.f.m 5 3
  let size := atomSize wide
  (laneList.filter fun l => lane m l).foldl (fun s l =>
    let a : Access := { id := 0, gid := gid, wid := c.w.wid, node := c.w.node, core := c.w.core, lane := l, kind := kind
                        space := .glob, scope := scope, asid := c.w.asid, addr := addr l, size := size, data := c.vb.n wide l
                        data2 := c.vc.n wide l }
    if scope == 1 then
      match spTarget s c.w (c.f.m 0 0 == 1) (addr l) size with
      | some (core, o) => addAccess s { a with space := .spad core, addr := o }
      | none => s
    else
      let cached := match s.lookup c.w.asid (addr l) (.atomic (scope == 4)) with | some t => !t.uncached | none => true
      addAccess s { a with cached := cached }) s

/-- The lanes of an atomic: a determinism trap beyond `.troupe` under DET (R213), scratchpad lanes (R199) or global
lanes (R171, R211), each counted as outstanding (R206). -/
def atomLanes (c : Ctx) (s : State) (kind : AccKind) (wide ret redo : Bool) (off : Int) : Act :=
  let scope := c.f.m 5 3
  let size := atomSize wide
  let addr := atomAddr c off
  if scope != 1 && c.det && !redo then .det
  else
    let stop := if scope == 1 then none else dataMatch s c true true size addr
    match stop with
    | some (k, hit) => dataStop s c k hit
    | none =>
      let loc := c.f.m 0 0 == 1
      let (bad, cause, fa) := if scope == 1 then (0#32, 0, 0) else laneFaults s c.w.asid c.m size (.atomic (scope == 4)) addr
      let good := if scope == 1 then spLanes s c loc size addr else c.m &&& ~~~bad
      if outstFull c.w (maskCount good) then .wait
      else
        let s := if scope == 1 then noteRange s c.w.wid (c.m &&& ~~~good) else s
        let (gid, s) := groupOf s c.w
        let s := addOutst (issueAtoms s c gid good kind wide addr) c.w.wid (maskCount good)
        let s := match ret, c.d with
          | true, some (.v r) => openLanding s c.w gid (.vec r (if wide then 2 else 1)) true (bad != 0) []
          | _, _ => s
        if bad != 0 then .replay (s.noteLanes c.w.asid size bad addr) cause fa bad bad (some gid) else .done s

def execAtom (f : Fields) (s : State) : Host.Outcome State Fault Refusal :=
  issue (.atom f) f s fun c s =>
    atomLanes c s (.atom (f.e 24 21) (f.m 1 1 == 1) true) (f.m 2 2 == 1) true false (atomOff f)

def execRed (f : Fields) (s : State) : Host.Outcome State Fault Refusal :=
  issue (.red f) f s fun c s =>
    atomLanes c s (.atom (f.e 24 21) (f.m 1 1 == 1) false) (f.m 2 2 == 1) false false (atomOff f)

/-- R208: `acas` takes no offset. -/
def execAcas (f : Fields) (s : State) : Host.Outcome State Fault Refusal :=
  issue (.acas f) f s fun c s => atomLanes c s .cas (f.m 2 2 == 1) true false 0

def execAtomf (f : Fields) (s : State) : Host.Outcome State Fault Refusal :=
  issue (.atomf f) f s fun c s => atomLanes c s (.atomf (f.e 24 21) (f.m 2 1) true) (f.m 2 1 == 1) true false (atomOff f)

def execRedf (f : Fields) (s : State) : Host.Outcome State Fault Refusal :=
  issue (.redf f) f s fun c s => atomLanes c s (.atomf (f.e 24 21) (f.m 2 1) false) (f.m 2 1 == 1) false false (atomOff f)

/-- R216. -/
def execRedo (f : Fields) (s : State) : Host.Outcome State Fault Refusal :=
  issue (.redo f) f s fun c s => atomLanes c s (.redo (f.m 2 1 == 1)) (f.m 2 1 == 1) false true (atomOff f)

end Sys2Proof.Machine
end

