-- ==== Sys2Proof/Machine/Complete.lean ====
section
/-! DEFINITION. When a task is complete, and what completion frees (R320, R354, R399). -/

namespace Sys2Proof.Machine

/-- Whether a ray is one that a task still waits for. -/
def ownsRays (s : State) (nid : Nat) : Bool := s.rays.any fun r => r.owner == nid

namespace State

/-- The waves a node has (R20, R396). -/
def waveCount (n : Node) : Nat := if n.kind == .cont then 1 else (n.launch.count + 31) / 32

/-- Whether a child cannot begin before its parent retires: a reduction or a NOVERSION task whose parent's version has not committed,
or which stands behind its parent in one queue (R323, R325). -/
def waitsParent (s : State) (parent : Nat) (c : Node) : Bool :=
  (c.kind == .red || c.launch.noversion)
    && (c.birth.isSome || (match s.node? parent with | some n => n.queue == c.queue | none => false))

/-- The children that a task created while it was speculative and has submitted (R320); those that wait for its retirement
are not among them (log entry 30). -/
def liveChildren (s : State) (nid : Nat) : List Node :=
  s.nodes.filter fun c => c.creator == some nid && c.specChild && c.index.isSome && c.stage != .complete && !s.waitsParent nid c

/-- Whether a running kernel or continuation node has nothing left to do (R320, R369, R399); engine and reduction nodes are
completed by their units. -/
def nodeDone (s : State) (n : Node) : Bool :=
  n.stage == .running && (n.kind == .krn || n.kind == .cont) && decide (n.placed ≥ waveCount n)
    && !(s.waves.any fun w => w.node == n.nid)
    && !(s.entries.any fun e => e.node == n.nid)
    && !(s.jobs.any fun j => j.node == n.nid)
    && !(s.arrays.any fun a => a.holder == n.nid && !a.queue.isEmpty)
    && (s.liveChildren n.nid).isEmpty
    && !(s.nodes.any fun c => c.owner == some n.nid) && !ownsRays s n.nid
    && !(s.passes.any fun p => p.closer == some n.nid)

/-- Marks a node complete: its units and its scratchpads are free; a continuation node has no retirement and ends. -/
def markDone (s : State) (n : Node) : State :=
  if n.kind == .cont then s.freeNode n
  else
    let s := s.releaseUnits fun x => x == n.nid
    { s.setNode { n with stage := .complete } with spads := s.spads.filter fun p => p.node != n.nid }

/-- Marks every node that is done, children before parents. -/
def settleN : Nat → State → State
  | 0, s => s
  | k + 1, s => match s.nodes.find? s.nodeDone with
    | some n => settleN k (s.markDone n)
    | none => s

def settle (s : State) : State := settleN s.nodes.length s

end State

end Sys2Proof.Machine
end

