-- ==== Sys2Proof/Machine/Task.lean ====
section
/-! DEFINITION. Class TSK: launch records, nodes and edges, submission, allocation and abort (R61 to R63, R300 to R310,
R319, R328). -/

namespace Sys2Proof.Machine

/-! ### Launch records (R61 to R63) -/

/-- Bytes of one row of a tile (R62, R68, R75). -/
def tileRow (ty cols : Nat) : Nat :=
  if ty == 11 then (cols + 4) / 5
  else match fmtOf ty with | some g => (cols * g.bits + 7) / 8 | none => 0

/-- Whether a tile descriptor's fields lie in their ranges (R62). -/
def tileOk (bs : List Byte) : Bool :=
  let rows := bytesNat bs 8 2
  let cols := bytesNat bs 10 2
  let ty := byteN bs 14
  rows ≥ 1 && cols ≥ 1 && ty ≤ 12 && decide (16 * bytesNat bs 12 2 ≥ tileRow ty cols) && byteN bs 15 ≤ 1

/-- The launch record that 64 bytes hold. -/
def launchOf (bs : List Byte) : LaunchRec :=
  let fl := byteN bs 0x15
  let b (n : Nat) : Bool := State.bits fl n n == 1
  { entry := BitVec.ofNat 64 (bytesNat bs 0 8), count := bytesNat bs 8 4, regs := bytesNat bs 0xC 2, accum := byteN bs 0xE
    tiles := byteN bs 0xF, scratch := bytesNat bs 0x10 4, prio := byteN bs 0x14, det := b 0, noversion := b 1, idem := b 2
    gang := b 3, classB := b 4, gword := bytesNat bs 0x16 2, args := BitVec.ofNat 64 (bytesNat bs 0x18 8)
    handler := BitVec.ofNat 64 (bytesNat bs 0x20 8) }

/-- R63 on the 64 bytes; GWORD is held against SCRATCH only with GANG (log entry 20), and bits [63:53] of ENTRY and
HANDLER are not looked at (log entry 33). -/
def launchOk (bs : List Byte) : Bool :=
  let r := launchOf bs
  byteN bs 0x28 == 1 && byteN bs 0x15 < 32 && r.prio < 4 && (List.range 23).all (fun i => byteN bs (0x29 + i) == 0)
    && r.entry.toNat % 4 == 0 && r.handler.toNat % 4 == 0 && decide (1 ≤ r.regs ∧ r.regs ≤ 24) && r.accum ≤ 16 && r.tiles ≤ 8
    && r.scratch % 64 == 0 && r.scratch ≤ 0x100000 && (if r.gang then decide (8 * r.gword < r.scratch) else r.gword == 0)

/-- Waves of a task (R20). -/
def LaunchRec.waves (r : LaunchRec) : Nat := (r.count + 31) / 32

/-- Whether a gang can be co-resident (R319). -/
def gangFits (r : LaunchRec) : Bool :=
  !r.gang || decide (r.waves ≤ (if r.classB then 512 else 256) * min 16 (1536 / (16 * r.regs)))

/-! ### Job cards and parameter blocks (R339, R340, R367) -/

/-- Whether a job card is valid at an address; `kinds` are the kinds admitted (R340). -/
def cardOk (addr : Nat) (bs : List Byte) (kinds : List Nat) : Bool :=
  let kind := byteN bs 0
  let gs := kind == 2 || kind == 3
  let len := bytesNat bs 0x18 8
  let aux := bytesNat bs 0x20 8
  addr % 64 == 0 && kinds.contains kind && byteN bs 1 < 4 && bytesNat bs 4 4 == 0 && bytesNat bs 0x30 8 == 0
    && (if gs then byteN bs 2 ≤ 4 && byteN bs 3 ≤ 1 else byteN bs 2 == 0 && byteN bs 3 == 0 && bytesNat bs 0x28 8 == 0)
    && (match kind with
      | 1 => decide (len < 2 ^ 40) && aux == 0
      | 4 => decide (len < 2 ^ 32) && decide (aux < 2 ^ 32)
      | _ => decide (len < 2 ^ 32) && aux % (if byteN bs 3 == 1 then 8 else 4) == 0)

/-- Whether a reduction parameter block is valid at an address (R367). -/
def blockOk (addr : Nat) (bs : List Byte) : Bool :=
  let n := byteN bs 0x1D
  let len := bytesNat bs 0x18 4
  addr % 64 == 0 && bytesNat bs 0 8 % 128 == 0 && bytesNat bs 8 8 % 128 == 0 && bytesNat bs 0x10 8 % 8 == 0
    && decide (1 ≤ len ∧ len ≤ 2 ^ 24) && byteN bs 0x1C ≤ 3 && decide (1 ≤ n ∧ n ≤ 16) && bytesNat bs 0x1E 2 == 0
    && (List.range 16).all fun i => i < n || bytesNat bs (0x20 + 2 * i) 2 == 0

/-! ### Words (R301, R302) -/

def fRECORD : Nat := 1
def fNOSPACE : Nat := 2
def fHANDLE : Nat := 3
def fWINDOW : Nat := 4
def fORDER : Nat := 5
def fQUEUE : Nat := 6
def fGANG : Nat := 7
def fGRANT : Nat := 8

/-- A failure word. -/
def failWord (code : Nat) : Nat := 2 ^ 31 + code

/-- The handle of a node. -/
def handleOf (n : Node) : Nat := n.slot % 2 ^ 16 + n.die % 2 * 2 ^ 16 + n.tag % 2 ^ 13 * 2 ^ 17 + 2 ^ 30

/-- The live node a handle names. -/
def handleNode (s : State) (h : Nat) : Option Node :=
  s.nodes.find? fun n => n.die == State.bits h 16 16 && n.slot == State.bits h 15 0 && n.tag == State.bits h 29 17

/-- The unsubmitted node of the issuing task that a handle names (R302). -/
def ownHandle (s : State) (c : Ctx) (h : Nat) : Option Node :=
  if h / 2 ^ 30 != 1 then none
  else match handleNode s h with
    | some n => if n.asid == c.w.asid && n.creator == some c.w.node && n.stage == .unsubmitted then some n else none
    | none => none

/-- Whether a queue exists and is enabled (R302). -/
def queueEnabled (c : Context) (q : Nat) : Bool := decide (q < 64) && c.qen.getLsbD q

/-- The die that owns a queue (R446). -/
def queueDie (c : Context) (q : Nat) : Nat := if c.qdie.getLsbD q then 1 else 0

/-! ### Node slots (R300) -/

/-- The slots of a die's node store in use. -/
def usedSlots (s : State) (die : Nat) : List Nat := (s.nodes.filter fun n => n.die == die && n.kind != .cont).map (·.slot)

/-- A free slot of n: the first from a free starting place on (log entry 2). -/
def freeSlot (n start : Nat) (used : List Nat) : Option Nat :=
  if used.length ≥ n then none
  else if used.contains (start % n) then (List.range n).find? fun i => !used.contains i
  else some (start % n)

/-- Adds a node to the store of its queue's die, or none where the store or the context's quota is full (R302). -/
def addNode (s : State) (c : Context) (n : Node) : Option (Node × State) :=
  let die := queueDie c n.queue
  if (s.nodes.filter fun x => x.asid == c.asid && x.kind != .cont).length ≥ c.quota then none
  else
    let (k, s) := s.takeFree
    match freeSlot Config.nodeSlots (Config.freeNat k) (usedSlots s die) with
    | none => none
    | some slot =>
      let (nid, s) := s.fresh
      let n := { n with nid := nid, die := die, slot := slot, tag := s.tagOf die slot }
      some (n, { s with nodes := s.nodes ++ [n] })

/-! ### The version family of a child (R304, R325) -/

/-- The speculative family of a node's task, if it has one. -/
def specFamily (s : State) (n : Node) : Option Nat :=
  match n.fam.bind s.fam? with
  | some f => if f.st == .direct then none else some f.fid
  | none => none

/-- Whether a family that has left HOLD still keeps its held writes back (R321, R323). -/
def famWaits (s : State) (nid : Nat) : Bool :=
  match ((s.node? nid).bind (·.fam)).bind s.fam? with
  | some f => f.st == .direct && decide (s.ns < f.holdTo)
  | none => false

/-- A non-speculative family's retirement waits for the GWCT of its own writes (R321). -/
def noteFam (s : State) (fam : Option Nat) (g : Nat) : State :=
  match fam.bind s.fam? with
  | some f => if f.st == .direct then s.setFam { f with gwct := max f.gwct g } else s
  | none => s

def noteGwct (s : State) (nid g : Nat) : State := noteFam s ((s.node? nid).bind (·.fam)) g

/-- Whether a ready node that was passed over for too long has a kind of resource reserved for it (R311). -/
def reservedFor (s : State) (p : Node → Bool) : Bool := s.nodes.any fun m => m.passed && m.stage == .ready && ctxRuns s m.asid && p m

/-! ### Reading a record as the issuing wave -/

inductive RdRes where
  | wait
  | fault (cause addr : Nat)
  | ok (bs : List Byte) (s : State)

/-- n bytes read as a load of the issuing wave within its version, after its own stores to them (R186, R304). -/
def readOwn (c : Ctx) (s : State) (va n : Nat) : RdRes :=
  if !mayHit s (c.wave s) va n || readParked s c.w va n then .wait
  else match arrGlobal s (c.wave s) va n with
    | .error (cause, addr) => .fault cause addr
    | .ok (bs, s) => .ok bs s

/-- Runs a body on bytes read at issue; a fault has fault mask `exec`, and the instruction replays with the lanes that it has not
finished (R173, R304). -/
def withRead (c : Ctx) (s : State) (va n : Nat) (body : List Byte → State → Act) : Act :=
  match readOwn c s va n with
  | .wait => .wait
  | .fault cause addr => .replayRest s c.w cause addr c.w.exec
  | .ok bs s => body bs s

/-! ### `tnew` (R304) -/

/-- Creates a node and answers its handle or a failure word. -/
def newNode (c : Ctx) (s : State) (x : Context) (n : Node) : Act :=
  match addNode s x n with
  | none => .done (c.putScalar s 1 (failWord fNOSPACE))
  | some (n, s) => .done (c.putScalar s 1 (handleOf n))

/-- The family whose commit accepts a child: one that has committed already accepts it at once (R304, R329). -/
def birthFamily (s : State) (fam : Option Nat) : Option Nat :=
  match fam.bind s.fam? with
  | some f => if f.committed then none else some f.fid
  | none => none

/-- The fields every node of an issuing task has. -/
def childNode (c : Ctx) (s : State) (q : Nat) (kind : NodeKind) (src : Nat) (launch : LaunchRec) : Node :=
  let fam := specFamily s c.node
  { nid := 0, asid := c.w.asid, queue := q, kind := kind, source := src, launch := launch, creator := some c.w.node
    birth := birthFamily s fam, specChild := fam.isSome, fam := if kind == .red || launch.noversion then none else fam }

/-- R304. A record, card or block that does not lie at a multiple of 64 breaks R61, R339 or R367; R63 does not say what follows
for a launch record, and the model answers RECORD for each; the tiles of a record that fails are not read (log
entry 33). Of several causes QUEUE comes first, then RECORD, GANG and NOSPACE (log entry 32). -/
def execTnew (f : Fields) (s : State) : Host.Outcome State Fault Refusal :=
  issue (.tnew f) f s fun c s =>
    let addr := c.va.scalar64
    let q := c.vb.scalar.toNat
    let fail (k : Nat) : Act := .done (c.putScalar s 1 (failWord k))
    match s.ctx? c.w.asid with
    | none => fail fQUEUE
    | some x =>
      if !queueEnabled x q then fail fQUEUE
      else if addr % 64 != 0 then fail fRECORD
      else withRead c s addr 64 fun bs s =>
        match f.m 1 0 with
        | 0 =>
          let r := launchOf bs
          if !launchOk bs then .done (c.putScalar s 1 (failWord fRECORD))
          else withRead c s (addr + 64) (16 * r.tiles) fun tb s =>
            let tiles := (List.range r.tiles).map fun i => (tb.drop (16 * i)).take 16
            if !tiles.all tileOk then .done (c.putScalar s 1 (failWord fRECORD))
            else if !gangFits r then .done (c.putScalar s 1 (failWord fGANG))
            else newNode c s x { childNode c s q .krn addr r with tileDescs := tiles }
        | 1 =>
          if !cardOk addr bs [1, 2, 3, 4] then .done (c.putScalar s 1 (failWord fRECORD))
          else newNode c s x { childNode c s q .eng addr { prio := c.node.launch.prio } with card := bs }
        | _ =>
          if !blockOk addr bs then .done (c.putScalar s 1 (failWord fRECORD))
          else newNode c s x { childNode c s q .red addr { prio := c.node.launch.prio } with card := bs }

/-! ### `tdep` (R305, R306) -/

/-- What a predecessor word names. -/
inductive PredRef where
  | node (n : Node)
  | retired
  | bad (code : Nat)

/-- What a predecessor word names; one with bit 31 set, a failure word, is answered with ORDER (log entry 33). -/
def predOf (s : State) (x : Context) (p : Nat) : PredRef :=
  if p / 2 ^ 31 == 1 then .bad fORDER
  else if p / 2 ^ 30 == 1 then
    match handleNode s p with
    | some n => if n.asid == x.asid then .node n else .bad fHANDLE
    | none => if s.tagOf (State.bits p 16 16) (State.bits p 15 0) == State.bits p 29 17 then .bad fHANDLE else .retired
  else
    let q := State.bits p 29 24
    let idx := State.bits p 23 0
    if !queueEnabled x q then .bad fQUEUE
    else match x.queues[q]? with
      | none => .bad fQUEUE
      | some tq =>
        let d := (tq.next + 2 ^ 24 - idx) % 2 ^ 24
        if d < 1 || d > 2 ^ 23 then .bad fORDER
        else match s.nodes.find? fun n => n.asid == x.asid && n.queue == q && n.kind != .cont && (match n.index with
            | some i => i % 2 ^ 24 == idx
            | none => false) with
          | some n => .node n
          | none => .retired

/-- Edges held by a die's edge store (R445). -/
def edgesOf (s : State) (die : Nat) : Nat := (s.nodes.filter fun n => n.die == die).foldl (fun k n => k + n.preds.length) 0

/-- The speculative version family that a node belongs to: the family it was born into, or the one it owns once a child has
joined it; a task from a packet has no family by itself (R304, R323, R452; log entry 15). -/
def familyOf (s : State) (n : Node) : Option Nat :=
  if n.launch.noversion then none
  else match n.birth with
    | some f => some f
    | none => match specFamily s n with
      | some f => if s.nodes.any fun m => m.fam == some f && m.nid != n.nid && m.kind != .cont then some f else none
      | none => none

/-- Whether R306 refuses an edge. -/
def edgeRefused (s : State) (c : Ctx) (succ pred : Node) : Bool :=
  pred.nid == succ.nid || pred.nid == c.w.node || pred.nid == (s.ownerNode c.node).nid
    || (match familyOf s pred with | some f => familyOf s succ != some f | none => false)

/-- R305. Of several causes HANDLE comes first, then that of the predecessor word, ORDER and NOSPACE (log entry 32). -/
def execTdep (f : Fields) (s : State) : Host.Outcome State Fault Refusal :=
  issue (.tdep f) f s fun c s =>
    let out (s : State) (v : Nat) : Act := .done (c.putScalar s 1 v)
    match ownHandle s c c.va.scalar.toNat, s.ctx? c.w.asid with
    | some succ, some x => match predOf s x c.vb.scalar.toNat with
      | .bad k => out s (failWord k)
      | .retired => out s 0
      | .node p =>
        if edgeRefused s c succ p then out s (failWord fORDER)
        else if edgesOf s succ.die ≥ Config.edgeSlots then out s (failWord fNOSPACE)
        else out (s.setNode { succ with preds := p.nid :: succ.preds.filter fun k => k != p.nid }) 0
    | _, _ => out s (failWord fHANDLE)

/-! ### `tsub` (R306, R307) -/

/-- Submitted nodes of a queue that have not retired. -/
def windowOf (s : State) (asid q : Nat) : List Node := s.nodes.filter fun n => n.asid == asid && n.queue == q && n.kind != .cont && n.index.isSome

/-- Submits a node: the next INDEX of its queue, and the ready pool once it has no predecessor left. -/
def submit (s : State) (x : Context) (n : Node) : Node × State :=
  let i := match x.queues[n.queue]? with | some t => t.next | none => 0
  let n := { n with index := some i, stage := if n.preds.isEmpty then .ready else .waiting, readyAt := s.ns }
  let queues := match x.queues[n.queue]? with | some t => x.queues.set n.queue { t with next := i + 1 } | none => x.queues
  (n, (s.setNode n).setCtx { x with queues := queues })

/-- R307. Of several causes HANDLE comes first, then ORDER and WINDOW (log entry 32). -/
def execTsub (f : Fields) (s : State) : Host.Outcome State Fault Refusal :=
  issue (.tsub f) f s fun c s =>
    let fail (k : Nat) : Act := .done (c.putScalar s 1 (failWord k))
    match ownHandle s c c.va.scalar.toNat, s.ctx? c.w.asid with
    | some n, some x =>
      if n.preds.any fun p => (match s.node? p with | some m => m.queue == n.queue && m.stage == .unsubmitted | none => false) then
        fail fORDER
      else if (windowOf s x.asid n.queue).length ≥ Config.window then fail fWINDOW
      else
        let (n, s) := submit s x n
        .done (c.putScalar s 1 (State.taskId n))
    | _, _ => fail fHANDLE

/-! ### `talloc` (R310, R328) -/

/-- Notes that the k-th `talloc` of a wave of a task has been performed; the wave is known by its index or its continuation
number. -/
def countTalloc (s : State) (nid idx k : Nat) : State :=
  match s.node? nid with
  | some n => s.setNode { n with tallocDone := (idx, k) :: n.tallocDone }
  | none => s

/-- The place of a wave in its task's order. -/
def orderIdx (w : Wave) : Nat := match w.cont with | some n => n | none => w.idx

/-- Whether the next `talloc` of a wave of a DET task has its turn: the wave before has performed its own of that place, or has
halted (R328). -/
def tallocTurn (s : State) (w : Wave) : Bool :=
  let n := s.nodeOf w
  let j := orderIdx w
  j == 0 || n.halts.contains (j - 1) || n.tallocDone.contains (j - 1, w.tallocs)

/-- Counts a `talloc` that the wave has reached. -/
def reachTalloc (s : State) (w : Wave) : State :=
  match s.wave? w.wid with | some v => s.setWave { v with tallocs := v.tallocs + 1 } | none => s

def execTalloc (f : Fields) (s : State) : Host.Outcome State Fault Refusal :=
  issueOr (.talloc f) f s
    (fun c s =>
      if !c.det || c.isCont then .done s
      else if tallocTurn s c.w then .done (countTalloc (reachTalloc s c.w) c.w.node (orderIdx c.w) c.w.tallocs)
      else .wait)
    (fun c s =>
      let va := c.va.scalar64
      if c.contDet then .det
      else if c.det && !tallocTurn s c.w then .wait
      else match dataMatch s c true true 16 fun _ => va with
        | some (k, hit) => dataStop s c k hit
        | none =>
          let cause := if va % 16 != 0 && va < Config.vaEnd then some cALIGN else s.laneCheck c.w.asid va 8 .write
          match cause with
          | some k => .replay s k va c.m c.m none
          | none =>
            if outstFull c.w (maskCount c.m) then .wait
            else
              let (gid, s) := s.fresh
              let lanes := (laneList.filter fun l => lane c.m l).map fun l => (l, (c.vb.w l).toNat)
              let cached := match s.lookup c.w.asid va .write with | some t => !t.uncached | none => true
              let s := addAccess s { id := 0, gid := gid, wid := c.w.wid, node := c.w.node, core := c.w.core, lane := 0
                                     kind := .talloc lanes, space := .glob, scope := 3, asid := c.w.asid, addr := va, size := 16
                                     data2 := c.w.tallocs, cached := cached }
              let s := reachTalloc (addOutst s c.w.wid (maskCount c.m)) c.w
              match c.d with
              | some (.v r) => .done (openLanding s c.w gid (.vec r 2) true false [])
              | _ => .done s)

/-! ### `tgrow` (R309) -/

/-- Units granted on a quadrant across both banks. -/
def unitsGranted (s : State) (core quad : Nat) : Nat :=
  (s.arrays.filter fun a => a.core == core && a.quad == quad).foldl (fun k a => k + a.grant) 0

def execTgrow (f : Fields) (s : State) : Host.Outcome State Fault Refusal :=
  issue (.tgrow f) f s fun c s =>
    let n := c.va.scalar.toNat
    if c.det && n != 0 then .det
    else match s.array? c.w.core c.w.quad c.w.bank with
      | some a =>
        if a.holder == c.w.node && a.grant ≥ 1 && decide (unitsGranted s c.w.core c.w.quad + n ≤ Config.accUnits) then
          .done (c.putScalar (s.setArray { a with grant := a.grant + n }) 1 (a.grant + n))
        else .done (c.putScalar s 1 (failWord fGRANT))
      | none => .done (c.putScalar s 1 (failWord fGRANT))

/-! ### `tabort` (R308) -/

/-- Removes an unsubmitted node with its edges. -/
def freeUnsubmitted (s : State) (n : Node) : State := (s.releaseDependents n.nid).freeNode n

def execTabortNode (f : Fields) (s : State) : Host.Outcome State Fault Refusal :=
  issue (.tabortNode f) f s fun c s => match ownHandle s c c.va.scalar.toNat with
    | some n => .done (c.putScalar (freeUnsubmitted s n) 1 0)
    | none => .done (c.putScalar s 1 (failWord fHANDLE))

/-- Every wave of a task stops and halts (R308 step 1), one that has to leave a troupe once it may (R200). -/
def haltAll (s : State) (nid : Nat) : State :=
  let s := s.dropWaiters fun wid => match s.wave? wid with | some w => w.node == nid | none => false
  (s.waves.filter fun w => w.node == nid).foldl (fun s w =>
    if w.st == .halting || w.st == .halted then s
    else if leaveHeld s w then s.setWave { w with ending := true, held := false }
    else haltWave s w) s

/-- A task that ends keeps the writes it has made, in memory or in its family's version (R308 step 3): its waves halt and no
other is placed, and an engine node's job ends where it stands. -/
def abortAlone (s : State) (n : Node) : State :=
  if n.kind == .eng then
    { s.setNode { n with status := 2, stage := .complete } with entries := s.entries.filter fun e => e.node != n.nid }
  else (haltAll s n.nid).setNode { n with status := 2, placed := max n.placed n.launch.waves }

/-- Ends the children a task created while it was speculative (R308 step 2): its unsubmitted nodes are freed, provisional
children not dispatched are cancelled, and those that have begun end alone. -/
def abortChildren (s : State) (nid : Nat) : State :=
  let s := (s.nodes.filter fun n => n.creator == some nid && n.stage == .unsubmitted).foldl freeUnsubmitted s
  let waiting := (s.nodes.filter fun n => n.creator == some nid && n.birth.isSome && (n.stage == .waiting || n.stage == .ready)).map (·.nid)
  let s := s.cancelNodes waiting
  (s.nodes.filter fun n => n.creator == some nid && n.birth.isSome && n.stage == .running).foldl abortAlone s

/-- `tabort.self` (R308). -/
def abortSelf (s : State) (n : Node) : State :=
  let owns : Option Family := match n.fam.bind s.fam? with
    | some f => if f.owner == n.nid && f.st != .direct then some f else none
    | none => none
  match owns with
  | some f =>
    let s := s.cancelMembers n.nid n.fam
    let s := s.cancelNodes ((s.nodes.filter fun m => m.birth == some f.fid || (m.creator == some n.nid && m.stage == .unsubmitted)).map (·.nid))
    let s := (s.rangeRecs n.nid).foldl (fun s r => s.appendRec r .nothing) s
    let s := s.dropWaves fun w => w.node == n.nid
    (s.discardFamily f.fid).setNode { n with fam := none, status := 1, stage := .complete }
  | none => abortAlone (abortChildren s n.nid) n

def execTabortSelf (f : Fields) (s : State) : Host.Outcome State Fault Refusal :=
  issue (.tabortSelf f) f s fun c s => .final (abortSelf s (s.nodeOf c.w))

end Sys2Proof.Machine
end

