-- ==== Sys2Proof/Machine/Bank.lean ====
section
/-! DEFINITION. Class BNK: leases, bank commands and their performing, and base-die reduction jobs (R249, R250, R350 to
R374). -/

namespace Sys2Proof.Machine

/-! ### Walks (R350, R351) -/

/-- The pseudo-channel and stack of a physical address (R161, R350). -/
def pchOf (pa : Nat) : Nat := pa / 2 ^ 30 % 512
def stackOf (pa : Nat) : Nat := pa / 2 ^ 36 % 8

/-- The first address of page k of a walk. -/
def walkVa (va k : Nat) : Nat := if k == 0 then va else va / 8192 * 8192 + 8192 * k + va % 8192 / 512 * 512

/-- The physical page of a checked bank-local address, or the cause and address that fail (R358, R371). -/
def bankPage (s : State) (asid va : Nat) (w : Want) : Except (Nat × Nat) Nat :=
  match s.laneCheck asid va 1 w with
  | some cause => .error (cause, va)
  | none => match s.lookup asid va w with
    | none => .error (cNOTMAPPED, va)
    | some t =>
      if !t.bank || decide (t.pa ≥ Config.hbmEnd) || s.deadPchs.contains (pchOf t.pa) then .error (cBANKMAP, va)
      else .ok (t.pa / 8192 * 8192)

/-- The pages of a walk of n columns (R351). -/
def walkPages (s : State) (asid va n : Nat) (w : Want) : Except (Nat × Nat) (List Nat) :=
  (List.range ((va / 32 % 16 + n - 1) / 16 + 1)).foldlM (fun ps k => do
    let p ← bankPage s asid (walkVa va k) w
    match ps.getLast? with
    | some q => if pchOf p == pchOf q && p / 8192 == q / 8192 + 1 then .ok (ps ++ [p]) else .error (cBANKMAP, walkVa va k)
    | none => .ok [p]) []

/-- The physical address of column c of a walk in bank b. -/
def colAddr (pages : List Nat) (va b c : Nat) : Nat :=
  let k := va / 32 % 16 + c
  pages.getD (k / 16) 0 + 512 * b + 32 * (k % 16)

/-- The virtual address of column c of a walk in bank b. -/
def colVa (va b c : Nat) : Nat :=
  let k := va / 32 % 16 + c
  walkVa va (k / 16) / 8192 * 8192 + 512 * b + 32 * (k % 16)

/-! ### Leases (R354) -/

def State.pch? (s : State) (num : Nat) : Option Pch := s.pchs.find? fun p => p.num == num
def State.setPch (s : State) (p : Pch) : State := { s with pchs := modify (fun x => x.num == p.num) (fun _ => p) s.pchs }
def State.freePch (s : State) (num : Nat) : State := { s with pchs := s.pchs.filter fun p => p.num != num }

/-- The status and state of `bkmode` at a pseudo-channel (R354). -/
def bkmodeAt (s : State) (num node wid op : Nat) : Nat × State :=
  match s.pch? num with
  | none => if op == 0 then (0, { s with pchs := { num := num, holder := node, acqWave := wid } :: s.pchs }) else (2, s)
  | some p =>
    if p.holder != node then (if op == 0 then 1 else 2, s)
    else match op with
      | 0 => (0, s)
      | 1 => (0, s.setPch { p with all := true })
      | 2 => (0, s.setPch { p with all := false })
      | _ => (0, s.freePch num)

/-! ### The order of bank commands (R249, R358) -/

/-- The pages that a `bkfn` names. -/
def fnPages (s : State) (asid va n : Nat) : Except (Nat × Nat) (List Nat) :=
  (List.range n).foldlM (fun ps k => do
    let p ← bankPage s asid (if k == 0 then va else va / 8192 * 8192 + 8192 * k) .read
    .ok (ps ++ [p])) []

/-- The pseudo-channels a command reaches, or none where its address does not translate. -/
def cmdPchs (s : State) (c : BankCmd) : Option (List Nat) :=
  match c.op with
  | .fnIn n | .fnOut n => match fnPages s c.asid c.addr n with | .ok ps => some ((ps.map pchOf).dedup) | .error _ => none
  | _ => match s.translate c.asid c.addr with | some t => some [pchOf t.pa] | none => none

/-- Whether two commands may meet in a bank queue. -/
def pchsMeet (a b : Option (List Nat)) : Bool :=
  match a, b with
  | some x, some y => x.any fun p => y.contains p
  | _, _ => true

/-- The speculative family of a task, if any. -/
def cmdFam (s : State) (node : Nat) : Option Nat := (s.node? node).bind (specFamily s)

/-- Commands that need a non-speculative family (R324, R372). -/
def BankOp.needsDirect : BankOp → Bool
  | .op _ row _ _ _ _ _ => row
  | .st _ _ | .fnIn _ => true
  | _ => false

/-- Whether a command lies in the save area of its context (R440). -/
def cmdSaved (s : State) (c : BankCmd) : Bool := match s.ctx? c.asid with | some x => x.wd == .saved | none => false

/-- A command that its controller holds: a faulting one, one of a family that may not write yet, or one that is saved. -/
def cmdStopped (s : State) (c : BankCmd) : Bool :=
  c.fault.isSome || cmdSaved s c || (c.op.needsDirect && ((cmdFam s c.node).isSome || famWaits s c.node))

/-- A command that is in no bank queue: one that its controller holds, and the wave's later ones to its pseudo-channels (R371,
R372). -/
def cmdHeld (s : State) (c : BankCmd) : Bool :=
  cmdStopped s c || s.bcmds.any fun x =>
    x.wid == c.wid && decide (x.cid < c.cid) && cmdStopped s x && pchsMeet (cmdPchs s x) (cmdPchs s c)

/-- Whether a command may be performed now: a wave's commands are performed in issue order, those of different waves in the order
of their arrival, which is open, and none while another is at work in a common bank queue (R249, R358; log entry 16). -/
def cmdTurn (s : State) (c : BankCmd) : Bool :=
  let mine := cmdPchs s c
  !(s.bcmds.any fun x => x.cid != c.cid && ((x.pos != 0 && !cmdSaved s x) || (x.wid == c.wid && decide (x.cid < c.cid))) && pchsMeet (cmdPchs s x) mine)

/-! ### Abacus arithmetic (R353, R361 to R363) -/

def Abacus.raise (a : Abacus) (fl : Flags) : Abacus := { a with flags := a.flags ||| (fl &&& 0x1D) }
def Abacus.baAt (a : Abacus) (r i : Nat) : Nat := (a.ba.getD r []).getD i 0
def Abacus.boAt (a : Abacus) (r i : Nat) : Nat := (a.bo.getD r []).getD i 0
def Abacus.setBa (a : Abacus) (r : Nat) (v : List Nat) : Abacus := { a with ba := a.ba.set r v }
def Abacus.setBo (a : Abacus) (r : Nat) (v : List Nat) : Abacus := { a with bo := a.bo.set r v }

/-- The format of a bank command's suffix. -/
def bankFp (fmt : Nat) : Fp := if fmt == 0 then fp16 else Sys2Proof.Machine.bf16

/-- One column of `bkmac` (R361). -/
def macCol (fmt t sc : Nat) (col : List Byte) (a : Abacus) : Abacus :=
  let r := (List.range 16).map fun i =>
    if fmt == 2 then
      let v := (a.baAt t i : Int) + sext 8 (byteN col (2 * i)) * sext 8 sc + sext 8 (byteN col (2 * i + 1)) * sext 8 (sc / 256)
      (wrap 32 v, 0)
    else
      let p := bankFp fmt
      let (x, fl) := FV.fma mRNE (p.decode (bytesNat col (2 * i) 2)) (p.decode sc) (fp32.decode (a.baAt t i))
      let (y, fr) := fp32.round mRNE false x
      (y, fl ||| fr)
  (a.setBa t (r.map (·.1))).raise (r.foldl (fun f x => f ||| x.2) 0)

/-- The exact value of `bkop` in one element (R362). -/
def opValue (op : Nat) (a b sg : FV) : FV × Flags :=
  match op with
  | 0 => FV.add mRNE a b
  | 1 => FV.mul a b
  | 4 => FV.fma mRNE sg b a
  | 5 => FV.mul sg a
  | _ =>
    let (k, fl) := FV.pick (op == 2) a b
    (match k with | some true => a | some false => b | none => .nan false, fl)

/-- One column of `bkop`: the results in a format, with flags. -/
def opCol (op fmt bo sel : Nat) (out : Fp) (col : List Byte) (a : Abacus) : List Nat × Flags :=
  let p := bankFp fmt
  let r := (List.range 16).map fun i =>
    let (v, fl) := opValue op (p.decode (bytesNat col (2 * i) 2)) (p.decode (a.boAt bo i)) (p.decode (a.boAt 2 sel))
    let (y, fr) := out.round mRNE false v
    (y, fl ||| fr)
  (r.map (·.1), r.foldl (fun f x => f ||| x.2) 0)

/-- The columns that `bkst` writes, with flags (R363). -/
def stCols (reg cv : Nat) (a : Abacus) : List (List Byte) × Flags :=
  if reg < 8 then
    if cv == 0 then
      let w (k : Nat) := (List.range 8).flatMap fun i => leBytes 4 (a.baAt reg (8 * k + i))
      ([w 0, w 1], 0)
    else
      let p := bankFp (cv - 1)
      let r := (List.range 16).map fun i =>
        let v := fp32.decode (a.baAt reg i)
        let (y, fl) := p.round mRNE false v
        (y, fl ||| flagIf v.isSig fNV)
      ([r.flatMap fun x => leBytes 2 x.1], r.foldl (fun f x => f ||| x.2) 0)
  else ([(List.range 16).flatMap fun i => leBytes 2 (a.boAt (reg - 8) i)], 0)

/-! ### Performing (R249, R360 to R365) -/

/-- A column of DRAM under its virtual address. -/
def dramCol (s : State) (asid va pa : Nat) : List Byte := s.dramBytes asid va pa 32

/-- Writes a column in DRAM as software, and remembers it for `bkfn.out`. -/
def putCol (s : State) (asid va pa : Nat) (bs : List Byte) : State :=
  { (s.dramPut asid va pa bs).noteWrite asid va bs.length false with
    bankWritten := if s.bankWritten.contains pa then s.bankWritten else pa :: s.bankWritten }

/-- The banks that a walking command reaches (R354). -/
def reached (p : Pch) (va : Nat) : List Nat := if p.all then List.range 16 else [va / 512 % 16]

/-- Replaces one unit of a pseudo-channel. -/
def onUnit (s : State) (num b : Nat) (g : Abacus → Abacus) : State :=
  match s.pch? num with
  | some p => s.setPch { p with units := p.units.set b (g (p.units.getD b {})) }
  | none => s

/-- Counts a command performed at banks under a lease (R353). -/
def countCmd (s : State) (num : Nat) (banks : List Nat) : State :=
  banks.foldl (fun s b => onUnit s num b fun a => { a with cmds := (a.cmds + 1) % 65536 }) s

def unitAt (s : State) (num b : Nat) : Abacus := match s.pch? num with | some p => p.units.getD b {} | none => {}

/-- `bkbc` at one bank: the elements of the lanes in m (R360). -/
def bcUnit (reg b0 : Nat) (all : Bool) (m : Word) (vals : List Nat) (b : Nat) (a : Abacus) : Abacus :=
  let per := if reg < 8 then 16 else 8
  let lane0 := if all then 0 else per * (b - b0)
  let on (l : Nat) : Bool := lane m l
  if reg < 8 then
    a.setBa reg ((List.range 16).map fun i => if on (lane0 + i) then vals.getD (lane0 + i) 0 % 2 ^ 32 else a.baAt reg i)
  else
    a.setBo (reg - 8) ((List.range 16).map fun i =>
      let l := lane0 + i / 2
      if on l then vals.getD l 0 / 65536 ^ (i % 2) % 65536 else a.boAt (reg - 8) i)

/-- The word that lane l of register j of a `bkrd` receives (R364). -/
def rdWord (s : State) (num reg b0 j l : Nat) : Nat :=
  if reg < 8 then (unitAt s num (b0 + 2 * j + l / 16)).baAt reg (l % 16)
  else if reg < 11 then
    let a := unitAt s num (b0 + 4 * j + l / 8)
    a.boAt (reg - 8) (2 * (l % 8)) + 65536 * a.boAt (reg - 8) (2 * (l % 8) + 1)
  else if l < 16 then
    let a := unitAt s num l
    a.flags + 65536 * a.cmds
  else 0

/-- Writes back the dirty on-chip lines of physical pages, whatever agent wrote them (R249). -/
def writeBackPages (s : State) (pages : List Nat) : State :=
  (s.homes.filter fun h => pages.contains (h.tr.pa / 8192 * 8192)).foldl State.writeBack s

/-- Whether two addresses lie in one DRAM row of a bank (R350). -/
def sameRow (a b : Nat) : Bool := a / 16384 == b / 16384 && a / 512 % 16 == b / 512 % 16

/-- The largest mark of evicted lines on the part: it covers every line that has left its home (R236). -/
def evictedMax (s : State) : Nat := s.evicted.foldl (fun m e => max m e.2) 0

/-- Invalidates the on-chip copies of the rows that bank commands wrote in pseudo-channels; the columns written keep their
DRAM value, and other dirty bytes of a line are written back. The largest Emax is answered, that of lines gone before among
them (R236, R249). -/
def dropWritten (s : State) (nums : List Nat) : Nat × State :=
  let cols := s.bankWritten.filter fun pa => nums.contains (pchOf pa)
  let hit (h : HomeLine) : Bool := cols.any fun pa => sameRow pa h.tr.pa
  let r := (s.homes.filter hit).foldl (fun (e, s) h =>
    let byte (i : Nat) : Byte := if cols.any fun pa => decide (pa ≤ h.tr.pa + i ∧ h.tr.pa + i < pa + 32) then s.mem.get (h.tr.pa + i)
      else h.data.getD i unlisted
    let s := if h.dirty then s.memPut h.tr.pa ((List.range 128).map byte) h.tr.bank else s
    (max e h.emax, s.raiseMark (State.sliceOf (h.line * 128) h.tr) h.emax)) (evictedMax s, s)
  (r.1, { r.2 with homes := r.2.homes.filter fun h => !hit h
                   bankWritten := r.2.bankWritten.filter fun pa => !nums.contains (pchOf pa) })

/-- The fields of a check: the pages a command's walk uses. -/
def walkOf (s : State) (c : BankCmd) : Except (Nat × Nat) (List Nat) :=
  match c.op with
  | .mac _ n _ _ _ => walkPages s c.asid c.addr n .read
  | .op _ row _ n _ _ _ => walkPages s c.asid c.addr n (if row then .write else .read)
  | .st reg cv => walkPages s c.asid c.addr (if reg < 8 && cv == 0 then 2 else 1) .write
  | .fnIn n | .fnOut n => fnPages s c.asid c.addr n
  | _ => match bankPage s c.asid c.addr .read with | .ok p => .ok [p] | .error e => .error e

/-- A deferred fault of a bank command, by R371 and R373; none where it may be performed. -/
def cmdCheck (s : State) (c : BankCmd) : Except Deferred (List Nat) :=
  match walkOf s c with
  | .error (cause, addr) => .error { code := codeOf cause, cause := cause, addr := addr, mask := allLanes }
  | .ok pages => match c.op with
    | .fnIn _ | .fnOut _ => .ok pages
    | _ => match s.pch? (pchOf (pages.getD 0 0)) with
      | none => .error { code := kILLOPND, cause := cLEASE }
      | some p =>
        if p.holder != c.node then .error { code := kILLOPND, cause := cLEASE }
        else if (match s.node? c.node with | some n => n.launch.det | none => false) && p.acqWave != c.wid then .error { code := kDET }
        else .ok pages

/-- Columns of a command's walk; a command without a walk is performed at once. -/
def BankOp.columns : BankOp → Nat
  | .mac _ n _ _ _ | .op _ _ _ n _ _ _ => n
  | .st reg cv => if reg < 8 && cv == 0 then 2 else 1
  | _ => 1

/-- The effect of a checked command at column k of its walk (R249, R360 to R365): the command counts with its last column. -/
def performCmd (s : State) (c : BankCmd) (pages : List Nat) (k : Nat) : State :=
  let num := pchOf (pages.getD 0 0)
  let countCmd (s : State) (num : Nat) (banks : List Nat) : State := if k + 1 < c.op.columns then s else countCmd s num banks
  let p := (s.pch? num).getD { num := num, holder := 0, acqWave := 0 }
  match c.op with
  | .bc all reg b0 m vals =>
    let banks := if all then List.range 16 else (List.range (if reg < 8 then 2 else 4)).map fun i => b0 + i
    countCmd (banks.foldl (fun s b => onUnit s num b (bcUnit reg b0 all m vals b)) s) num banks
  | .mac fmt _ d g s0 =>
    let banks := reached p c.addr
    countCmd (banks.foldl (fun s b =>
      onUnit s num b fun a => macCol fmt (d + k % g) (a.boAt 2 ((s0 + k / g) % 16)) (dramCol s c.asid (colVa c.addr b k) (colAddr pages c.addr b k)) a) s)
      num banks
  | .op op row fmt _ d bo sel =>
    let banks := reached p c.addr
    countCmd (banks.foldl (fun s b =>
      let pa := colAddr pages c.addr b k
      let (r, fl) := opCol op fmt bo sel (if row then bankFp fmt else fp32) (dramCol s c.asid (colVa c.addr b k) pa) (unitAt s num b)
      let s := if row then putCol s c.asid (colVa c.addr b k) pa (r.flatMap fun x => leBytes 2 x)
        else onUnit s num b fun a => a.setBa ((d + k) % 8) r
      onUnit s num b fun a => a.raise fl) s) num banks
  | .st reg cv =>
    let banks := reached p c.addr
    countCmd (banks.foldl (fun s b =>
      let (cols, fl) := stCols reg cv (unitAt s num b)
      let s := match cols[k]? with | some x => putCol s c.asid (colVa c.addr b k) (colAddr pages c.addr b k) x | none => s
      onUnit s num b fun a => a.raise fl) s) num banks
  | .rd gid reg b0 count m =>
    let vals := (laneList.filter fun l => lane m l).map fun l =>
      (l, (List.range count).foldl (fun v j => v + rdWord s num reg b0 j l * 2 ^ (32 * j)) 0)
    let banks := if reg == 11 then List.range 16 else (List.range ((if reg < 8 then 2 else 4) * count)).map fun i => b0 + i
    countCmd { s with lands := modify (fun l => l.gid == gid) (fun l => { l with ready := true, vals := vals }) s.lands } num banks
  | .fnIn _ => ((pages.map pchOf).dedup).foldl (fun s q => countCmd s q (List.range 16)) (writeBackPages s pages)
  | .fnOut _ =>
    let nums := (pages.map pchOf).dedup
    let (e, s) := dropWritten s nums
    let s := match s.wave? c.wid with | some w => s.setWave { w with relMark := max w.relMark e } | none => s
    let s := noteGwct s c.node e
    nums.foldl (fun s q => countCmd s q (List.range 16)) s

/-- Whether a page of a command is under migration (R371). -/
def pageLocked (s : State) (asid va : Nat) : Bool :=
  match s.ctx? asid with | some c => c.migs.any fun m => m.started && m.va / 8192 == va / 8192 | none => false

/-- The pages that a command reaches, by virtual address. -/
def cmdPages (c : BankCmd) : List Nat :=
  match c.op with
  | .fnIn n | .fnOut n => (List.range n).map fun k => c.addr + 8192 * k
  | .mac _ _ _ _ _ | .op _ _ _ _ _ _ _ | .st _ _ => (List.range ((c.addr / 32 % 16 + c.op.columns - 1) / 16 + 1)).map (walkVa c.addr)
  | .bc _ _ _ _ _ | .rd _ _ _ _ _ => [c.addr]

/-- A command that cannot be performed keeps its fault for its wave; that of a Halting wave is reported and discarded (R116,
R371). Repeats are counted for the access that faults: another one starts at 0 (R173). -/
def faultCmd (s : State) (c : BankCmd) (d : Deferred) : State :=
  let s := s.noteFault c.asid d.cause d.addr
  match (s.wave? c.wid).filter fun w => w.st == .halting with
  | some w => discardBank (haltingFault s w d 4) c
  | none =>
    let stop (x : BankCmd) : BankCmd :=
      { x with fault := some d, count := if x.fkey == some d.addr then x.count else 0, fkey := some d.addr }
    { s with bcmds := modify (fun x => x.cid == c.cid) stop s.bcmds }

/-- Performs the next column of a command's walk: the bank queues hold the command until its last (R356). -/
def stepCmd (s : State) (c : BankCmd) (pages : List Nat) : State :=
  let s := performCmd s c pages c.pos
  if c.pos + 1 < c.op.columns then
    { s with bcmds := modify (fun x => x.cid == c.cid) (fun x => { x with pos := c.pos + 1, pages := pages }) s.bcmds }
  else
    let s := { s with bcmds := s.bcmds.filter fun x => x.cid != c.cid }
    if c.op.counted then lessOutst s c.wid 1 else s

/-- The pages of a walk that has begun, at the new place of one that has moved (R252, R371). -/
def pagesNow (s : State) (c : BankCmd) : List Nat :=
  c.pages.zipIdx.map fun x => match bankPage s c.asid (walkVa c.addr x.2) .read with | .ok p => p | .error _ => x.1

/-- The pages that the next column of a walk uses: the command is checked when it is translated, at its start and again when a page
of it has moved (R371). -/
def checkedPages (s : State) (c : BankCmd) : Except Deferred (List Nat) :=
  if c.pos == 0 || pagesNow s c != c.pages then cmdCheck s c else .ok c.pages

/-- A bank command at the head of its queues: it faults, makes its family enter HOLD, or is performed, column by column. -/
def runCmd (s : State) (c : BankCmd) : State :=
  match checkedPages s c with
  | .error d => faultCmd s c d
  | .ok pages => match if c.op.needsDirect then cmdFam s c.node else none with
    | some f => s.enterHold f
    | none => stepCmd s c pages

/-- Whether the controller may take a command now, or the banks go on with it, also while its context is being saved: none of its pages is under migration (R371), and a
`bkfn.in` follows every earlier access of its wave (R247, R249). -/
def cmdReady (s : State) (c : BankCmd) : Bool :=
  c.fault.isNone && cmdTurn s c && !(c.op.needsDirect && famWaits s c.node)
    && !((cmdPages c).any (pageLocked s c.asid)) && !s.anyParked
    && (ctxRuns s c.asid || (c.pos != 0 && (match s.ctx? c.asid with | some x => x.wd == .saving && !s.plat.stopped | none => false)))
    && (match c.op with
      | .fnIn _ => storesAcked s c.wid c.cid && !(s.accs.any fun a => a.wid == c.wid && decide (a.id < c.cid))
      | _ => true)

/-- A released command whose wave stands in an active bank again has no fault any more (R94, R201). -/
def awake (s : State) (c : BankCmd) : BankCmd :=
  match c.fault, s.wave? c.wid with
  | some d, some w => if d.again && returned s w then { c with fault := none } else c
  | _, _ => c

/-- R249. -/
def execBankCommandPerform (command : Nat) (s : State) : Host.Outcome State Fault Refusal :=
  match s.bcmds.find? fun c => c.cid == command with
  | some c0 =>
    let c := awake s c0
    if cmdReady s c then .next (runCmd { s with bcmds := modify (fun x => x.cid == c.cid) (fun _ => c) s.bcmds } c) else .next s
  | none => .next s

/-- On a release the controller is to translate the command again and perform it (R371). -/
def resumeBank (s : State) (c : BankCmd) : State :=
  let free (d : Deferred) : Deferred := { d with told := false, again := true }
  { s with bcmds := modify (fun x => x.cid == c.cid) (fun x => { x with fault := x.fault.map free }) s.bcmds }

/-! ### Issue (R357 to R365) -/

/-- A wave's uncompleted bank commands (R358). -/
def bankLimit : Nat := 64

/-- Queues a bank command of the issuing wave. -/
def sendCmd (c : Ctx) (s : State) (op : BankOp) : Act :=
  if (s.bcmds.filter fun x => x.wid == c.w.wid).length ≥ bankLimit || (op.counted && outstFull c.w 1) then .wait
  else
    let (cid, s) := s.fresh
    let s := { s with bcmds := s.bcmds ++ [{ cid := cid, wid := c.w.wid, node := c.w.node, asid := c.w.asid, core := c.w.core
                                             pc := c.w.pc, addr := c.va.scalar64, op := op }] }
    .done (if op.counted then addOutst s c.w.wid 1 else s)

/-- `bkmode` (R354, R359): the wave waits for the earlier commands of the pseudo-channel. -/
def bkmode (c : Ctx) (s : State) (op : Nat) : Act :=
  withDelivery c s false true <|
    let va := c.va.scalar64
    match s.laneCheck c.w.asid va 1 .read with
    | some cause => .replay s cause va c.w.exec allLanes none
    | none => match s.lookup c.w.asid va .read with
      | none => .replay s cNOTMAPPED va c.w.exec allLanes none
      | some t =>
        let num := pchOf t.pa
        if !t.bank || decide (t.pa ≥ Config.hbmEnd) || s.deadPchs.contains num then .done (c.putScalar s 1 3)
        else if s.bcmds.any fun x => (x.wid == c.w.wid || !cmdHeld s x) && pchsMeet (cmdPchs s x) (some [num]) then .wait
        else
          let (st, s) := bkmodeAt s num c.w.node c.w.wid op
          if c.det && op == 0 && st == 1 then .det else .done (c.putScalar s 1 st)

def execBkmodeAcq (f : Fields) (s : State) : Host.Outcome State Fault Refusal := issue (.bkmodeAcq f) f s fun c s => bkmode c s 0
def execBkmodeAll (f : Fields) (s : State) : Host.Outcome State Fault Refusal := issue (.bkmodeAll f) f s fun c s => bkmode c s 1
def execBkmodeOne (f : Fields) (s : State) : Host.Outcome State Fault Refusal := issue (.bkmodeOne f) f s fun c s => bkmode c s 2
def execBkmodeRel (f : Fields) (s : State) : Host.Outcome State Fault Refusal := issue (.bkmodeRel f) f s fun c s => bkmode c s 3

/-- R360. -/
def execBkbc (f : Fields) (s : State) : Host.Outcome State Fault Refusal :=
  issue (.bkbc f) f s fun c s => withDelivery c s false true <|
    sendCmd c s (.bc (f.m 0 0 == 1) (f.e 3 0) (f.e 7 4) c.m (laneList.map fun l => (c.vb.w l).toNat))

/-- The checks of a walk at issue (R361, R362): the count, and the alignment of A. -/
def walkIssue (c : Ctx) (s : State) (n limit : Nat) (op : BankOp) : Act :=
  withDelivery c s false true <|
    if n > limit || c.va.scalar64 % 32 != 0 then .illopnd else if n == 0 then .done s else sendCmd c s op

/-- R361. -/
def execBkmac (f : Fields) (s : State) : Host.Outcome State Fault Refusal :=
  issue (.bkmac f) f s fun c s =>
    let n := c.vb.scalar.toNat
    walkIssue c s n 4096 (.mac (f.m 1 0) n (f.e 2 0) (f.e 5 3 + 1) (f.e 9 6))

/-- R362: a row destination sets no limit on n. -/
def execBkop (f : Fields) (s : State) : Host.Outcome State Fault Refusal :=
  issue (.bkop f) f s fun c s =>
    let n := c.vb.scalar.toNat
    let row := f.m 3 3 == 1
    walkIssue c s n (if row then 2 ^ 32 else 8) (.op (f.m 2 0) row (f.m 5 4) n (f.e 2 0) (f.e 3 3) (f.e 7 4))

/-- R363. -/
def execBkst (f : Fields) (s : State) : Host.Outcome State Fault Refusal :=
  issue (.bkst f) f s fun c s => walkIssue c s 1 1 (.st (f.e 3 0) (f.e 5 4))

/-- R364. -/
def execBkrd (f : Fields) (s : State) : Host.Outcome State Fault Refusal :=
  issue (.bkrd f) f s fun c s => withDelivery c s false true <|
    match c.d with
    | some (.v r) =>
      let count := f.e 10 8 + 1
      let (gid, s) := s.fresh
      let s := openLanding s c.w gid (.vec r count) true false []
      let s := { s with lands := modify (fun l => l.gid == gid) (fun l => { l with ready := false }) s.lands }
      sendCmd c s (.rd gid (f.e 3 0) (f.e 7 4) count c.m)
    | _ => .done s

/-- The pages of `bkfn` (R365). -/
def fnLimit : Nat := 65536

def bkfn (c : Ctx) (s : State) (out : Bool) : Act :=
  withDelivery c s false true <|
    let n := c.vb.scalar.toNat
    if n > fnLimit then .illopnd else if n == 0 then .done s else sendCmd c s (if out then .fnOut n else .fnIn n)

def execBkfnIn (f : Fields) (s : State) : Host.Outcome State Fault Refusal := issue (.bkfnIn f) f s fun c s => bkfn c s false
def execBkfnOut (f : Fields) (s : State) : Host.Outcome State Fault Refusal := issue (.bkfnOut f) f s fun c s => bkfn c s true

/-! ### Reduction jobs (R250, R366 to R369) -/

/-- Jobs an engine holds (R366). -/
def jobLimit : Nat := 16

/-- The job of a valid parameter block. -/
def jobOf (bs : List Byte) (jid wid node asid : Nat) (pc : Word64) (stack : Nat) : Job :=
  { jid := jid, wid := wid, node := node, asid := asid, pc := pc, stack := stack, sbase := bytesNat bs 0 8, dst := bytesNat bs 8 8
    flag := bytesNat bs 0x10 8, len := bytesNat bs 0x18 4, ty := byteN bs 0x1C
    soffs := (List.range (byteN bs 0x1D)).map fun i => bytesNat bs (0x20 + 2 * i) 2 }

/-- The stack whose engine a reduction node needs. -/
def redStack (s : State) (n : Node) : Nat :=
  match s.lookup n.asid (bytesNat n.card 8 8) .write with | some t => stackOf t.pa | none => 0

/-- R366; a place that is reserved for a `.red` node is not taken (R311). -/
def execBred (f : Fields) (s : State) : Host.Outcome State Fault Refusal :=
  issue (.bred f) f s fun c s => withDelivery c s false true <|
    let addr := c.va.scalar64
    if addr % 64 != 0 then .done (c.putScalar s 1 1)
    else withRead c s addr 64 fun bs s =>
      if !blockOk addr bs then .done (c.putScalar s 1 1)
      else
        let dst := bytesNat bs 8 8
        match s.laneCheck c.w.asid dst 1 .write with
        | some cause => .replay s cause dst c.w.exec allLanes none
        | none =>
          let stack := match s.lookup c.w.asid dst .write with | some t => stackOf t.pa | none => 0
          if (s.jobs.filter fun j => j.stack == stack).length ≥ jobLimit then .queue (unitWait s (unitReduce stack) c.w.wid)
          else if !unitTurn s (unitReduce stack) c.w.wid || reservedFor s (fun m => m.kind == .red && redStack s m == stack) then
            .queue (unitWait s (unitReduce stack) c.w.wid)
          else
            let (jid, s) := (unitLeave s (unitReduce stack) c.w.wid).fresh
            let s := { s with jobs := s.jobs ++ [jobOf bs jid c.w.wid c.w.node c.w.asid c.w.pc stack] }
            let s := match specFamily s c.node with | some fid => s.enterHold fid | none => s
            .done (c.putScalar s 1 0)

/-- Element bytes of a job's type. -/
def jobSize (ty : Nat) : Nat := if ty == 1 || ty == 2 then 2 else 4

/-- The record of a job's fault (R368). -/
def jobFault (s : State) (j : Job) (cause addr : Nat) : State :=
  let task := match s.node? j.node with | some n => State.taskId n | none => 0
  let count := if j.fkey == some addr then j.count + 1 else 0
  let stop (_ : Job) : Job := { j with stopped := true, fkey := some addr, count := count }
  let s := { s.noteFault j.asid cause addr with jobs := modify (fun x => x.jid == j.jid) stop s.jobs }
  s.appendRec { code := codeOf cause, cause := cause, flags := 1 + s.partialFlag j.node, source := 8, task := task, pc := j.pc
                addr := BitVec.ofNat 64 addr, asid := j.asid, slot := j.stack, info := count } (.job j.jid)

/-- The page addresses of n bytes from an address. -/
def pagesOf (va n : Nat) : List Nat :=
  (List.range ((va + n - 1) / 8192 - va / 8192 + 1)).map fun i => if i == 0 then va else (va / 8192 + i) * 8192

/-- What the translation of a job's ranges finds. -/
inductive JobCheck where
  | ok
  | place
  | fault (cause addr : Nat)

/-- Translates every page of the sources and of the destination (R368). -/
def jobCheck (s : State) (j : Job) : JobCheck :=
  let n := j.len * jobSize j.ty
  let reads := j.soffs.flatMap fun o => (pagesOf (j.sbase + o * 8192) n).map fun p => (p, false)
  let all := reads ++ (pagesOf j.dst n).map fun p => (p, true)
  let fault := all.findSome? fun (p, w) => (s.laneCheck j.asid p 1 (if w then .write else .read)).map fun c => (c, p)
  match fault with
  | some (c, p) => .fault c p
  | none =>
    if all.any fun (p, w) => (match s.lookup j.asid p (if w then .write else .read) with
      | some t => t.pa ≥ Config.hbmEnd || stackOf t.pa != j.stack || (w && (t.home == 1 || t.home == 2))
      | none => true) then .place else .ok

/-- The bytes of a range in DRAM, after its dirty on-chip lines have been written back; a cluster atomic unit returns them (R203). -/
def dramRange (s : State) (asid va n : Nat) : List Byte × State :=
  (linePieces va n).foldl (fun (bs, s) (a, k) => match s.lookup asid a .read with
    | some t =>
      let s := s.leaveCluster none asid a
      let s := (s.homes.filter fun h => h.dirty && h.tr.pa == t.pa / 128 * 128).foldl State.writeBack s
      (bs ++ s.dramBytes asid a t.pa k, s.reach asid a t)
    | none => (bs ++ List.replicate k unlisted, s)) ([], s)

/-- A value that a node of the tree passes on: a NaN becomes the default NaN (R70, R85). -/
def jobPass (ty x : Nat) : Nat × Flags :=
  if ty == 3 then (x, 0)
  else
    let p := if ty == 0 then fp32 else if ty == 1 then Sys2Proof.Machine.bf16 else fp16
    if (p.decode x).isNan then (p.nan, flagIf (p.decode x).isSig fNV) else (x, 0)

/-- One node of the pairwise tree (R368). -/
def jobNode (ty : Nat) (a b : Option Nat) : Option Nat × Flags :=
  match a, b with
  | some x, some y =>
    if ty == 3 then (some ((x + y) % 2 ^ 32), 0)
    else
      let p := if ty == 0 then fp32 else if ty == 1 then Sys2Proof.Machine.bf16 else fp16
      let (v, fl) := (p.decode x).add mRNE (p.decode y)
      let (r, fr) := p.round mRNE false v
      (some r, fl ||| fr)
  | some x, none | none, some x => let (v, fl) := jobPass ty x; (some v, fl)
  | none, none => (none, 0)

/-- One level of the tree. -/
def jobLevel (ty : Nat) : List (Option Nat) → List (Option Nat) × Flags
  | a :: b :: l =>
    let (x, fl) := jobNode ty a b
    let (xs, fr) := jobLevel ty l
    (x :: xs, fl ||| fr)
  | l => (l, 0)

/-- The sum of 16 leaves in four levels. -/
def jobTree (ty : Nat) (leaves : List (Option Nat)) : Nat × Flags :=
  let r := (List.range 4).foldl (fun (l, f) _ => let (l, g) := jobLevel ty l; (l, f ||| g)) (leaves, 0)
  ((r.1.getD 0 none).getD 0, r.2)

/-- The sums of a job as bytes, with flags (R368). -/
def jobSums (s : State) (j : Job) : List Byte × Flags × State :=
  let sz := jobSize j.ty
  let (srcs, s) := j.soffs.foldl (fun (l, s) o =>
    let (b, s) := dramRange s j.asid (j.sbase + o * 8192) (j.len * sz)
    (l ++ [b], s)) ([], s)
  let r := (List.range j.len).map fun e => jobTree j.ty ((List.range 16).map fun i =>
    (srcs[i]?).map fun b => bytesNat b (sz * e) sz)
  (r.flatMap fun x => leBytes sz x.1, r.foldl (fun f x => f ||| x.2) 0, s)

/-- Writes DST in DRAM line by line from a position, invalidating the on-chip copies (R250); it stops at a failing
access. The largest Emax is kept. -/
def jobWrite (j : Job) (vals : List Byte) (flags : Nat) : List (Nat × Nat) → Nat → Nat → State → State
  | [], _, gw, s =>
    let flag (x : Job) : Job := { x with st := .flagging 0 flags (max gw s.ns), stopped := false }
    { s with jobs := modify (fun x => x.jid == j.jid) flag s.jobs }
  | (a, k) :: ps, done, gw, s =>
    match s.laneCheck j.asid a 1 .write, s.lookup j.asid a .write with
    | none, some t =>
      let s := s.leaveCluster none j.asid a
      let hit (h : HomeLine) : Bool := h.tr.pa == t.pa / 128 * 128
      let e := (s.homes.filter hit).foldl (fun e h => max e h.emax) (max gw (s.gwctOf j.asid a t))
      let s := (s.homes.filter hit).foldl State.evict s
      let s := s.noteWrite j.asid a k false
      jobWrite j vals flags ps (done + k) e (s.dramPut j.asid a t.pa ((vals.drop done).take k))
    | some c, _ => jobFault s { j with st := .writing vals done flags gw } c a
    | none, none => jobFault s { j with st := .writing vals done flags gw } cNOTMAPPED a

/-- The pieces of DST from a byte position on. -/
def jobPieces (j : Job) (done : Nat) : List (Nat × Nat) := linePieces (j.dst + done) (j.len * jobSize j.ty - done)

/-- DST overlaps a source otherwise than by coinciding with source 0: what the job writes is open (R368, R1). -/
def jobMeets (j : Job) : Bool :=
  let n := j.len * jobSize j.ty
  j.soffs.zipIdx.any fun (o, i) => let a := j.sbase + o * 8192
    decide (a < j.dst + n) && decide (j.dst < a + n) && !(i == 0 && a == j.dst)

/-- Performs a job up to its flag. -/
def runJob (s : State) (j : Job) : State :=
  match j.st with
  | .queued => match jobCheck s j with
    | .fault c a => jobFault s j c a
    | .place => { s with jobs := modify (fun x => x.jid == j.jid) (fun x => { x with st := .flagging 2 0 s.ns, stopped := false }) s.jobs }
    | .ok =>
      let (vals, fl, s) := jobSums s j
      if jobMeets j then
        let (vals, s) := freeBytes s vals.length
        let (k, s) := s.takeFree
        jobWrite j vals (Config.freeNat k % 128) (jobPieces j 0) 0 0 s
      else jobWrite j vals fl (jobPieces j 0) 0 0 s
  | .writing vals done fl gw => jobWrite j vals fl (jobPieces j done) done gw s
  | .flagging _ _ _ => s

/-- Whether a job is the one its engine performs and its conditions hold (R250, R325, R366, R368). -/
def jobReady (s : State) (j : Job) : Bool :=
  !s.anyParked && !j.stopped && (match j.st with | .flagging _ _ _ => false | _ => true)
    && (s.jobs.find? fun x => x.stack == j.stack).map (·.jid) == some j.jid
    && (cmdFam s j.node).isNone && !famWaits s j.node && storesAcked s j.wid j.jid
    && !(s.bcmds.any fun x => x.wid == j.wid && decide (x.cid < j.jid) && (match x.op with | .fnOut _ => true | _ => false))

def execBredJobStart (job : Nat) (s : State) : Host.Outcome State Fault Refusal :=
  match s.jobs.find? fun j => j.jid == job with
  | some j => if jobReady s j then .next (runJob s j) else .next s
  | none => .next s

/-- The flag word (R369). -/
def flagWord (status flags : Nat) : Nat := 1 + status * 2 ^ 8 + (flags &&& 0x7F) * 2 ^ 16

/-- Writes the flag and ends the job; the status of a `.red` node that has not been ended follows (R369). -/
def endJob (s : State) (j : Job) (status flags : Nat) : State :=
  match s.laneCheck j.asid j.flag 8 .write, s.lookup j.asid j.flag .write with
  | none, some t =>
    let s := if t.home == 3 then s else (s.leaveCluster none j.asid j.flag).ensureLine j.asid j.flag t
    let s := s.writeCommitted j.asid j.flag t (leBytes 8 (flagWord status flags))
    let s := { s with jobs := s.jobs.filter fun x => x.jid != j.jid }
    if j.byNode then
      match s.node? j.node with
      | some n => (if n.stage == .running then s.setNode { n with stage := .complete, status := if status == 0 then 0 else 4 } else s).settle
      | none => s
    else s.settle
  | some c, _ => jobFault s { j with st := .flagging status flags s.ns } c j.flag
  | none, none => jobFault s { j with st := .flagging status flags s.ns } cNOTMAPPED j.flag

def execBredJobComplete (job : Nat) (s : State) : Host.Outcome State Fault Refusal :=
  match s.jobs.find? fun j => j.jid == job with
  | some j => match j.st with
    | .flagging status flags gw => if !j.stopped && !s.anyParked && decide (s.ns ≥ gw + 2) then .next (endJob s j status flags) else .next s
    | _ => .next s
  | none => .next s

end Sys2Proof.Machine
end

