-- ==== Sys2Proof/Machine/Engine.lean ====
section
/-! DEFINITION. Class ENG: what an engine command puts into its queue (R334 to R345). -/

namespace Sys2Proof.Machine

/-- Entries an engine queue holds (R334). -/
def engineCap : Nat := 64

/-- Queues an entry with its ticket register empty (R334, R336). -/
def sendEntry (c : Ctx) (s : State) (op : EngOp) : Act :=
  let q := c.f.m 3 0
  if (s.entries.filter fun e => e.asid == c.w.asid && e.queue == some q).length ≥ engineCap then .wait
  else match c.d with
    | some (.v r) =>
      let (gid, s) := s.fresh
      let (eid, s) := s.fresh
      let s := openLanding s c.w gid (.vec r 1) false false []
      let s := { s with
        lands := modify (fun l => l.gid == gid) (fun l => { l with ready := false }) s.lands
        entries := s.entries ++ [{ eid := eid, wid := some c.w.wid, node := c.w.node, asid := c.w.asid, queue := some q, pc := c.w.pc
                                   gid := some gid, core := some c.w.core, die := q / 8, op := op }] }
      .done s
    | _ => .done s

/-- R338. -/
def execEcpy (f : Fields) (s : State) : Host.Outcome State Fault Refusal :=
  issue (.ecpy f) f s fun c s => sendEntry c s (.copy c.va.scalar64 c.vb.scalar64 c.vc.scalar.toNat (f.m 4 4 == 1))

/-- R341. -/
def execEgat (f : Fields) (s : State) : Host.Outcome State Fault Refusal :=
  issue (.egat f) f s fun c s => sendEntry c s (.card c.va.scalar64 false)

/-- R343. -/
def execEdcp (f : Fields) (s : State) : Host.Outcome State Fault Refusal :=
  issue (.edcp f) f s fun c s => sendEntry c s (.card c.va.scalar64 true)

/-- R344. -/
def execEfence (f : Fields) (s : State) : Host.Outcome State Fault Refusal :=
  issue (.efence f) f s fun c s => sendEntry c s (.fence (f.e 15 0))

/-- R345. -/
def execEwait (f : Fields) (s : State) : Host.Outcome State Fault Refusal :=
  issue (.ewait f) f s fun c s => match c.a with
    | some (.v r) =>
      if !c.w.vfull r then .wait
      else if f.m 0 0 == 1 then .done (c.putScalar s 1 (c.w.vl r 0).toNat) else .done s
    | _ => .done s

end Sys2Proof.Machine
end

