-- ==== Sys2Proof/Machine/Agents.lean ====
section
/-! DEFINITION. Reads and writes that agents other than waves perform at homes, never through L1 (R248, R251, R401, R416). -/

namespace Sys2Proof.Machine

/-- Brings a cached line on chip at its home; a cluster atomic unit that owns it returns it (R203). -/
def atHome (s : State) (asid va : Nat) (t : Trans) : State :=
  if t.home == 3 then s
  else (s.leaveCluster none asid va).ensureLine asid va t

/-- As `atHome` for a read, which with `nt` puts the line first for eviction as `ldnt` does (R179, R338). -/
def readHome (nt : Bool) (s : State) (asid va : Nat) (t : Trans) : State :=
  if t.home == 3 then s else (s.leaveCluster none asid va).ensureLine asid va t nt

/-- As `atHome` for a write, which with `nt` takes no place in the home slice for a line that is not there, as `stnt` (R183,
R338). -/
def writeHome (nt : Bool) (s : State) (asid va : Nat) (t : Trans) : State :=
  if nt then s.leaveCluster none asid va else atHome s asid va t

/-- n bytes read at homes within a family's version, or the cause and address that fail. -/
def homeRead (s : State) (asid : Nat) (fam : Option Nat) (va n : Nat) (nt : Bool := false) : Except (Nat × Nat) (List Byte × State) :=
  (linePieces va n).foldlM (fun (bs, s) (p : Nat × Nat) =>
    let a := addr64 p.1
    match s.laneCheck asid a 1 .read with
    | some cause => .error (cause, a)
    | none => match s.lookup asid a .read with
      | none => .error (cNOTMAPPED, a)
      | some t =>
        let s := readHome nt s asid a t
        .ok (bs ++ (List.range p.2).map fun i => s.visible asid fam (a + i) { t with pa := t.pa + i }, s)) ([], s)

/-- What a write at homes has done: the largest GWCT, how many bytes were written, and the cause and address of a failing
access. -/
structure Wrote where
  s : State
  gwct : Nat := 0
  done : Nat := 0
  err : Option (Nat × Nat) := none

/-- Writes bytes piece by piece at homes, into a family's version or to the committed value; it stops at the first
access that fails. -/
def writePieces (asid : Nat) (fam : Option Nat) (nt : Bool) : List (Nat × Nat) → List Byte → Wrote → Wrote
  | [], _, r => r
  | (p, n) :: ps, bs, r =>
    let a := addr64 p
    match r.s.laneCheck asid a 1 .write, r.s.lookup asid a .write with
    | none, some t =>
      let s := writeHome nt r.s asid a t
      let g := s.gwctOf asid a t
      writePieces asid fam nt ps (bs.drop n)
        { s := s.writeVal asid fam a t (bs.take n), gwct := max r.gwct g, done := r.done + n }
    | some c, _ => { r with err := some (c, a) }
    | none, none => { r with err := some (cNOTMAPPED, a) }

def homeWrite (s : State) (asid : Nat) (fam : Option Nat) (va : Nat) (bs : List Byte) (nt : Bool := false) : Wrote :=
  writePieces asid fam nt (linePieces va bs.length) bs { s := s }

end Sys2Proof.Machine
end

