-- ==== Sys2Proof/Machine/Ray.lean ====
section
/-! DEFINITION. Class RAY: the ray area, bindings, casting, continuation records and their groups (R377 to R386, R393 to
R399). -/

namespace Sys2Proof.Machine

/-! ### Layout descriptors (R384, R386) -/

/-- The layout of a descriptor. -/
def layoutOf (d : List Byte) : Layout :=
  { nodeSize := bytesNat d 0 2, boxFmt := byteN d 2, nBox := byteN d 3, boxOff := bytesNat d 4 2, frameOff := bytesNat d 6 2
    childEnc := byteN d 8, childOff := bytesNat d 0xA 2, cScale := bytesNat d 0xC 4, leafFmt := byteN d 0x10
    nLeaf := byteN d 0x11, leafOff := bytesNat d 0x12 2, instSize := bytesNat d 0x14 2, xformOff := bytesNat d 0x16 2
    rootOff := bytesNat d 0x18 2, indexOff := bytesNat d 0x1A 2 }

/-- Bytes that the child pointers take (R384). -/
def childBytes (l : Layout) : Nat := match l.childEnc with | 1 => 8 * l.nBox | 2 => 4 * l.nBox | 3 => 8 | _ => 0

/-- A power of two from 16 to 4,096. -/
def scaleOk (c : Nat) : Bool := (List.range 9).any fun k => c == 2 ^ (k + 4)

/-- Whether a descriptor is valid: FMT, reserved bytes, the ranges of R384, and fields that lie inside their record. -/
def layoutOk (d : List Byte) : Bool :=
  let l := layoutOf d
  byteN d 0x1C == 1 && byteN d 9 == 0 && (List.range 35).all (fun i => byteN d (0x1D + i) == 0)
    && decide (16 ≤ l.nodeSize ∧ l.nodeSize ≤ 512) && l.nodeSize % 16 == 0
    && l.boxFmt ≤ 2 && l.childEnc ≤ 3 && l.leafFmt ≤ 2 && l.nBox ≤ 8 && l.nLeaf ≤ 8
    && (l.boxFmt == 0) == (l.nBox == 0) && (l.leafFmt == 0) == (l.nLeaf == 0) && (l.boxFmt == 0 || l.childEnc != 0)
    && (l.boxFmt == 2 || l.frameOff == 0) && (if l.childEnc == 2 then scaleOk l.cScale else l.cScale == 0)
    && (l.instSize == 0 || (decide (64 ≤ l.instSize ∧ l.instSize ≤ 256) && l.instSize % 16 == 0))
    && (l.leafFmt != 2 || l.instSize != 0)
    && decide (l.boxOff + (if l.boxFmt == 1 then 24 else 6) * l.nBox ≤ l.nodeSize)
    && (l.boxFmt != 2 || decide (l.frameOff + 16 ≤ l.nodeSize))
    && decide (l.childOff + childBytes l ≤ l.nodeSize)
    && decide (l.leafOff + (if l.leafFmt == 1 then 40 else 8) * l.nLeaf ≤ l.nodeSize)
    && (l.instSize == 0 || (decide (l.xformOff + 48 ≤ l.instSize) && decide (l.rootOff + 8 ≤ l.instSize)
      && decide (l.indexOff + 4 ≤ l.instSize)))

/-! ### Lookup -/

def State.ray? (s : State) (rid : Nat) : Option Ray := s.rays.find? fun r => r.rid == rid
def State.setRay (s : State) (r : Ray) : State := { s with rays := modify (fun x => x.rid == r.rid) (fun _ => r) s.rays }

/-- A binding whose table entry software has written since it was bound, which takes a page of the ray area that breaks R377 by not having
G = 1: the entry and the layout are open (R1, log entry 2). -/
def openBinding (s : State) (c : Context) (b : Binding) : Binding :=
  if b.since < s.lastWrite b.asid (c.raybase + 64 * b.slot) 64 false then
    let bs := (List.range 128).map fun i => Config.openByte b.asid (c.raybase + 64 * b.slot + i) s.moment
    { b with prog := bytesNat bs 0 8, root := bytesNat bs 0x10 8, plen := bytesNat bs 0x18 4, lay := layoutOf (bs.drop 64) }
  else b

/-- The binding of a slot (R380). -/
def State.binding? (s : State) (asid slot : Nat) : Option Binding :=
  (s.bindings.find? fun b => b.asid == asid && b.slot == slot).map fun b =>
    match s.ctx? asid with | some c => openBinding s c b | none => b

/-- Whether a ray is still running or suspended. -/
def Ray.running (r : Ray) : Bool := match r.place with | .ended | .inWave _ => false | _ => true

/-! ### Records in the ray area (R377, R382, R393) -/

/-- PCF. -/
def Ray.pcf (r : Ray) : Nat :=
  let b (x : Bool) (n : Nat) : Nat := if x then 2 ^ n else 0
  r.pc % 65536 + r.slot % 16 * 2 ^ 16 + b r.inst 20 + r.ipair % 4 * 2 ^ 21 + b r.nb 23 + b r.cond 24 + b r.hit 25

/-- The 192 bytes of a ray-state record (R393). -/
def rayBytes (r : Ray) : List Byte :=
  r.origin.flatMap (leBytes 4) ++ leBytes 4 r.tmin ++ r.dir.flatMap (leBytes 4) ++ leBytes 4 r.tmax ++ leBytes 4 r.pcf
    ++ leBytes 4 (r.stack.length + r.status % 256 * 256) ++ r.k.flatMap (fun w => leBytes 4 w.toNat) ++ leBytes 8 r.node
    ++ (List.range 12).flatMap (fun i => leBytes 8 (r.stack.getD i 0))
    ++ leBytes 4 r.hitT ++ leBytes 4 r.hitPrim ++ leBytes 4 r.hitInst ++ leBytes 4 r.hitUv

/-- Writes a ray's record to the ray area. -/
def saveRay (s : State) (r : Ray) : State :=
  match s.ctx? r.asid with
  | some c => s.partWrite r.asid (c.raybase + 0x400 + 4 * c.raycap + 192 * r.num) (rayBytes r)
  | none => s

/-- Writes a ray's owner word, continuation record and ray-state record (R381, R382). -/
def placeRay (s : State) (r : Ray) : State :=
  match s.ctx? r.asid, s.node? r.owner with
  | some c, some o =>
    let s := s.partWrite r.asid (c.raybase + 0x400 + 4 * r.num) (leBytes 4 (State.taskId o))
    let s := s.partWrite r.asid (c.raybase + 0x400 + 196 * c.raycap + 144 * r.num)
      (leBytes 8 r.cont.toNat ++ leBytes 4 r.laneIdx.toNat ++ leBytes 4 r.mask.toNat ++ r.live.flatMap fun w => leBytes 4 w.toNat)
    saveRay s r
  | _, _ => s

/-- A ray as a record of 192 bytes holds it (R393). -/
def rayOf (r : Ray) (bs : List Byte) : Ray :=
  let pcf := bytesNat bs 0x20 4
  let flag (n : Nat) : Bool := pcf / 2 ^ n % 2 == 1
  { r with
    origin := (List.range 3).map fun i => bytesNat bs (4 * i) 4
    tmin := bytesNat bs 0xC 4
    dir := (List.range 3).map fun i => bytesNat bs (0x10 + 4 * i) 4
    tmax := bytesNat bs 0x1C 4
    pc := pcf % 65536
    slot := pcf / 2 ^ 16 % 16
    inst := flag 20
    ipair := pcf / 2 ^ 21 % 4
    nb := flag 23
    cond := flag 24
    hit := flag 25
    status := byteN bs 0x25
    stack := (List.range (byteN bs 0x24 % 13)).map fun i => bytesNat bs (0x50 + 8 * i) 8
    k := (List.range 8).map fun i => BitVec.ofNat 32 (bytesNat bs (0x28 + 4 * i) 4)
    node := bytesNat bs 0x48 8
    hitT := bytesNat bs 0xB0 4
    hitPrim := bytesNat bs 0xB4 4
    hitInst := bytesNat bs 0xB8 4
    hitUv := bytesNat bs 0xBC 4
    reload := true }

/-- Whether software has written what the ray area holds of a ray since it was cast, which takes a page of the area that breaks R377
by not having G = 1. -/
def raySpoiled (s : State) (r : Ray) : Bool :=
  match s.ctx? r.asid with
  | some c =>
    let at_ := c.raybase + 0x400
    [(at_ + 4 * r.num, 4), (at_ + 4 * c.raycap + 192 * r.num, 192), (at_ + 196 * c.raycap + 144 * r.num, 144)].any fun b =>
      s.writtenSince r.asid b.1 b.2 r.rid
  | none => false

/-- A ray with its state record as it is read: open where software has written its records (R1, R377, log entry 2). -/
def recordOf (s : State) (r : Ray) : Ray × State :=
  if raySpoiled s r then
    let (bs, s) := freeBytes s 192
    (rayOf r bs, s)
  else (r, s)

/-- A ray with CONT and LANEIDX of its continuation record as they are read: open where software has written its records. -/
def contOf (s : State) (r : Ray) : Ray × State :=
  if raySpoiled s r then
    let (bs, s) := freeBytes s 12
    ({ r with cont := BitVec.ofNat 64 (bytesNat bs 0 8), laneIdx := BitVec.ofNat 32 (bytesNat bs 8 4) }, s)
  else (r, s)

/-- A ray ends with a status; its continuation record is ready (R392, R395). -/
def endRay (s : State) (r : Ray) (status : Nat) : State :=
  let (r, s) := contOf s r
  let (k, s) := s.fresh
  let r := { r with status := status, place := .ended, endOrd := k, endNs := s.ns }
  saveRay (s.setRay r) r

/-! ### `kbind` (R380) -/

/-- Whether a binding block lies in its ranges. -/
def blockRanges (bs : List Byte) : Bool :=
  bytesNat bs 0 8 % 8 == 0 && bytesNat bs 8 8 % 64 == 0 && bytesNat bs 0x10 8 % 16 == 0
    && decide (1 ≤ bytesNat bs 0x18 4 ∧ bytesNat bs 0x18 4 ≤ 65536) && (List.range 36).all fun i => byteN bs (0x1C + i) == 0

def execKbind (f : Fields) (s : State) : Host.Outcome State Fault Refusal :=
  issue (.kbind f) f s fun c s =>
    let out (s : State) (v : Nat) : Act := .done (c.putScalar s 1 v)
    let slot := f.e 3 0
    withRead c s c.va.scalar64 64 fun bs s =>
      match s.ctx? c.w.asid with
      | none => out s 2
      | some x =>
        if x.raycap == 0 || !blockRanges bs then out s 2
        else withRead c s (bytesNat bs 8 8) 64 fun lb s =>
          if !layoutOk lb then out s 2
          else if s.rays.any fun r => r.asid == c.w.asid && r.slot == slot && r.running then
            (if c.det then .det else out s 1)
          else
            let b : Binding := { asid := c.w.asid, slot := slot, prog := bytesNat bs 0 8, root := bytesNat bs 0x10 8
                                 plen := bytesNat bs 0x18 4, lay := layoutOf lb, since := s.nextId }
            let s := { s with bindings := b :: s.bindings.filter fun y => !(y.asid == b.asid && y.slot == slot) }
            out (s.partWrite c.w.asid (x.raybase + 64 * slot) bs) 0

/-! ### `trace` and `tracec` (R381, R383) -/

/-- A ray that ends at once with EMPTY: tmin negative or NaN, tmax NaN or below tmin. -/
def rayEmpty (tmin tmax : Nat) : Bool :=
  let a := fp32.decode tmin
  let b := fp32.decode tmax
  a.isNan || b.isNan || decide (a.cmp (.fin false 0 0) < 0) || decide (b.cmp a < 0)

/-- The owner of rays that a task's waves trace (R378). -/
def rayOwner (n : Node) : Nat := n.owner.getD n.nid

/-- Casts the ray of one lane: the ray is on its die's ray queue, or has ended with EMPTY. -/
def castRay (c : Ctx) (x : Context) (b : Binding) (cont : Word64) (base ord : Nat) (s : State) (l : Nat) : State :=
  let (k, s) := s.takeFree
  let (rid, s) := s.fresh
  let used := (s.rays.filter fun r => r.asid == c.w.asid).map (·.num)
  let v (i : Nat) : Nat := (c.va.w l i).toNat
  let mask := c.vb.scalar
  let empty := rayEmpty (v 3) (v 7)
  let r : Ray := { rid := rid, asid := c.w.asid, num := (freeSlot x.raycap (Config.freeNat k) used).getD 0, owner := rayOwner c.node
                   slot := b.slot, die := dieOf c.w.core, place := if empty then .ended else .queued
                   origin := [v 0, v 1, v 2], tmin := v 3, dir := [v 4, v 5, v 6], tmax := v 7
                   status := if empty then 6 else 0, node := b.root, hitT := v 7, cont := cont
                   laneIdx := BitVec.ofNat 32 (getidVal c 0 l), mask := mask
                   live := (maskBits mask).map fun i => c.w.vl (base + i) l
                   endOrd := ord, endNs := s.ns, mark := c.w.relMark }
  placeRay { s with rays := s.rays ++ [r] } r

/-- Casts the rays of the acting lanes, clears their `exec` bits and halts the wave when none is left. -/
def castRays (c : Ctx) (x : Context) (b : Binding) (cont : Word64) (base : Nat) (s : State) : Act :=
  let cast (s : State) : State :=
    let (ord, s) := s.fresh
    (maskBits c.m).foldl (castRay c x b cont base ord) (unitLeave s (unitRays c.w.asid) c.w.wid)
  let left := c.w.exec &&& ~~~c.m
  if left == 0 then haltAct c s fun s =>
    let s := cast s
    let s := popAll s c.w c.m c.pops
    .final (haltWave s { c.wave s with exec := 0 })
  else
    let s := cast s
    .done (s.setWave { c.wave s with exec := left })

/-- The waits and checks of a cast, after those of its registers. -/
def traceWith (c : Ctx) (s : State) (cont : Nat) : Act :=
  match s.ctx? c.w.asid, s.binding? c.w.asid (c.f.m 3 0), c.d with
  | some x, some b, some (.v base) =>
    if cont % 4 != 0 then .illopnd
    else if !storesAcked s c.w.wid s.nextId then .wait
    else if (s.rays.filter fun r => r.asid == c.w.asid).length + maskCount c.m > x.raycap
        || !unitTurn s (unitRays c.w.asid) c.w.wid then .queue (unitWait s (unitRays c.w.asid) c.w.wid)
    else castRays c x b (BitVec.ofNat 64 cont) base s
  | _, _, _ => .illopnd

def execTrace (f : Fields) (s : State) : Host.Outcome State Fault Refusal :=
  issue (.trace f) f s fun c s => traceWith c s (c.w.pc + 12).toNat

def execTracec (f : Fields) (s : State) : Host.Outcome State Fault Refusal :=
  issue (.tracec f) f s fun c s => traceWith c s c.vc.scalar64

/-! ### `cget` and `cend` (R397, R398) -/

/-- The ray whose record a lane of a continuation wave holds. -/
def laneRay (s : State) (w : Wave) (l : Nat) : Option Ray :=
  (w.contLanes.find? fun k => k.lane == l).bind fun k => s.ray? k.ray

/-- Whether a wave may read continuation records. -/
def mayGet (w : Wave) : Bool := w.cont.isSome && !w.cendDone

/-- Words packed from the lowest register up. -/
def packWords (ws : List Nat) : Nat := ws.foldr (fun v a => v % 2 ^ 32 + 2 ^ 32 * a) 0

/-- The value of live bit i of a record. -/
def liveValue (r : Ray) (i : Nat) : Nat :=
  if lane r.mask i then (r.live.getD ((List.range i).filter fun j => lane r.mask j).length 0).toNat else 0

/-- A lane's words of its ray's records: open ones where software has written them (R1, R377, log entry 2). -/
def laneRecord (c : Ctx) (val : Ray → List Nat) (x : State × List (Nat × Nat)) (l : Nat) : State × List (Nat × Nat) :=
  match laneRay x.1 c.w l with
  | some r =>
    if raySpoiled x.1 r then
      let (bs, s) := freeBytes x.1 (4 * (val r).length)
      (s, x.2 ++ [(l, leNat bs)])
    else (x.1, x.2 ++ [(l, packWords (val r))])
  | none => (x.1, x.2 ++ [(l, 0)])

/-- A continuation fetch into registers: its values land later. -/
def fetchRecords (c : Ctx) (s : State) (dest : LandDest) (val : Ray → List Nat) : Act :=
  let (gid, s) := s.fresh
  let (s, vals) := (maskBits c.m).foldl (laneRecord c val) (s, [])
  .done (openLanding s c.w gid dest false false vals)

def execCgetLive (f : Fields) (s : State) : Host.Outcome State Fault Refusal :=
  issue (.cgetLive f) f s fun c s => match c.d with
    | some (.v base) =>
      let bits := maskBits c.vb.scalar
      if !mayGet c.w then .illopnd
      else fetchRecords c s (.regs (bits.map fun i => base + i)) fun r => bits.map (liveValue r)
    | _ => .illopnd

def execCgetHit (f : Fields) (s : State) : Host.Outcome State Fault Refusal :=
  issue (.cgetHit f) f s fun c s => match c.d with
    | some (.v base) =>
      if !mayGet c.w then .illopnd
      else fetchRecords c s (.vec base 5) fun r => [r.hitT, r.hitPrim, r.hitInst, r.hitUv, r.status]
    | _ => .illopnd

def execCend (f : Fields) (s : State) : Host.Outcome State Fault Refusal :=
  issue (.cend f) f s fun c s =>
    if c.isCont then
      let s := s.freeRays fun r => r.place == .inWave c.w.node
      .done (s.setWave { c.wave s with cendDone := true })
    else .done s

/-! ### Continuation groups (R395, R396) -/

/-- The ready records of an owner that resume at an address, in the order in which they became ready. -/
def readyGroup (s : State) (asid owner : Nat) (cont : Word64) : List Ray :=
  sortBy (fun a b => decide (a.endOrd < b.endOrd) || (a.endOrd == b.endOrd && decide (a.num ≤ b.num)))
    (s.rays.filter fun r => r.asid == asid && r.owner == owner && r.place == .ended && r.cont == cont)

/-- The continuation node of a closed group: it takes no window entry and no slot of the node store. -/
def contNode (nid : Nat) (s : State) (o : Node) (cont : Word64) (g : List Ray) : Node :=
  { nid := nid, die := o.die, slot := Config.nodeSlots + nid, asid := o.asid, queue := o.queue, kind := .cont, index := o.index
    launch := { o.launch with entry := cont, accum := 0, tiles := 0, scratch := 0, gang := false, classB := false, gword := 0 }
    fam := o.fam, stage := .ready, readyAt := s.ns, owner := some o.nid
    recs := g.zipIdx.map fun (r, i) => { lane := i, ray := r.rid, laneIdx := r.laneIdx }
    startMark := g.foldl (fun m r => max m (r.mark + 2)) 0 }

/-- Closes a group of at most 32 records. -/
def closeGroup (s : State) (o : Node) (cont : Word64) (g : List Ray) : State :=
  let g := g.take 32
  let (nid, s) := s.fresh
  let n := contNode nid s o cont g
  { s with
    rays := modify (fun r => g.any fun x => x.rid == r.rid) (fun r => { r with place := .inWave nid }) s.rays
    nodes := s.nodes ++ [n] }

/-- When a group closes: 32 records, 2 us since its first, or no ray of its owner running or suspended. -/
def groupDue (s : State) (asid owner : Nat) (g : List Ray) : Bool :=
  decide (g.length ≥ 32) || (match g.head? with | some r => decide (s.ns ≥ r.endNs + 2000) | none => false)
    || !(s.rays.any fun r => r.asid == asid && r.owner == owner && r.running)

def execContGroupClose (asid owner : Nat) (cont : BitVec 64) (s : State) : Host.Outcome State Fault Refusal :=
  let g := readyGroup s asid owner cont
  match s.node? owner with
  | some o => if !g.isEmpty && groupDue s asid owner g then .next (closeGroup s o cont g) else .next s
  | none => .next s

/-! ### Suspension and resumption (R394) -/

/-- A ray leaves its Kite with its record written; it goes to the ray queue of either die. -/
def suspendRay (s : State) (r : Ray) (place : RayAt) : State :=
  let r := { r with place := place, anyDie := true, reload := true }
  saveRay (s.setRay r) r

/-- The record of a ray's fault: SOURCE 2 with the microcode PC (R424). -/
def rayFault (s : State) (r : Ray) (core pc cause addr : Nat) (key : Nat) : State :=
  let count := if r.fkey == some key then r.count + 1 else 0
  let r := { r with fkey := some key, count := count }
  let task := match s.node? r.owner with | some o => State.taskId o | none => 0
  let s := suspendRay (s.noteFault r.asid cause addr) r .faulted
  s.appendRec { code := codeOf cause, cause := cause, flags := 1 + s.partialFlag r.owner, source := 2, task := task, pc := BitVec.ofNat 64 pc
                addr := BitVec.ofNat 64 addr, loc := core % 128, asid := r.asid, slot := r.slot, ray := r.num, info := count }
    (.ray r.rid)

end Sys2Proof.Machine
end

