-- ==== Sys2Proof/Machine/Kite.lean ====
section
/-! DEFINITION. Kite microcode: box and triangle tests and the microinstructions of R389, and how Kites take and give up
rays (R385, R387 to R392, R394). -/

namespace Sys2Proof.Machine

/-! ### FP32 arithmetic in RNE with subnormals kept -/

def kRound (v : FV) : Nat := (fp32.round mRNE false v).1
def kAdd (a b : Nat) : Nat := kRound ((fp32.decode a).add mRNE (fp32.decode b)).1
def kSub (a b : Nat) : Nat := kRound ((fp32.decode a).add mRNE (fp32.decode b).flip).1
def kMul (a b : Nat) : Nat := kRound ((fp32.decode a).mul (fp32.decode b)).1
def kFma (a b c : Nat) : Nat := kRound ((fp32.decode a).fma mRNE (fp32.decode b) (fp32.decode c)).1
def kNeg (a : Nat) : Nat := if a / 2 ^ 31 % 2 == 1 then a - 2 ^ 31 else a + 2 ^ 31
def kRcp (a : Nat) : Nat := kRound (frcpV (fp32.decode a)).1
def kNan (a : Nat) : Bool := (fp32.decode a).isNan
def kPick (isMax : Bool) (a b : Nat) : Nat := (fpPick fp32 false isMax a b).1

/-- a ≤ b, false with any NaN. -/
def kLe (a b : Nat) : Bool := ((fp32.decode a).cond 3 (fp32.decode b)).1

def kOne : Nat := 0x3F800000
def kInf : Nat := 0x7F800000
def kNegInf : Nat := 0xFF800000

/-- Vectors of three components. -/
def at3 (v : List Nat) (i : Nat) : Nat := v.getD i 0
def kCross (a b : List Nat) : List Nat :=
  [(1, 2), (2, 0), (0, 1)].map fun (i, j) => kFma (at3 a i) (at3 b j) (kNeg (kMul (at3 a j) (at3 b i)))
def kDot (a b : List Nat) : Nat := kFma (at3 a 2) (at3 b 2) (kFma (at3 a 1) (at3 b 1) (kMul (at3 a 0) (at3 b 0)))
def kSub3 (a b : List Nat) : List Nat := (List.range 3).map fun i => kSub (at3 a i) (at3 b i)

/-! ### The ray a test uses (R391) -/

/-- Entry (r, c) of the matrix of an instance copy. -/
def instM (l : Layout) (ic : List Byte) (r c : Nat) : Nat := bytesNat ic (l.xformOff + 16 * r + 4 * c) 4

/-- The origin and direction of a ray, carried into object space under INST. -/
def testRay (l : Layout) (r : Ray) : List Nat × List Nat :=
  if r.inst then
    let m := instM l r.icopy
    let o := (List.range 3).map fun i =>
      kFma (m i 0) (at3 r.origin 0) (kFma (m i 1) (at3 r.origin 1) (kFma (m i 2) (at3 r.origin 2) (m i 3)))
    let d := (List.range 3).map fun i =>
      kFma (m i 0) (at3 r.dir 0) (kFma (m i 1) (at3 r.dir 1) (kMul (m i 2) (at3 r.dir 2)))
    (o, d)
  else (r.origin, r.dir)

/-! ### Boxes (R385, R390) -/

/-- The six bounds of box i. -/
def boxOf (l : Layout) (buf : List Byte) (i : Nat) : List Nat :=
  if l.boxFmt == 1 then (List.range 6).map fun j => bytesNat buf (l.boxOff + 24 * i + 4 * j) 4
  else (List.range 6).map fun j =>
    let a := j % 3
    let g := fp32.decode (bytesNat buf (l.frameOff + 4 * a) 4)
    let e := sext 8 (byteN buf (l.frameOff + 12 + a))
    let q : FV := .fin false (byteN buf (l.boxOff + 6 * i + j)) e
    let mode := if j < 3 then mRDN else mRUP
    (fp32.round mode false (g.add mode q).1).1

/-- The entry distance of a box that is hit. -/
def boxHit (l : Layout) (r : Ray) (box : List Nat) : Option Nat :=
  let (o, d) := testRay l r
  let (te, tx) := (List.range 3).foldl (fun (te, tx) a =>
    let inv := kRcp (at3 d a)
    let t0 := kMul (kSub (at3 box a) (at3 o a)) inv
    let t1 := kMul (kSub (at3 box (3 + a)) (at3 o a)) inv
    let (near, far) := if kNan t0 || kNan t1 then (kNegInf, kInf) else (kPick false t0 t1, kPick true t0 t1)
    (kPick true te near, kPick false tx far)) (r.tmin, r.tmax)
  let tx := (fp32.round mRUP false ((fp32.decode tx).mul (.fin false (2 ^ 21 + 1) (-21))).1).1
  if kLe te tx then some te else none

/-! ### Triangles (R385, R391) -/

/-- u × 65535 rounded and clamped to 16 bits. -/
def unit16 (u : Nat) : Nat :=
  let v := (((fp32.decode u).mul (ofInt 65535)).1.toInt mRNE true 64).1
  if v < 0 then 0 else if v > 65535 then 65535 else v.toNat

/-- t and uv of a triangle that is hit; v0, v1 and v2 are the words of the leaf. -/
def triHit (l : Layout) (r : Ray) (w : List Nat) : Option (Nat × Nat) :=
  let (o, d) := testRay l r
  let v0 := w.take 3
  let e1 := kSub3 ((w.drop 3).take 3) v0
  let e2 := kSub3 ((w.drop 6).take 3) v0
  let s := kSub3 o v0
  let p := kCross d e2
  let det := kDot e1 p
  if (fp32.decode det).isZero then none
  else
    let inv := kRcp det
    let q := kCross s e1
    let u := kMul (kDot s p) inv
    let v := kMul (kDot d q) inv
    let t := kMul (kDot e2 q) inv
    if kLe 0 u && kLe 0 v && kLe (kAdd u v) kOne && kLe r.tmin t && kLe t r.tmax then some (t, unit16 u + 65536 * unit16 v)
    else none

/-! ### The frame of a microinstruction -/

/-- What a microinstruction answers. -/
inductive KAct where
  | go (s : State) (r : Ray)
  | jump (s : State) (r : Ray) (pc : Nat)
  | stop (r : Ray) (status : Nat)
  | fault (r : Ray) (cause addr key : Nat)

def KAct.illegal (r : Ray) : KAct := .stop r 4

/-- The core whose Kite holds a ray. -/
def Ray.core (r : Ray) : Nat := match r.place with | .kite c => c | _ => 0

/-- The PC after a word; PC has 16 bits (R393). -/
def nextPc (r : Ray) : Nat := (r.pc + 1) % 65536

/-- The state after a microinstruction. -/
def kiteFinish (s : State) (r0 : Ray) : KAct → State
  | .go s r => s.setRay { r with pc := nextPc r0, fkey := none, count := 0 }
  | .jump s r pc => s.setRay { r with pc := pc % 65536, fkey := none, count := 0 }
  | .stop r st => endRay s r st
  | .fault r cause addr key => rayFault s r r0.core r0.pc cause addr key

/-- Performs a microinstruction of the ray that the turn has chosen; a word that breaks R389 ends the ray with ILLEGAL. -/
def kiteStep (i : Instr) (s : State) (body : Binding → Ray → State → KAct) : Host.Outcome State Fault Refusal :=
  match s.curRay.bind s.ray? with
  | none => .fault .noRay
  | some r =>
    let s := { s with curRay := none }
    match s.binding? r.asid r.slot with
    | none => .next (endRay s r 4)
    | some b => if kiteFieldsOk i then .next (kiteFinish s r (body b r s)) else .next (endRay s r 4)

/-- Register i of a ray, and its write. -/
def Ray.reg (r : Ray) (i : BitVec 3) : Word := r.k.getD i.toNat 0
def Ray.put (r : Ray) (i : Nat) (v : Word) : Ray := { r with k := r.k.set i v }
/-- A child or leaf index: the low 4 bits of kA. -/
def Ray.index (r : Ray) (i : BitVec 3) : Nat := (r.reg i).toNat % 16

/-! ### Nodes (R385, R389, R394) -/

/-- The address of child i, or none where it is ILLEGAL. -/
def childAddr (b : Binding) (r : Ray) (i : Nat) : Option Nat :=
  let l := b.lay
  if l.childEnc == 0 || i ≥ l.nBox || !r.nb then none
  else match l.childEnc with
    | 1 => some (bytesNat r.buf (l.childOff + 8 * i) 8)
    | 2 => some (wrap 64 ((r.node : Int) + sext 32 (bytesNat r.buf (l.childOff + 4 * i) 4) * (l.cScale : Int)))
    | _ => some ((bytesNat r.buf l.childOff 8 + i * l.nodeSize) % 2 ^ 64)

/-- A read of a ray at the homes within its owner's version (R401); bytes that software has written since the `trace` are open. -/
def rayRead (s : State) (r : Ray) (fam : Option Nat) (a n : Nat) : Except (Nat × Nat) (List Byte × State) :=
  match homeRead s r.asid fam a n with
  | .ok (bs, s) => .ok (s.openBytes (s.writtenSince r.asid a n r.rid) bs)
  | .error e => .error e

/-- Loads a node; a fault leaves the record at PC + 1 with NODE and NB set, so that the reload performs the load. -/
def loadNode (b : Binding) (r : Ray) (s : State) (addr : Nat) : KAct :=
  if addr % 16 != 0 then .illegal r
  else
    let r' := { r with node := addr, nb := true }
    match rayRead s r (s.specFam r.owner) addr b.lay.nodeSize with
    | .ok (bs, s) => .go s { r' with buf := bs }
    | .error (cause, a) => .fault { r' with pc := nextPc r } cause a (2 * addr)

def execKiteNld (k : KFields) (s : State) : Host.Outcome State Fault Refusal :=
  kiteStep (.kiteNld k) s fun b r s => loadNode b r s r.node

def execKiteNldRoot (k : KFields) (s : State) : Host.Outcome State Fault Refusal :=
  kiteStep (.kiteNldRoot k) s fun b r s => loadNode b r s b.root

def execKiteNldChild (k : KFields) (s : State) : Host.Outcome State Fault Refusal :=
  kiteStep (.kiteNldChild k) s fun b r s => match childAddr b r (r.index k.ka) with
    | some a => loadNode b r s a
    | none => .illegal r

/-! ### Tests -/

def execKiteBxi (k : KFields) (s : State) : Host.Outcome State Fault Refusal :=
  kiteStep (.kiteBxi k) s fun b r s =>
    let i := r.index k.ka
    if !r.nb || b.lay.boxFmt == 0 then .illegal r
    else match if i < b.lay.nBox then boxHit b.lay r (boxOf b.lay r.buf i) else none with
      | some t => .go s { r.put k.kd.toNat (BitVec.ofNat 32 (t / 16 * 16 + i)) with cond := true }
      | none => .go s { r.put k.kd.toNat 0xFFFFFFFF with cond := false }

def execKiteTxi (k : KFields) (s : State) : Host.Outcome State Fault Refusal :=
  kiteStep (.kiteTxi k) s fun b r s =>
    let i := r.index k.ka
    let d := k.kd.toNat
    let word (j : Nat) : Nat := bytesNat r.buf (b.lay.leafOff + 40 * i + 4 * j) 4
    if !r.nb || b.lay.leafFmt != 1 then .illegal r
    else match if i < b.lay.nLeaf then triHit b.lay r ((List.range 9).map word) else none with
      | some (t, uv) =>
        .go s { ((r.put d (BitVec.ofNat 32 t)).put (d + 1) (BitVec.ofNat 32 uv)).put (d + 2) (BitVec.ofNat 32 (word 9)) with cond := true }
      | none => .go s { r with cond := false }

/-! ### The stack -/

/-- Pushes an entry; at depth 12 the ray ends with OVERFLOW. -/
def pushEntry (r : Ray) (s : State) (x : Nat) : KAct :=
  if r.stack.length ≥ 12 then .stop r 3 else .go s { r with stack := r.stack ++ [x] }

def execKitePush (k : KFields) (s : State) : Host.Outcome State Fault Refusal :=
  kiteStep (.kitePush k) s fun b r s => match childAddr b r (r.index k.ka) with
    | some a => pushEntry r s (a % 2 ^ 53)
    | none => .illegal r

def execKitePushTag (k : KFields) (s : State) : Host.Outcome State Fault Refusal :=
  kiteStep (.kitePushTag k) s fun _ r s => pushEntry r s (k.imm.toNat % 256 * 2 ^ 56)

def execKitePop (k : KFields) (s : State) : Host.Outcome State Fault Refusal :=
  kiteStep (.kitePop k) s fun _ r s => match r.stack.getLast? with
    | none => .go s { r with cond := false }
    | some x =>
      let r := { r.put k.kd.toNat (BitVec.ofNat 32 (x / 2 ^ 56 % 256)) with stack := r.stack.dropLast, cond := true }
      .go s (if x / 2 ^ 56 % 256 == 0 then { r with node := x % 2 ^ 53, nb := false } else r)

/-! ### Registers and flow -/

def execKiteSrt (k : KFields) (s : State) : Host.Outcome State Fault Refusal :=
  kiteStep (.kiteSrt k) s fun _ r s =>
    let d := k.kd.toNat
    let n := k.imm.toNat
    let sorted := sortBy (fun a b : Word => decide (a.toNat ≤ b.toNat)) ((r.k.drop d).take n)
    .go s { r with k := r.k.take d ++ sorted ++ r.k.drop (d + n) }

/-- The conditions of `cmp`. -/
def kiteCond (c : Nat) (a b : Word) : Bool :=
  match c with
  | 0 => a == b
  | 1 => a != b
  | 2 => decide (a.toInt < b.toInt)
  | 3 => decide (a.toInt ≥ b.toInt)
  | 4 => decide (a.toNat < b.toNat)
  | 5 => decide (a.toNat ≥ b.toNat)
  | 6 => ((fp32.decode a.toNat).cond 2 (fp32.decode b.toNat)).1
  | _ => ((fp32.decode a.toNat).cond 5 (fp32.decode b.toNat)).1

def execKiteCmp (k : KFields) (s : State) : Host.Outcome State Fault Refusal :=
  kiteStep (.kiteCmp k) s fun _ r s => .go s { r with cond := kiteCond (k.sub.toNat % 8) (r.reg k.ka) (r.reg k.kb) }

def execKiteCmpImm (k : KFields) (s : State) : Host.Outcome State Fault Refusal :=
  kiteStep (.kiteCmpImm k) s fun _ r s => .go s { r with cond := kiteCond (k.sub.toNat % 8) (r.reg k.ka) k.imm }

/-- A jump to a label: a target at or above PLEN is ILLEGAL, taken or not (R392). -/
def kiteLabel (b : Binding) (r : Ray) (s : State) (k : KFields) (taken : Bool) : KAct :=
  if k.imm.toNat ≥ b.plen then .illegal r else if taken then .jump s r k.imm.toNat else .go s r

def execKiteBr (k : KFields) (s : State) : Host.Outcome State Fault Refusal :=
  kiteStep (.kiteBr k) s fun b r s => kiteLabel b r s k r.cond

def execKiteBrn (k : KFields) (s : State) : Host.Outcome State Fault Refusal :=
  kiteStep (.kiteBrn k) s fun b r s => kiteLabel b r s k !r.cond

def execKiteJmp (k : KFields) (s : State) : Host.Outcome State Fault Refusal :=
  kiteStep (.kiteJmp k) s fun b r s => kiteLabel b r s k true

def execKiteJmpReg (k : KFields) (s : State) : Host.Outcome State Fault Refusal :=
  kiteStep (.kiteJmpReg k) s fun b r s =>
    let t := (r.reg k.ka).toNat % 65536
    if t ≥ b.plen then .illegal r else .jump s r t

def execKiteCall (k : KFields) (s : State) : Host.Outcome State Fault Refusal :=
  kiteStep (.kiteCall k) s fun b r s =>
    if k.imm.toNat ≥ b.plen then .illegal r
    else .jump s (r.put k.kd.toNat (BitVec.ofNat 32 (r.pc + 1))) k.imm.toNat

/-- The hit record that `acpt kA` writes. -/
def acceptHit (b : Binding) (r : Ray) (ka : BitVec 3) : Ray :=
  let w (i : Nat) : Nat := (r.k.getD (ka.toNat + i) 0).toNat
  { r with hitT := w 0, hitUv := w 1, hitPrim := w 2, tmax := w 0, hit := true
           hitInst := if r.inst then bytesNat r.icopy b.lay.indexOff 4 else 0xFFFFFFFF }

def execKiteAcpt (k : KFields) (s : State) : Host.Outcome State Fault Refusal :=
  kiteStep (.kiteAcpt k) s fun b r s => .go s (acceptHit b r k.ka)

def execKiteHit (k : KFields) (s : State) : Host.Outcome State Fault Refusal :=
  kiteStep (.kiteHit k) s fun b r _ => .stop (acceptHit b r k.ka) 2

def execKiteIxf (k : KFields) (s : State) : Host.Outcome State Fault Refusal :=
  kiteStep (.kiteIxf k) s fun b r s =>
    let l := b.lay
    let i := r.index k.ka
    if !r.nb || r.inst || l.leafFmt != 2 || i ≥ l.nLeaf then .illegal r
    else
      let a := bytesNat r.buf (l.leafOff + 8 * i) 8
      match rayRead s r (s.specFam r.owner) a l.instSize with
      | .error (cause, fa) => .fault r cause fa (2 * a)
      | .ok (bs, s) =>
        let r := (r.put k.kd.toNat (wordI a 0)).put (k.kd.toNat + 1) (wordI a 1)
        .go s { r with icopy := bs, inst := true, ipair := k.kd.toNat / 2, node := bytesNat bs l.rootOff 8, nb := false }

def execKiteItl (k : KFields) (s : State) : Host.Outcome State Fault Refusal :=
  kiteStep (.kiteItl k) s fun _ r s => .go s { r with inst := false }

def execKiteMov (k : KFields) (s : State) : Host.Outcome State Fault Refusal :=
  kiteStep (.kiteMov k) s fun _ r s => .go s (r.put k.kd.toNat (r.reg k.ka))

def execKiteMovImm (k : KFields) (s : State) : Host.Outcome State Fault Refusal :=
  kiteStep (.kiteMovImm k) s fun _ r s => .go s (r.put k.kd.toNat k.imm)

def execKiteMovN (k : KFields) (s : State) : Host.Outcome State Fault Refusal :=
  kiteStep (.kiteMovN k) s fun b r s =>
    if !r.nb || k.imm.toNat ≥ b.lay.nodeSize then .illegal r
    else .go s (r.put k.kd.toNat (BitVec.ofNat 32 (bytesNat r.buf k.imm.toNat 4)))

def execKiteMovT (k : KFields) (s : State) : Host.Outcome State Fault Refusal :=
  kiteStep (.kiteMovT k) s fun _ r s => .go s (r.put k.kd.toNat (BitVec.ofNat 32 (if k.imm == 0 then r.tmin else r.tmax)))

def execKiteAdd (k : KFields) (s : State) : Host.Outcome State Fault Refusal :=
  kiteStep (.kiteAdd k) s fun _ r s => .go s (r.put k.kd.toNat (r.reg k.ka + r.reg k.kb))

def execKiteAddImm (k : KFields) (s : State) : Host.Outcome State Fault Refusal :=
  kiteStep (.kiteAddImm k) s fun _ r s => .go s (r.put k.kd.toNat (r.reg k.ka + k.imm))

def execKiteEnd (k : KFields) (s : State) : Host.Outcome State Fault Refusal :=
  kiteStep (.kiteEnd k) s fun _ r _ => .stop r 1

/-! ### Kites and rays (R387, R394) -/

def State.rayNum? (s : State) (asid num : Nat) : Option Ray := s.rays.find? fun r => r.asid == asid && r.num == num

/-- Rays a core's Kite holds. -/
def kiteLoad (s : State) (core : Nat) : List Ray := s.rays.filter fun r => r.place == .kite core

/-- Rays a Kite holds at most (R387). -/
def kiteCap : Nat := 256

/-- Whether a ray on a ray queue may go to a core. -/
def mayTake (s : State) (r : Ray) (core : Nat) : Bool :=
  r.place == .queued && decide (core < Config.cores) && (r.anyDie || dieOf core == r.die) && !s.deadCores.contains core
    && ctxRuns s r.asid

/-- A Kite takes a ray with what its record holds (R393, R394). -/
def execKiteRayTake (core asid ray : Nat) (s : State) : Host.Outcome State Fault Refusal :=
  match s.rayNum? asid ray with
  | some r =>
    if mayTake s r core && decide ((kiteLoad s core).length < kiteCap) then
      let (r, s) := recordOf s r
      let (a, s) := s.fresh
      .next (s.setRay { r with place := .kite core, age := a })
    else .next s
  | none => .next s

/-- The priority of a ray's owner. -/
def rayPrio (s : State) (r : Ray) : Nat := match s.node? r.owner with | some o => o.launch.prio | none => 0

/-- The ray a full Kite gives up for a waiting ray of a higher priority: the youngest of its lowest priority. -/
def kiteVictim (s : State) (core : Nat) : Option Ray :=
  (kiteLoad s core).foldl (fun best r => match best with
    | none => some r
    | some b =>
      if rayPrio s r < rayPrio s b || (rayPrio s r == rayPrio s b && r.age > b.age) then some r else best) none

/-- Whether a Kite suspends a ray (R394): its context is being saved, or the Kite needs its place. -/
def mustSuspend (s : State) (r : Ray) (core : Nat) : Bool :=
  let saved : Bool := match s.ctx? r.asid with | some c => c.wd != .armed | none => false
  saved || (decide ((kiteLoad s core).length ≥ kiteCap) && (kiteVictim s core).map (·.rid) == some r.rid
    && s.rays.any fun x => mayTake s x core && rayPrio s x > rayPrio s r)

def execRaySuspend (asid ray : Nat) (s : State) : Host.Outcome State Fault Refusal :=
  match s.rayNum? asid ray with
  | some r => match r.place with
    | .kite core => if mustSuspend s r core then .next (suspendRay s r .queued) else .next s
    | _ => .next s
  | none => .next s

/-- What a Kite does before a ray's word: the copies outside the record are read again on resumption (R394), and the word
is fetched. -/
inductive KiteFetch where
  | word (w : BitVec 64) (s : State)
  | ended (s : State)

/-- Reads the node buffer and the instance copy again. -/
def reloadRay (s : State) (b : Binding) (r : Ray) : Except (Nat × Nat × Nat) (Ray × State) := do
  let fam := s.specFam r.owner
  let (r, s) ← if r.nb then
      match rayRead s r fam r.node b.lay.nodeSize with
      | .ok (bs, s) => .ok ({ r with buf := bs, fkey := if r.fkey == some (2 * r.node) then none else r.fkey }, s)
      | .error (c, a) => .error (c, a, 2 * r.node)
    else .ok (r, s)
  let ia := (r.k.getD (2 * r.ipair) 0).toNat + 2 ^ 32 * (r.k.getD (2 * r.ipair + 1) 0).toNat
  if r.inst then
    match rayRead s r fam ia b.lay.instSize with
    | .ok (bs, s) => .ok ({ r with icopy := bs, reload := false }, s)
    | .error (c, a) => .error (c, a, 2 * ia)
  else .ok ({ r with reload := false }, s)

/-- Fetches word PC of a ray's program at its home, within the owner's version (R388, R401). -/
def kiteFetch (s : State) (r : Ray) : KiteFetch :=
  match s.binding? r.asid r.slot with
  | none => .ended (endRay s r 4)
  | some b => if r.reload && r.nb && r.node % 16 != 0 then .ended (endRay s r 4) else match if r.reload then reloadRay s b r else .ok (r, s) with
    | .error (c, a, key) => .ended (rayFault s r r.core r.pc c a key)
    | .ok (r, s) =>
      let s := s.setRay r
      if r.pc ≥ b.plen then .ended (endRay s r 4)
      else
        let a := (b.prog + 8 * r.pc) % 2 ^ 64
        match rayRead s r (s.specFam r.owner) a 8 with
        | .ok (bs, s) => .word (BitVec.ofNat 64 (leNat bs)) s
        | .error (c, fa) => .ended (rayFault s r r.core r.pc c fa (2 * a + 1))

end Sys2Proof.Machine
end

