-- ==== Sys2Proof/Machine/Texture.lean ====
section
/-! DEFINITION. Class REN: descriptors, sampling, reading a finished pass, and colour tiles (R406 to R412, R418 to R420). -/

namespace Sys2Proof.Machine

/-! ### Texture descriptors (R406) -/

/-- The fields of a texture descriptor. -/
structure Tex where
  base : Nat
  surf : Nat
  w : Nat
  h : Nat
  pitch : Nat
  fmt : Nat
  tiled : Bool
  wrapU : Bool
  wrapV : Bool
  deriving DecidableEq, Repr

def texOf (d : List Byte) : Tex :=
  let fl := byteN d 0x19
  { base := bytesNat d 0 8, surf := bytesNat d 8 8, w := bytesNat d 0x10 2, h := bytesNat d 0x12 2, pitch := bytesNat d 0x14 4
    fmt := byteN d 0x18, tiled := fl % 2 == 1, wrapU := fl / 2 % 2 == 1, wrapV := fl / 4 % 2 == 1 }

/-- Bytes of a texel. -/
def texelSize (fmt : Nat) : Nat := if fmt == 0 || fmt == 2 then 4 else 8

/-- Whether a texture descriptor is valid. -/
def texOk (d : List Byte) : Bool :=
  let t := texOf d
  let side (n : Nat) : Bool := decide (1 ≤ n ∧ n ≤ 16384) && (!t.tiled || n % 8 == 0)
  t.base % 256 == 0 && side t.w && side t.h && t.fmt ≤ 4 && byteN d 0x19 < 8 && (!t.tiled || t.fmt == 0)
    && (List.range 6).all (fun i => byteN d (0x1A + i) == 0) && (t.surf == 0 || t.tiled)
    && (if t.tiled then t.pitch == 0 else t.pitch % texelSize t.fmt == 0 && decide (t.pitch ≥ t.w * texelSize t.fmt))

/-- Runs a body on a valid descriptor of n bytes in C (R410). -/
def withDesc (c : Ctx) (s : State) (n : Nat) (ok : List Byte → Bool) (body : List Byte → State → Act) : Act :=
  let a := c.vc.scalar64
  if a % n != 0 then .illopnd
  else withRead c s a n fun bs s => if ok bs then body bs s else .illopnd

/-! ### Colour tiles (R406, R419) -/

/-- The number of the tile that holds a texel, and the pixel in it. -/
def tileOf (t : Tex) (x y : Nat) : Nat × Nat := (y / 8 * (t.w / 8) + x / 8, y % 8 * 8 + x % 8)

/-- Tiles of a surface. -/
def tileCount (t : Tex) : Nat := t.w / 8 * (t.h / 8)

/-- Whether a mode byte is read as uncompressed with NV: state 11, or state 10 with width code 7. -/
def modeBad (m : Nat) : Bool := m / 64 == 3 || (m / 64 == 2 && m / 8 % 8 == 7)

/-- The four channels of pixel p as stored. -/
def rawPixel (d : List Byte) (p : Nat) : List Nat := (List.range 4).map fun k => byteN d (4 * p + k)

/-- Adds the next delta of each channel. -/
def deltaPixel (bits w p : Nat) (px : List Nat) : List Nat :=
  (List.range 4).map fun k =>
    let f := bits / 2 ^ (w * (4 * (p - 1) + k)) % 2 ^ w
    wrap 8 ((px.getD k 0 : Int) + sext w f)

/-- The 64 pixels of a tile with a mode byte. -/
def tilePixels (m : Nat) (d : List Byte) : List (List Nat) :=
  if m / 64 == 1 then List.replicate 64 (rawPixel d 0)
  else if m / 64 == 2 && !modeBad m then
    let w := m / 8 % 8 + 1
    let bits := leNat (d.drop 4)
    ((List.range 63).foldl (fun (acc : List (List Nat) × List Nat) i =>
      let px := deltaPixel bits w (i + 1) acc.2
      (acc.1 ++ [px], px)) ([rawPixel d 0], rawPixel d 0)).1
  else (List.range 64).map (rawPixel d)

/-- The bytes of 64 pixels. -/
def pixelBytes (ps : List (List Nat)) : List Byte := ps.flatMap fun p => p.map (BitVec.ofNat 8 ·)

/-- The deltas of a tile in the order of its bit stream. -/
def tileDeltas (ps : List (List Nat)) : List Int :=
  (List.range 63).flatMap fun i => (List.range 4).map fun k =>
    sext 8 (wrap 8 (((ps.getD (i + 1) []).getD k 0 : Int) - ((ps.getD i []).getD k 0 : Int)))

/-- What `ccdc.enc` makes of a tile in state 00: its mode byte and the bytes it writes, or none where it stays. -/
def encodeTile (d : List Byte) : Option (Nat × List Byte) :=
  let ps := (List.range 64).map (rawPixel d)
  if ps.all fun p => p == ps.getD 0 [] then some (0x40, d.take 4)
  else
    let ds := tileDeltas ps
    let fits (w : Nat) : Bool := ds.all fun x => decide (-(2 ^ (w - 1) : Nat) ≤ x) && decide (x < (2 ^ (w - 1) : Nat))
    match (List.range 7).find? fun i => fits (i + 1) with
    | none => none
    | some i =>
      let w := i + 1
      let bits := ds.foldr (fun x a => wrap w x + 2 ^ w * a) 0
      some (0x80 + 8 * i, d.take 4 ++ leBytes ((252 * w + 7) / 8) bits)

/-! ### Texels (R406, R411) -/

/-- A texel coordinate in units of 2^-150: u × dim - 0.5, a NaN or an infinity reading as 0. -/
def texCoord (u dim : Nat) : Int :=
  let v : Int := match fp32.decode u with
    | .fin neg m e => let k : Int := (m * 2 ^ (e + 150).toNat * dim : Nat); if neg then -k else k
    | _ => 0
  v - (2 ^ 149 : Nat)

/-- The lower texel index of a bilinear footprint and its fraction in 1/256. -/
def linIndex (x : Int) : Int × Nat :=
  let i := x / (2 ^ 150 : Nat)
  let fx := (rndShift mRNE false (x % (2 ^ 150 : Nat)).toNat 142).1
  if fx == 256 then (i + 1, 0) else (i, fx)

/-- An index inside the texture. -/
def texIndex (wrapped : Bool) (i : Int) (n : Nat) : Nat :=
  if wrapped then (i % (n : Int)).toNat else if i < 0 then 0 else if i ≥ n then n - 1 else i.toNat

/-- A texel of a footprint: where its bytes are, its place in what is read, and its weight. -/
structure Texel where
  reads : List (Nat × Nat)
  pixel : Nat
  weight : Nat
  deriving DecidableEq, Repr

/-- The texel (i, j) with a weight. -/
def texelAt (t : Tex) (i j : Int) (weight : Nat) : Texel :=
  let x := texIndex t.wrapU i t.w
  let y := texIndex t.wrapV j t.h
  if t.tiled then
    let (n, p) := tileOf t x y
    if t.surf == 0 then { reads := [(t.base + 256 * n + 4 * p, 4)], pixel := 0, weight := weight }
    else { reads := [(t.surf + n, 1), (t.base + 256 * n, 256)], pixel := p, weight := weight }
  else { reads := [(t.base + y * t.pitch + x * texelSize t.fmt, texelSize t.fmt)], pixel := 0, weight := weight }

/-- The texels of a sample: one for `.near`, the four of the footprint for `.lin`. -/
def footprint (t : Tex) (lin : Bool) (u v : Nat) : List Texel :=
  let x := texCoord u t.w
  let y := texCoord v t.h
  if lin then
    let (i, fx) := linIndex x
    let (j, fy) := linIndex y
    [texelAt t i j ((256 - fx) * (256 - fy)), texelAt t (i + 1) j (fx * (256 - fy)), texelAt t i (j + 1) ((256 - fx) * fy)
     , texelAt t (i + 1) (j + 1) (fx * fy)]
  else [texelAt t ((x + (2 ^ 149 : Nat)) / (2 ^ 150 : Nat)) ((y + (2 ^ 149 : Nat)) / (2 ^ 150 : Nat)) 65536]

/-- The channels of a texel from its bytes, as exact values; RGBA8 channels are 255 times their value. -/
def texelChannels (t : Tex) (e : Texel) (ds : List (List Byte)) : List FV × Flags :=
  let d := ds.getD 0 []
  match t.fmt with
  | 0 =>
    if e.reads.length == 2 then
      let m := byteN d 0
      (((tilePixels m (ds.getD 1 [])).getD e.pixel []).map fun (c : Nat) => ofInt c, flagIf (modeBad m) fNV)
    else ((rawPixel d 0).map fun (c : Nat) => ofInt c, 0)
  | 1 => ((List.range 4).map fun k => fp16.decode (bytesNat d (2 * k) 2), 0)
  | 2 => ([fp32.decode (bytesNat d 0 4), ofInt 0, ofInt 0, ofInt 1], 0)
  | 3 => ((List.range 8).map fun k => decodeE4m3 (byteN d k), 0)
  | _ => ((List.range 8).map fun k => decodeDyn8 (byteN d k), 0)

/-- An exact value divided by 255 (RGBA8), close enough to round as the quotient does. -/
def unorm (fmt : Nat) (v : FV) : FV :=
  match v with
  | .fin n m e => if fmt == 0 then .fin n (stickyDiv m 255 80) (e - 81) else .fin n m e
  | w => w

/-- Channel k of a weighted footprint: texels of weight zero do not count. -/
def filterChannel (ts : List (Nat × List FV)) (k : Nat) : FV :=
  let term (t : Nat × List FV) : FV := ((t.2.getD k (ofInt 0)).mul (ofInt t.1)).1
  match ts.filter fun t => t.1 != 0 with
  | [] => ofInt 0
  | t :: ts => scaleBy (ts.foldl (fun (a : FV) u => (a.add mRNE (term u)).1) (term t)) (-16)

/-! ### Reading lanes (R410) -/

/-- Whether a wave's own stores, atomics or acquiring loads in flight hold back a read, or a channel failure parks it (R180, R186,
R461). -/
def readsHeld (s : State) (w : Wave) (rs : List (Nat × Nat)) : Bool := rs.any fun r => !mayHit s w r.1 r.2 || readParked s w r.1 r.2

/-- The line numbers of a colour tile and of its mode byte. -/
def tileSpan (mode tile : Nat) : List Nat :=
  (mode / 128) :: (List.range (lineSpan tile 256)).map fun i => tile / 128 + i

/-- Whether a core's copies of lines were installed by one reading of a whole tile, so that none of them is of another age. -/
def wholeCopies (s : State) (w : Wave) (lines : List Nat) : Bool :=
  let at_ (n : Nat) : Option Nat := (s.l1Serves w.core w.asid (128 * n) (s.specFam w.node)).bind (·.whole)
  match lines with
  | n :: ns => (at_ n).isSome && ns.all fun k => at_ k == at_ n
  | [] => true

/-- Drops a core's copies of lines, so that a reading goes to their homes. -/
def dropCopies (s : State) (w : Wave) (lines : List Nat) : State :=
  { s with l1 := s.l1.filter fun x => !(x.core == w.core && x.asid == w.asid && lines.contains x.line) }

/-- The mode byte and the bytes of a colour tile, read whole: from copies that one reading has installed, or all at their homes
(R418). The bytes of a compressed tile that an ordinary store has spoiled are open (R420). -/
def tileBytes (s : State) (w : Wave) (mode tile : Nat) : Except (Nat × Nat) (List Byte × List Byte × State) := do
  let lines := tileSpan mode tile
  let fresh := !wholeCopies s w lines
  let s := if fresh then dropCopies s w lines else s
  let (m, s) ← arrGlobal s w mode 1
  let (d, s) ← arrGlobal s w tile 256
  let (k, s) := s.fresh
  let keep (x : L1Line) : L1Line := { x with whole := some k }
  let mine (x : L1Line) : Bool := fresh && x.core == w.core && x.asid == w.asid && lines.contains x.line
  let (d, s) := s.openBytes (s.tileSpoiled w.asid mode tile && leNat m / 64 != 0) d
  .ok (m, d, { s with l1 := modify mine keep s.l1 })

/-- What a lane's reads give; a byte before 256 bytes is the mode byte of a colour tile. -/
def laneBytes (s : State) (w : Wave) : List (Nat × Nat) → Except (Nat × Nat) (List (List Byte) × State)
  | [] => .ok ([], s)
  | (m, 1) :: (t, 256) :: rs => do
    let (a, b, s) ← tileBytes s w m t
    let (ds, s) ← laneBytes s w rs
    .ok (a :: b :: ds, s)
  | r :: rs => do
    let (b, s) ← arrGlobal s w r.1 r.2
    let (ds, s) ← laneBytes s w rs
    .ok (b :: ds, s)

/-- The lanes read so far: values, flags, the lanes that failed, and the lowest failure. -/
structure LaneReads where
  s : State
  vals : List (Nat × Nat) := []
  flags : Flags := 0
  bad : Word := 0
  cause : Nat := 0
  addr : Nat := 0

/-- Reads the lanes of m, each with its own reads, as loads of the wave. -/
def lanesRead (c : Ctx) (s : State) (reads : Nat → List (Nat × Nat)) (val : Nat → List (List Byte) → Nat × Flags) : LaneReads :=
  (maskBits c.m).foldl (fun (r : LaneReads) l => match laneBytes r.s (c.wave r.s) (reads l) with
    | .ok (ds, s) =>
      let (v, fl) := val l ds
      { r with s := s, vals := r.vals ++ [(l, v)], flags := r.flags ||| fl }
    | .error (k, a) =>
      if r.bad == 0 || (r.cause == cPARK && k != cPARK) then { r with bad := r.bad ||| maskOf (· == l), cause := k, addr := a }
      else { r with bad := r.bad ||| maskOf (· == l) }) { s := s }

/-- Opens the group in which the values of lanes read land in n registers from d on, and answers its name. -/
def landRead (c : Ctx) (r : LaneReads) (d n : Nat) : Nat × State :=
  let (gid, s) := groupOf r.s c.w
  let s := openLanding s c.w gid (.vec d n) true (r.bad != 0) r.vals
  (gid, { s with lands := modify (fun l => l.gid == gid) (fun l => { l with flags := l.flags ||| r.flags }) s.lands })

/-- Reads the lanes of m as loads of the wave; a failing lane is a lane fault, the others land later in D. -/
def readLanes (c : Ctx) (s : State) (count : Nat) (reads : Nat → List (Nat × Nat)) (val : Nat → List (List Byte) → Nat × Flags) : Act :=
  if (maskBits c.m).any fun l => readsHeld s c.w (reads l) then .wait
  else
    let r := lanesRead c s reads val
    match c.d with
    | some (.v d) =>
      let (gid, s) := landRead c r d count
      if r.bad != 0 then .replay s r.cause r.addr r.bad r.bad (some gid) else .done s
    | _ => .done (groupOf r.s c.w).2

/-! ### `tex`, `texg`, `texn` (R411, R412) -/

/-- Splits what a footprint's reads gave among its texels. -/
def texelData : List Texel → List (List Byte) → List (Texel × List (List Byte))
  | [], _ => []
  | t :: ts, ds => (t, ds.take t.reads.length) :: texelData ts (ds.drop t.reads.length)

/-- The weighted channels of a footprint, with flags. -/
def sampleOf (t : Tex) (fp : List Texel) (ds : List (List Byte)) : List (Nat × List FV) × Flags :=
  (texelData fp ds).foldl (fun (r, f) (e, d) =>
    let (ch, fl) := texelChannels t e d
    (r ++ [(e.weight, ch)], f ||| fl)) ([], 0)

/-- The footprint of a lane's coordinates. -/
def laneFootprint (c : Ctx) (t : Tex) (lin : Bool) (l : Nat) : List Texel :=
  footprint t lin (c.va.w l 0).toNat (c.va.w l 1).toNat

def toF32 (v : FV) : Nat := (fp32.round mRNE false v).1

/-- R411. -/
def execTex (f : Fields) (s : State) : Host.Outcome State Fault Refusal :=
  issue (.tex f) f s fun c s => withDesc c s 32 texOk fun bs s =>
    let t := texOf bs
    let lin := f.m 0 0 == 1
    readLanes c s 4 (fun l => (laneFootprint c t lin l).flatMap (·.reads)) fun l ds =>
      let (ts, fl) := sampleOf t (laneFootprint c t lin l) ds
      let ch (k : Nat) : FV := if lin then filterChannel ts k else ((ts.getD 0 (0, [])).2).getD k (ofInt 0)
      (packWords ((List.range 4).map fun k => toF32 (unorm t.fmt (ch k))), fl)

/-- R411: one channel of the four texels of the footprint. -/
def execTexg (f : Fields) (s : State) : Host.Outcome State Fault Refusal :=
  issue (.texg f) f s fun c s => withDesc c s 32 texOk fun bs s =>
    let t := texOf bs
    readLanes c s 4 (fun l => (laneFootprint c t true l).flatMap (·.reads)) fun l ds =>
      let (ts, fl) := sampleOf t (laneFootprint c t true l) ds
      (packWords (ts.map fun e => toF32 (unorm t.fmt (e.2.getD (f.m 1 0) (ofInt 0)))), fl)

/-- Whether a material entry is valid (R412). -/
def materialOk (m : List Byte) : Bool :=
  decide (1 ≤ byteN m 0 ∧ byteN m 0 ≤ 8) && (List.range 15).all (fun i => byteN m (1 + i) == 0)
    && (List.range 72).all fun i => byteN m (0x1B8 + i) == 0

/-- One fused step of a material's sum. -/
def fuse (acc : Nat) (w : Nat) (x : Nat) : Nat :=
  (fp32.round mRNE false ((fp16.decode w).fma mRNE (fp16.decode x) (fp32.decode acc)).1).1

/-- The four outputs of a material on latents given as FP16 codes. -/
def material (m : List Byte) (lat : List Nat) : List Nat :=
  let h := (List.range 16).map fun j =>
    let acc := (List.range (byteN m 0)).foldl (fun a i => fuse a (bytesNat m (0x10 + 16 * j + 2 * i) 2) (lat.getD i 0))
      (toF32 (fp16.decode (bytesNat m (0x110 + 2 * j) 2)))
    let v := fp32.decode acc
    let x := (fp16.round mRNE false v).1
    let y := fp16.decode x
    if y.isNan || (y.isNeg && !y.isZero) then 0 else x
  (List.range 4).map fun k =>
    (List.range 16).foldl (fun a j => fuse a (bytesNat m (0x130 + 32 * k + 2 * j) 2) (h.getD j 0))
      (toF32 (fp16.decode (bytesNat m (0x1B0 + 2 * k) 2)))

def execTexn (f : Fields) (s : State) : Host.Outcome State Fault Refusal :=
  issue (.texn f) f s fun c s => withDesc c s 32 texOk fun bs s =>
    let t := texOf bs
    let tab := match s.ctx? c.w.asid with | some x => x.mattab | none => 0
    if t.fmt < 3 || tab == 0 then .illopnd
    else withRead c s (tab + 512 * f.e 17 12) 512 fun m s =>
      if !materialOk m then .illopnd
      else readLanes c s 4 (fun l => (laneFootprint c t true l).flatMap (·.reads)) fun l ds =>
        let (ts, fl) := sampleOf t (laneFootprint c t true l) ds
        let lat := (List.range (byteN m 0)).map fun i => (fp16.round mRNE false (filterChannel ts i)).1
        (packWords (material m lat), fl)

/-! ### Pass descriptors (R407, R408) -/

def pdVis (d : List Byte) : Nat := bytesNat d 0 8
def pdPrim (d : List Byte) : Nat := bytesNat d 8 8
def pdBins (d : List Byte) : Nat := bytesNat d 0x10 8
def pdPrev (d : List Byte) : Nat := bytesNat d 0x18 8
def pdMv (d : List Byte) : Nat := bytesNat d 0x20 8
def pdStat (d : List Byte) : Nat := bytesNat d 0x28 8
def pdSurv (d : List Byte) : Nat := bytesNat d 0x30 8
def pdAttr (d : List Byte) : Nat := bytesNat d 0x38 8
def pdFlag (d : List Byte) : Nat := bytesNat d 0x40 8
def pdW (d : List Byte) : Nat := bytesNat d 0x48 2
def pdH (d : List Byte) : Nat := bytesNat d 0x4A 2
def pdNs (d : List Byte) : Nat := 2 ^ byteN d 0x4C
def pdState (d : List Byte) : Nat := byteN d 0x4D
def pdBinCap (d : List Byte) : Nat := bytesNat d 0x4E 2
def pdPrimCap (d : List Byte) : Nat := bytesNat d 0x50 4
def pdSurvCap (d : List Byte) : Nat := bytesNat d 0x54 4
def pdStride (d : List Byte) : Nat := bytesNat d 0x58 4
def pdClrZ (d : List Byte) : Nat := bytesNat d 0x5C 4
def pdTol (d : List Byte) : Nat := bytesNat d 0x60 4

/-- Whether a pass descriptor is valid (R407). -/
def passOk (d : List Byte) : Bool :=
  let side (n : Nat) : Bool := decide (32 ≤ n ∧ n ≤ 16384) && n % 32 == 0
  (List.range 8).all (fun i => bytesNat d (8 * i) 8 % 128 == 0) && pdFlag d % 8 == 0 && side (pdW d) && side (pdH d)
    && byteN d 0x4C ≤ 3 && pdState d ≤ 3 && pdBinCap d ≥ 64 && decide (1024 ≤ pdPrimCap d ∧ pdPrimCap d ≤ 2 ^ 24)
    && decide (1 ≤ pdSurvCap d ∧ pdSurvCap d ≤ 2 ^ 28) && pdStride d % 4 == 0 && decide (4 ≤ pdStride d ∧ pdStride d ≤ 256)
    && kLe 0 (pdClrZ d) && kLe (pdClrZ d) kOne && kLe 0 (pdTol d) && bytesNat d 0x78 8 == 0

/-! ### Reading a finished pass (R418) -/

/-- Runs a body on the descriptor of a finished pass. -/
def withDone (c : Ctx) (s : State) (body : List Byte → State → Act) : Act :=
  withDesc c s 128 passOk fun d s => if pdState d == 3 then body d s else .illopnd

/-- The pixel of a lane, if it lies inside the pass: its number. -/
def pixelOf (d : List Byte) (v : Word) : Option Nat :=
  let x := v.toNat % 65536
  let y := v.toNat / 65536
  if x < pdW d && y < pdH d then some (y * pdW d + x) else none

/-- Reads 8 bytes for each lane whose pixel lies inside the pass; other lanes receive two words. -/
def pixelRead (c : Ctx) (s : State) (d : List Byte) (addr : Nat → Nat) (off0 : Nat) : Act :=
  readLanes c s 2 (fun l => match pixelOf d (c.va.w l) with | some p => [(addr p, 8)] | none => [])
    fun _ ds => match ds with | b :: _ => (leNat b, 0) | [] => (packWords [off0, 0xFFFFFFFF], 0)

def execVbrd (f : Fields) (s : State) : Host.Outcome State Fault Refusal :=
  issue (.vbrd f) f s fun c s => withDone c s fun d s =>
    let n := f.e 14 12
    if n ≥ pdNs d then .illopnd else pixelRead c s d (fun p => pdVis d + (p * pdNs d + n) * 8) 0

def execRpq (f : Fields) (s : State) : Host.Outcome State Fault Refusal :=
  issue (.rpq f) f s fun c s => withDone c s fun d s =>
    if pdPrev d == 0 then .illopnd else pixelRead c s d (fun p => pdStat d + 8 * p) 4

/-- The survivor keys of a pass, of which SURV holds at most SURVCAP (R416). -/
def survKeys (d cb kb : List Byte) : List Nat := (List.range (min (leNat cb) (pdSurvCap d))).map fun i => bytesNat kb (4 * i) 4

/-- The place of a key among the survivors. -/
def survPos (keys : List Nat) (key : Nat) : Option Nat :=
  let i := keys.findIdx fun k => k == key
  if i < keys.length then some i else none

/-- The addresses of the n attributes of a survivor (R418). -/
def attrAddrs (d : List Byte) (n : Nat) (pos : Option Nat) : List Nat :=
  match pos with
  | some i => (List.range n).map fun k => addr64 ((pdAttr d + i * pdStride d + 4 * k : Nat) : Int)
  | none => []

/-- Issues the attribute stores of a mask. -/
def issueAttrs (s : State) (c : Ctx) (gid : Nat) (m : Word) (addrs : Nat → List Nat) : State :=
  (maskBits m).foldl (fun s l => ((addrs l).zipIdx).foldl (fun s (a, k) =>
    let cached := match s.lookup c.w.asid a .write with | some t => !t.uncached | none => true
    addAccess s { id := 0, gid := gid, wid := c.w.wid, node := c.w.node, core := c.w.core, lane := l, kind := .store false
                  space := .glob, asid := c.w.asid, addr := a, size := 4, data := (c.va.w l k).toNat, cached := cached
                  replayed := c.w.rp.isSome }) s) s

/-- R418: the attributes of a survivor are ordinary stores of the wave. -/
def execAemit (f : Fields) (s : State) : Host.Outcome State Fault Refusal :=
  issue (.aemit f) f s fun c s => withDone c s fun d s =>
    let n := f.e 15 12 + 1
    if 4 * n > pdStride d then .illopnd
    else withRead c s (pdSurv d) 4 fun cb s => withRead c s (pdSurv d + 4) (4 * min (leNat cb) (pdSurvCap d)) fun kb s =>
      let pos (l : Nat) : Option Nat := survPos (survKeys d cb kb) (c.vb.w l).toNat
      let addrs (l : Nat) : List Nat := attrAddrs d n (pos l)
      let fault (l : Nat) : Option (Nat × Nat) := (addrs l).findSome? fun a => (s.laneCheck c.w.asid a 4 .write).map fun k => (k, a)
      let bad := maskOf fun l => lane c.m l && (fault l).isSome
      let good := c.m &&& ~~~bad
      let items := (maskBits good).foldl (fun k l => k + (addrs l).length) 0
      if outstFull c.w items then .wait
      else
        let (gid, s) := groupOf s c.w
        let s := addOutst (issueAttrs s c gid good addrs) c.w.wid items
        let s := c.putPred s good (maskOf fun l => (pos l).isSome)
        if bad != 0 then
          let (k, a) := (fault (lowLane bad)).getD (0, 0)
          .replay s k a bad bad none
        else .done s

/-! ### `ccdc` and `ccfc` (R420) -/

/-- The mode byte and the data of a tile (R419). -/
def modeAddr (t : Tex) (n : Nat) : Nat := addr64 ((t.surf + n : Nat) : Int)
def tileAddr (t : Tex) (n : Nat) : Nat := addr64 ((t.base + 256 * n : Nat) : Int)

/-- The active lanes whose tile exists. -/
def tileLanes (c : Ctx) (t : Tex) : Word := maskOf fun l => lane c.m l && decide ((c.va.w l).toNat < tileCount t)

/-- The first failure of a lane's tile. -/
def tileFault (s : State) (c : Ctx) (t : Tex) (l : Nat) : Option (Nat × Nat) :=
  [modeAddr t (c.va.w l).toNat, tileAddr t (c.va.w l).toNat].findSome? fun a => (s.laneCheck c.w.asid a 1 .write).map fun k => (k, a)

/-- Issues the conversions of a mask; one on a page that is never cached is performed in program order with all such (R247). -/
def issueTiles (s : State) (c : Ctx) (gid : Nat) (m : Word) (t : Tex) (op : Nat) : State :=
  (maskBits m).foldl (fun s l =>
    let a := modeAddr t (c.va.w l).toNat
    let kept (va : Nat) : Bool := match s.lookup c.w.asid va .write with | some x => !x.uncached | none => true
    let cached := kept a && kept (tileAddr t (c.va.w l).toNat)
    addAccess s { id := 0, gid := gid, wid := c.w.wid, node := c.w.node, core := c.w.core, lane := l
                  kind := .tile op (tileAddr t (c.va.w l).toNat) (c.vb.w l).toNat, space := .glob, asid := c.w.asid, addr := a
                  size := 1, cached := cached }) s

/-- Converts the tiles of the lanes of m: each tile is one access at its mode byte's home. -/
def convertTiles (c : Ctx) (s : State) (op : Nat) : Act :=
  withDesc c s 32 texOk fun bs s =>
    let t := texOf bs
    if t.fmt != 0 || t.surf == 0 then .illopnd
    else
      let on := tileLanes c t
      let bad := maskOf fun l => lane on l && (tileFault s c t l).isSome
      let good := on &&& ~~~bad
      if outstFull c.w (maskCount good) then .wait
      else
        let (gid, s) := groupOf s c.w
        let s := addOutst (issueTiles s c gid good t op) c.w.wid (maskCount good)
        if bad != 0 then
          let (k, a) := (tileFault s c t (lowLane bad)).getD (0, 0)
          .replay s k a bad bad none
        else .done s

def execCcdcDec (f : Fields) (s : State) : Host.Outcome State Fault Refusal := issue (.ccdcDec f) f s fun c s => convertTiles c s 0
def execCcdcEnc (f : Fields) (s : State) : Host.Outcome State Fault Refusal := issue (.ccdcEnc f) f s fun c s => convertTiles c s 1
def execCcfc (f : Fields) (s : State) : Host.Outcome State Fault Refusal := issue (.ccfc f) f s fun c s => convertTiles c s 2

/-- The mode byte and tile bytes that a conversion writes, or none where it leaves the tile (R420). -/
def convertTile (op colour m : Nat) (d : List Byte) : Option (Nat × List Byte) :=
  match op with
  | 0 => if m / 64 == 0 then none else some (0, pixelBytes (tilePixels m d))
  | 1 => if m / 64 == 0 then encodeTile d else none
  | _ => some (0x40, leBytes 4 colour)

end Sys2Proof.Machine
end

