-- ==== Sys2Proof/Machine/Pass.lean ====
section
/-! DEFINITION. Visibility passes: emission, binning, rasterisation, close and reprojection (R413 to R417). -/

namespace Sys2Proof.Machine

/-! ### Pass records -/

/-- The pass that opened at an event number. -/
def State.passNo (s : State) (k : Nat) : Option Pass := s.passes.find? fun p => p.since == k
/-- A pass that takes or has taken triangles and is not yet written. -/
def PassSt.live : PassSt → Bool
  | .opened | .closing => true
  | .flagging _ _ => false
def State.livePass (s : State) (asid desc : Nat) : Option Pass :=
  s.passes.find? fun p => p.asid == asid && p.desc == desc && p.st.live
def State.setPass (s : State) (p : Pass) : State := { s with passes := modify (fun x => x.since == p.since) (fun _ => p) s.passes }

/-- The buffers of a pass, with their sizes (R407). -/
def passBuffers (d : List Byte) : List (Nat × Nat) :=
  let px := pdW d * pdH d
  [(pdVis d, 8 * px * pdNs d), (pdPrim d, 48 * pdPrimCap d), (pdBins d, pdW d / 32 * (pdH d / 32) * (8 + 4 * pdBinCap d))
   , (pdStat d, 8 * px), (pdSurv d, 4 + 4 * pdSurvCap d)]

/-- Whether software has written the descriptor of a pass or a buffer that it names since it opened: what the pass leaves is open
(R1, R407, R423). -/
def passSpoiled (s : State) (p : Pass) : Bool :=
  let d := p.bytes
  let inputs := if pdPrev d == 0 then [] else [(pdPrev d, 8 * pdW d * pdH d * pdNs d), (pdMv d, 8 * pdW d * pdH d)]
  ((p.desc, 128) :: (passBuffers d ++ inputs)).any fun b => s.writtenSince p.asid b.1 b.2 p.since

/-- Whether bytes go to a buffer of a pass that software has spoiled. -/
def spoiledAt (s : State) (asid va n : Nat) : Bool :=
  s.passes.any fun p => p.asid == asid && passSpoiled s p && (passBuffers p.bytes).any fun b => State.meets va n b.1 b.2

/-- Writes a field of a pass descriptor, as the part's own write. -/
def putField (s : State) (asid desc off n v : Nat) : State := s.partWrite asid (desc + off) (leBytes n v)

/-- A value that a pass leaves, an open one where software has spoiled the pass (R1). -/
def passVal (s : State) (asid desc n v : Nat) : Nat × State :=
  let (bs, s) := s.openBytes (match s.livePass asid desc with | some p => passSpoiled s p | none => false) (leBytes n v)
  (leNat bs, s)

/-- Adds to a counter of a pass descriptor, modulo 2^32. -/
def addField (s : State) (asid desc off k : Nat) : State :=
  let (v, s) := passVal s asid desc 4 ((leNat (s.partRead asid (desc + off) 4) + k) % 2 ^ 32)
  putField s asid desc off 4 v

def oCULLED : Nat := 0x64
def oREFUSED : Nat := 0x68
def oLATE : Nat := 0x6C
def oFLUSHES : Nat := 0x70
def oNSURV : Nat := 0x74

/-- What fails in the writing of a pass buffer: the cause, the address, what has been done, and the largest GWCT of that. -/
structure PassErr where
  cause : Nat
  addr : Nat
  s : State
  gw : Nat := 0

/-- Writes bytes of a pass buffer at their homes, outside every version, or open ones where software has written the pass's buffers;
`gw` is the largest GWCT so far. -/
def passPut (asid va : Nat) (bs : List Byte) (r : State × Nat) : Except PassErr (State × Nat) :=
  let (bs, s) := r.1.openBytes (spoiledAt r.1 asid va bs.length) bs
  let w := homeWrite s asid none va bs
  match w.err with
  | some (c, a) => .error { cause := c, addr := a, s := w.s, gw := max r.2 w.gwct }
  | none => .ok (w.s, max r.2 w.gwct)

/-- Reads committed bytes of a pass buffer; `gw` is the largest GWCT of what the pass has written so far. -/
def passGet (asid va n : Nat) (s : State) (gw : Nat) : Except PassErr (List Byte × State) :=
  match homeRead s asid none va n with
  | .ok r => .ok r
  | .error (c, a) => .error { cause := c, addr := a, s := s, gw := gw }

/-- Writes open bytes into PRIM or BINS. -/
def passScribble (asid va n : Nat) (s : State) : Except PassErr State := do
  let (bs, s) := freeBytes s n
  let r ← passPut asid va bs (s, 0)
  .ok r.1

/-- A fault on a pass buffer holds the pass and is reported as an engine fault is; PARTIAL tells of the task that the record names
(R346, R416, R424). -/
def passFault (s : State) (k : Nat) (e : PassErr) : State :=
  match s.passNo k with
  | some p =>
    let s := writeSave ((s.noteFault p.asid e.cause e.addr).setPass { p with held := true, count := p.count + 1, gw := max p.gw e.gw }) p.asid
    s.appendRec { code := codeOf e.cause, cause := e.cause, flags := 1 + s.partialFlag p.node, source := 5, task := p.task, pc := p.pc
                  addr := BitVec.ofNat 64 e.addr, asid := p.asid, info := p.count } (.pass p.asid p.desc)
  | none => s

/-! ### Rasterisation (R415) -/

/-- A sample: its depth as an FP32 code, and the key it shows. -/
abbrev Sample := Nat × Nat

/-- The background key. -/
def keyNone : Nat := 0xFFFFFFFF

/-- Sample positions in 1/16 pixel. -/
def samplePos (ns : Nat) : List (Nat × Nat) :=
  match ns with
  | 1 => [(8, 8)]
  | 2 => [(4, 4), (12, 12)]
  | 4 => [(6, 2), (14, 6), (2, 10), (10, 14)]
  | _ => [(9, 5), (7, 11), (13, 9), (5, 3), (3, 13), (1, 7), (11, 15), (15, 1)]

/-- The lesser of two pairs: depth first, then key. -/
def leastSample (a b : Sample) : Sample :=
  let c := (fp32.decode b.1).cmp (fp32.decode a.1)
  if c < 0 || (c == 0 && b.2 < a.2) then b else a

/-- Twice the signed area of a triangle. -/
def triArea (t : Tri) : Int :=
  let x (i : Nat) := t.xs.getD i 0
  let y (i : Nat) := t.ys.getD i 0
  (x 1 - x 0) * (y 2 - y 0) - (y 1 - y 0) * (x 2 - x 0)

/-- The vertices reordered so that the area is positive. -/
def triFacing (t : Tri) : Tri :=
  if triArea t < 0 then
    { t with xs := [t.xs.getD 0 0, t.xs.getD 2 0, t.xs.getD 1 0], ys := [t.ys.getD 0 0, t.ys.getD 2 0, t.ys.getD 1 0]
             zs := [t.zs.getD 0 0, t.zs.getD 2 0, t.zs.getD 1 0] }
  else t

/-- E of an edge at a point, and whether the point is on the inner side of it. -/
def edgeAt (t : Tri) (a b : Nat) (px py : Int) : Int :=
  (t.xs.getD b 0 - t.xs.getD a 0) * (py - t.ys.getD a 0) - (t.ys.getD b 0 - t.ys.getD a 0) * (px - t.xs.getD a 0)

def edgeIn (t : Tri) (a b : Nat) (e : Int) : Bool :=
  decide (e > 0) || (e == 0 && ((t.ys.getD a 0 == t.ys.getD b 0 && decide (t.xs.getD b 0 > t.xs.getD a 0))
    || decide (t.ys.getD b 0 < t.ys.getD a 0)))

/-- An exact value divided by a positive integer, close enough to round as the quotient does. -/
def fvDiv (v : FV) (d : Nat) : FV :=
  match v with
  | .fin n m e => .fin n (stickyDiv m d (Nat.log2 d + 80)) (e - (Nat.log2 d + 81 : Nat))
  | w => w

/-- The depth of a triangle at a point it covers, if it covers it. -/
def coverDepth (t : Tri) (px py : Int) : Option Nat :=
  let e0 := edgeAt t 1 2 px py
  let e1 := edgeAt t 2 0 px py
  let e2 := edgeAt t 0 1 px py
  if edgeIn t 1 2 e0 && edgeIn t 2 0 e1 && edgeIn t 0 1 e2 then
    let z (i : Nat) : FV := fp32.decode (t.zs.getD i 0)
    let term (i : Nat) (e : Int) : FV := ((z i).mul (ofInt e)).1
    let sum := (((term 0 e0).add mRNE (term 1 e1)).1.add mRNE (term 2 e2)).1
    let d := toF32 (fvDiv sum (triArea t).toNat)
    let d := if d == 2 ^ 31 then 0 else d
    if kLe 0 d && kLe d kOne then some d else none
  else none

/-- A sample after a triangle. -/
def shadeSample (t : Tri) (px py : Int) (old : Sample) : Sample :=
  match coverDepth t px py with
  | some d => leastSample old (d, t.key)
  | none => old

/-- Tiles in a row of tiles. -/
def tilesX (d : List Byte) : Nat := pdW d / 32
def tilesY (d : List Byte) : Nat := pdH d / 32

/-- Pixel row y of a tile: the address of its samples in VIS and the samples of its 32 pixels. -/
def rowAddr (d : List Byte) (tile y : Nat) : Nat :=
  pdVis d + (((tile / tilesX d * 32 + y) * pdW d + tile % tilesX d * 32) * pdNs d) * 8

/-- The samples of a row after the triangles of a bin. -/
def rasterRow (d : List Byte) (tile y : Nat) (tris : List Tri) (old : List Sample) : List Sample :=
  let ns := pdNs d
  (old.zipIdx).map fun (o, i) =>
    let (sx, sy) := (samplePos ns).getD (i % ns) (8, 8)
    let px : Int := (256 * (tile % tilesX d * 32 + i / ns) + 16 * sx : Nat)
    let py : Int := (256 * (tile / tilesX d * 32 + y) + 16 * sy : Nat)
    tris.foldl (fun a t => shadeSample t px py a) o

/-- Rasterises one tile into VIS; answers the keys its samples show. -/
def flushTile (p : Pass) (tile : Nat) (r : State × Nat) : Except PassErr ((State × Nat) × List Nat) :=
  let d := p.bytes
  let n := 32 * pdNs d
  let tris := match p.bins.find? fun b => b.tile == tile with | some b => b.tris.map triFacing | none => []
  (List.range 32).foldlM (fun (r, ks) y => do
    let (old, s) ← if p.loaded.contains tile then
        do let (bs, s) ← passGet p.asid (rowAddr d tile y) (8 * n) r.1 r.2
           .ok ((List.range n).map fun i => (bytesNat bs (8 * i) 4, bytesNat bs (8 * i + 4) 4), s)
      else .ok (List.replicate n (pdClrZ d, keyNone), r.1)
    let row := rasterRow d tile y tris old
    let r ← passPut p.asid (rowAddr d tile y) (row.flatMap fun x => leBytes 4 x.1 ++ leBytes 4 x.2) (s, r.2)
    .ok (r, ks ++ row.map (·.2))) (r, [])

/-- An early tile flush (R414): the tile becomes loaded and its bin empty. -/
def earlyFlush (asid desc tile : Nat) (s : State) : Except PassErr State :=
  match s.livePass asid desc with
  | none => .ok s
  | some p => do
    let (r, _) ← flushTile p tile (s, 0)
    let s := addField r.1 asid desc oFLUSHES 1
    .ok (s.setPass { p with loaded := tile :: p.loaded.filter (· != tile), bins := p.bins.filter fun b => b.tile != tile
                            gw := max p.gw r.2 })

/-! ### Bin appends (R414) -/

/-- Triangles in a tile's bin. -/
def binLen (p : Pass) (tile : Nat) : Nat := match p.bins.find? fun b => b.tile == tile with | some b => b.tris.length | none => 0

/-- Bytes of one bin in the bin store (R407). -/
def binBytes (d : List Byte) : Nat := 8 + 4 * pdBinCap d

/-- Performs an append at its bin; a bin that it fills is flushed. -/
def appendBin (x : Append) (s : State) : Except PassErr State :=
  match s.livePass x.asid x.desc with
  | none => .ok s
  | some p => do
    let k := binLen p x.tile
    let at_ := pdBins p.bytes + x.tile * binBytes p.bytes
    let s ← passScribble x.asid at_ 8 s
    let s ← passScribble x.asid (at_ + 8 + 4 * k) 4 s
    let old := match p.bins.find? fun b => b.tile == x.tile with | some b => b.tris | none => []
    let s := s.setPass { p with bins := { tile := x.tile, tris := old ++ [x.tri] } :: p.bins.filter fun b => b.tile != x.tile }
    let s := { s with appends := s.appends.filter fun y => y.id != x.id }
    if k + 1 ≥ pdBinCap p.bytes then earlyFlush x.asid x.desc x.tile s else .ok s

/-- The state after a piece of pass work. -/
def passDone (k : Nat) : Except PassErr State → State
  | .ok s => match s.passNo k with | some p => s.setPass { p with count := 0 } | none => s
  | .error e => passFault e.s k e

def execBinAppend (append : Nat) (s : State) : Host.Outcome State Fault Refusal :=
  match s.appends.find? fun x => x.id == append with
  | some x => match s.livePass x.asid x.desc with
    | some p => if p.held || s.anyParked || binLen p x.tile ≥ pdBinCap p.bytes then .next s else .next (passDone p.since (appendBin x s))
    | none => .next { s with appends := s.appends.filter fun y => y.id != append }
  | none => .next s

/-- Flushes the bins of a pass that are full. -/
def flushFull (asid desc : Nat) (s : State) : Except PassErr State :=
  match s.livePass asid desc with
  | none => .ok s
  | some p => (p.bins.filter fun b => b.tris.length ≥ pdBinCap p.bytes).foldlM (fun s b => earlyFlush asid desc b.tile s) s

/-- Performs every append of a pass on its way, then flushes every tile with a nonempty bin and empties PRIM (R414). -/
def emptyPrim (asid desc : Nat) (s : State) : Except PassErr State := do
  let s ← flushFull asid desc s
  let s ← (s.appends.filter fun x => x.asid == asid && x.desc == desc).foldlM (fun s x => appendBin x s) s
  match s.livePass asid desc with
  | none => .ok s
  | some p =>
    let s ← p.bins.foldlM (fun s b => earlyFlush asid desc b.tile s) s
    match s.livePass asid desc with
    | some p => .ok (s.setPass { p with prims := 0 })
    | none => .ok s

/-! ### Emission (R413) -/

/-- The values of a lane's vertex k: x, y, z and w. -/
def vertexOf (c : Ctx) (l k : Nat) : List FV := (List.range 4).map fun i => fp32.decode (c.va.w l (4 * k + i)).toNat

/-- What R413 does with a lane. -/
inductive Emit where
  | refused
  | culled
  | tri (t : Tri)

/-- a < b, false with any NaN. -/
def fvLt (a b : FV) : Bool := !a.isNan && !b.isNan && decide (a.cmp b < 0)
/-- a ≤ 0. -/
def fvNonPos (a : FV) : Bool := !a.isNan && decide (a.cmp (ofInt 0) ≤ 0)

/-- Whether all three vertices lie beyond one plane of the view volume. -/
def beyond (vs : List (List FV)) : Bool :=
  let c (v : List FV) (i : Nat) : FV := v.getD i (ofInt 0)
  (vs.all fun v => fvLt (c v 0) (c v 3).flip) || (vs.all fun v => fvLt (c v 3) (c v 0))
    || (vs.all fun v => fvLt (c v 1) (c v 3).flip) || (vs.all fun v => fvLt (c v 3) (c v 1))
    || (vs.all fun v => fvLt (c v 2) (ofInt 0)) || (vs.all fun v => fvLt (c v 3) (c v 2))

/-- num / den of two finite values as a fraction of integers. -/
def ratio (a b : FV) : Option (Int × Nat) :=
  match a, b with
  | .fin x m e, .fin y n g =>
    if n == 0 then none
    else
      let q := if e < g then e else g
      let mi : Int := (m * 2 ^ (e - q).toNat : Nat)
      some ((if x != y then -mi else mi), n * 2 ^ (g - q).toNat)
  | .fin _ _ _, .inf _ => some (0, 1)
  | _, _ => none

/-- RoundHalfEven of a fraction. -/
def rhe (n : Int) (d : Nat) : Int :=
  let q := n / (d : Int)
  let r := n % (d : Int)
  if 2 * r > (d : Int) || (2 * r == (d : Int) && q % 2 == 1) then q + 1 else q

/-- A screen coordinate: RoundHalfEven((s v/w × 0.5 + 0.5) × side × 256), s = 1 or -1. -/
def snap (v w : FV) (neg : Bool) (side : Nat) : Option Int :=
  match ratio v w with
  | some (n, d) =>
    let r := rhe (((if neg then -n else n) + d) * (128 * side : Nat)) d
    if -(2 ^ 30 : Nat) ≤ r && r < (2 ^ 30 : Nat) then some r else none
  | none => none

/-- z/w rounded to FP32. -/
def snapZ (z w : FV) : Nat :=
  match ratio z w with
  | some (n, d) =>
    let v := toF32 (fvDiv (ofInt n) d)
    if n == 0 && z.isNeg then 2 ^ 31 else v
  | none => match z, w with
    | .inf n, .fin _ _ _ => toF32 (.inf n)
    | _, _ => fp32.nan

/-- Steps 1 to 4 of R413 on a lane. -/
def emitLane (c : Ctx) (d : List Byte) (l : Nat) : Emit :=
  let vs := (List.range 3).map (vertexOf c l)
  let at_ (v : List FV) (i : Nat) : FV := v.getD i (ofInt 0)
  let key := (c.vb.w l).toNat
  let low := vs.filter fun v => fvNonPos (at_ v 3)
  if (low.length != 0 && low.length != 3) || key == keyNone then .refused
  else if low.length == 3 || (vs.any fun v => v.any FV.isNan) || beyond vs then .culled
  else
    let xs := vs.map fun v => snap (at_ v 0) (at_ v 3) false (pdW d)
    let ys := vs.map fun v => snap (at_ v 1) (at_ v 3) true (pdH d)
    if (xs ++ ys).any Option.isNone then .refused
    else
      let t : Tri := { xs := xs.map (·.getD 0), ys := ys.map (·.getD 0), zs := vs.map fun v => snapZ (at_ v 2) (at_ v 3), key := key }
      let a := triArea t
      if a == 0 || (c.f.m 1 0 == 2 && decide (a > 0)) || (c.f.m 1 0 == 1 && decide (a < 0)) then .culled else .tri t

/-- The tiles that the bounding box of a triangle touches. -/
def tilesTouched (d : List Byte) (t : Tri) : List Nat :=
  let lo (l : List Int) : Int := l.foldl min (l.getD 0 0)
  let hi (l : List Int) : Int := l.foldl max (l.getD 0 0)
  let span (l : List Int) (n : Nat) : List Nat := (List.range n).filter fun i =>
    decide ((8192 * i : Nat) ≤ hi l) && decide (lo l < (8192 * (i + 1) : Nat))
  (span t.ys (tilesY d)).flatMap fun ty => (span t.xs (tilesX d)).map fun tx => ty * tilesX d + tx

/-- Step 5 of R413: the triangle enters PRIM, and its index goes to every bin it touches. -/
def binTri (asid desc : Nat) (t : Tri) (s : State) : Except PassErr State := do
  let full : Bool := match s.livePass asid desc with | some p => decide (p.prims ≥ pdPrimCap p.bytes) | none => false
  let s ← if full then emptyPrim asid desc s else .ok s
  match s.livePass asid desc with
  | none => .ok s
  | some p =>
    let s ← passScribble asid (pdPrim p.bytes + 48 * p.prims) 48 s
    let s := s.setPass { p with prims := p.prims + 1 }
    .ok ((tilesTouched p.bytes t).foldl (fun s tile =>
      let (id, s) := s.fresh
      { s with appends := s.appends ++ [{ id := id, asid := asid, desc := desc, tile := tile, tri := t }] }) s)

/-- Emits the lanes that are not done: the lanes done and their D bits, with a fault that stopped the work. -/
def emitLanes (c : Ctx) (desc : Nat) (d : List Byte) : List Nat → Word → Word → State → Word × Word × Except PassErr State
  | [], dn, res, s => (dn, res, .ok s)
  | l :: ls, dn, res, s =>
    let one := maskOf (· == l)
    match emitLane c d l with
    | .refused => emitLanes c desc d ls (dn ||| one) res (addField s c.w.asid desc oREFUSED 1)
    | .culled => emitLanes c desc d ls (dn ||| one) res (addField s c.w.asid desc oCULLED 1)
    | .tri t => match binTri c.w.asid desc t s with
      | .ok s => emitLanes c desc d ls (dn ||| one) (res ||| one) s
      | .error e => (dn, res, .error e)

/-- The first `pemit` opens the pass (R413). -/
def openPass (c : Ctx) (s : State) (desc : Nat) (d : List Byte) : State :=
  let (k, s) := s.fresh
  let s := putField s c.w.asid desc 0x4D 1 1
  let s := [oCULLED, oREFUSED, oLATE, oFLUSHES, oNSURV].foldl (fun s o => putField s c.w.asid desc o 4 0) s
  let p : Pass := { asid := c.w.asid, desc := desc, since := k, bytes := d, task := State.taskId c.node, pc := c.w.pc, node := c.w.node }
  { s with passes := s.passes ++ [p] }

/-- Emission into an open pass; a fault holds the pass, and the wave goes on with the lanes left after the reply. -/
def emitInto (c : Ctx) (s : State) (p : Pass) : Act :=
  if p.held then .wait
  else
    let (dn, res) := match p.part.find? fun x => x.1 == c.w.wid with | some (_, a, b) => (a, b) | none => (0#32, 0#32)
    match emitLanes c p.desc p.bytes (maskBits (c.m &&& ~~~dn)) dn res s with
    | (_, res, .ok s) =>
      let s := match s.livePass p.asid p.desc with
        | some p => s.setPass { p with part := p.part.filter fun x => x.1 != c.w.wid }
        | none => s
      let (v, s) := passVal s p.asid p.desc 4 res.toNat
      .done (c.putPred s c.m (BitVec.ofNat 32 v))
    | (dn, res, .error e) =>
      let s := match e.s.livePass p.asid p.desc with
        | some p => e.s.setPass { p with part := (c.w.wid, dn, res) :: p.part.filter fun x => x.1 != c.w.wid }
        | none => e.s
      .queue (passFault s p.since { e with s := s })

/-- Runs a body on a valid pass descriptor as it stands at its home, where the part keeps STATE: no copy of a core is asked (log
entry 19). -/
def withPassDesc (c : Ctx) (s : State) (body : List Byte → State → Act) : Act :=
  let a := c.vc.scalar64
  if a % 128 != 0 then .illopnd
  else if s.anyParked || !mayHit s (c.wave s) a 128 then .wait
  else match homeRead s c.w.asid (s.specFam c.w.node) a 128 with
    | .error (cause, addr) => .replayRest s c.w cause addr c.w.exec
    | .ok (d, s) => if passOk d then body d s else .illopnd

/-- R413. A `pemit` that a buffer fault has interrupted arrived before a later close, so it goes on (R416). A descriptor that
software writes while STATE is 1 or 2 breaks R407: the pass keeps the copy that it opened with, and every value that it leaves is
open (R1). -/
def execPemit (f : Fields) (s : State) : Host.Outcome State Fault Refusal :=
  issue (.pemit f) f s fun c s => withPassDesc c s fun d s =>
    let desc := c.vc.scalar64
    match s.livePass c.w.asid desc with
    | some p =>
      if p.st == .opened || p.part.any fun x => x.1 == c.w.wid then emitInto c s p
      else .done (c.putPred (addField s c.w.asid desc oLATE (maskCount c.m)) c.m 0)
    | none =>
      if pdState d ≥ 2 then .done (c.putPred (addField s c.w.asid desc oLATE (maskCount c.m)) c.m 0)
      else
        let s := openPass c s desc d
        match s.livePass c.w.asid desc with
        | some p => emitInto c s p
        | none => .done s

/-! ### Close (R416) -/

def execPemitClose (f : Fields) (s : State) : Host.Outcome State Fault Refusal :=
  issue (.pemitClose f) f s fun c s => withPassDesc c s fun d s =>
    let desc := c.vc.scalar64
    let p? : Option (Pass × State) := match s.livePass c.w.asid desc with
      | some p => if p.st == .opened then some (p, s) else none
      | none => if pdState d == 1 then
          let s := openPass c s desc d
          (s.livePass c.w.asid desc).map fun p => (p, s)
        else none
    match p? with
    | none => .illopnd
    | some (p, s) =>
      let s := putField s c.w.asid desc 0x4D 1 2
      .done (s.setPass { p with st := .closing, closer := some c.w.node, task := State.taskId c.node, pc := c.w.pc, node := c.w.node })

/-- Inserts a key into an ascending list of distinct keys. -/
def addKey (k : Nat) : List Nat → List Nat
  | [] => [k]
  | x :: xs => if k < x then k :: x :: xs else if k == x then x :: xs else x :: addKey k xs

/-- The pixel that a pixel was at in the previous frame, or none (NOSOURCE, R417). -/
def sourceOf (x y w h : Nat) (mv : List Byte) : Option (Nat × Nat) :=
  let m (i : Nat) : FV := fp16.decode (bytesNat mv (2 * i) 2)
  if (List.range 3).any fun i => (m i).isNan || (m i).isInf then none
  else
    let q (v : Nat) (i : Nat) : Int := (((ofInt v).add mRNE (m i).flip).1.toInt mRNE true 64).1
    let qx := q x 0
    let qy := q y 1
    if qx < 0 || qy < 0 || qx ≥ w || qy ≥ h then none else some (qx.toNat, qy.toNat)

/-- The status of a pixel that has a source (R417). -/
def reuseStatus (tol : Nat) (dz : FV) (cur prev : Nat × Nat) : Nat :=
  let mag (v : FV) : FV := if v.isNeg then v.flip else v
  let diff := mag (((fp32.decode prev.1).add mRNE dz).1.add mRNE (fp32.decode cur.1).flip).1
  let limit := ((fp32.decode tol).mul (mag (fp32.decode cur.1))).1
  if prev.2 != cur.2 then 3
  else if cur.2 != keyNone && fvLt limit diff then 1
  else 0

/-- Sample 0 of a pixel of a visibility buffer. -/
def sampleZero (asid vis ns gw : Nat) (s : State) (p : Nat) : Except PassErr ((Nat × Nat) × State) := do
  let (b, s) ← passGet asid (vis + p * ns * 8) 8 s gw
  .ok ((bytesNat b 0 4, bytesNat b 4 4), s)

/-- Writes STAT (R417). -/
def reprojectAll (p : Pass) (r : State × Nat) : Except PassErr (State × Nat) :=
  let d := p.bytes
  (List.range (pdW d * pdH d)).foldlM (fun r i => do
    let (cur, s) ← sampleZero p.asid (pdVis d) (pdNs d) r.2 r.1 i
    let (mv, s) ← passGet p.asid (pdMv d + 8 * i) 8 s r.2
    let (words, s) ← match sourceOf (i % pdW d) (i / pdW d) (pdW d) (pdH d) mv with
      | none => .ok ((2, keyNone), s)
      | some (qx, qy) => do
        let (prev, s) ← sampleZero p.asid (pdPrev d) (pdNs d) r.2 s (qy * pdW d + qx)
        let st := reuseStatus (pdTol d) (fp16.decode (bytesNat mv 4 2)) cur prev
        .ok ((st, if st == 0 then qx + 65536 * qy else keyNone), s)
    passPut p.asid (pdStat d + 8 * i) (leBytes 4 words.1 ++ leBytes 4 words.2) (s, r.2)) r

/-- The on-chip copies of the lines that a pass has written its buffers in leave the chip, written back, with their largest Emax: step 4 of
R250, as R416 has the flag follow it. -/
def dropBuffers (p : Pass) (s : State) : Nat × State :=
  let d := p.bytes
  let px := pdW d * pdH d
  let ranges := [(pdVis d, 8 * pdNs d * px), (pdSurv d, 4 + 4 * pdSurvCap d)] ++ (if pdPrev d != 0 then [(pdStat d, 8 * px)] else [])
  let ls := s.homes.filter fun h => h.asid == p.asid && ranges.any fun r => State.meets (128 * h.line) 128 r.1 r.2
  (ls.foldl (fun e h => max e h.emax) 0, ls.foldl State.evict s)

/-- Steps 2 to 5 of R416. -/
def closePass (p : Pass) (s : State) : Except PassErr (State × Nat × Nat) := do
  let d := p.bytes
  let (r, keys) ← (List.range (tilesX d * tilesY d)).foldlM (fun ((r, ks) : (State × Nat) × List Nat) tile => do
    let (r, new) ← flushTile p tile r
    .ok (r, new.foldl (fun a k => if k == keyNone then a else addKey k a) ks)) ((s, 0), [])
  let r ← if pdPrev d != 0 then reprojectAll p r else .ok r
  let n := keys.length
  let r ← passPut p.asid (pdSurv d) (leBytes 4 n ++ (keys.take (pdSurvCap d)).flatMap (leBytes 4)) r
  let g := match r.1.locate p.asid p.desc with | some t => r.1.gwctOf p.asid p.desc t | none => 0
  let (v, s) := passVal r.1 p.asid p.desc 4 n
  let s := putField (putField s p.asid p.desc oNSURV 4 v) p.asid p.desc 0x4D 1 3
  .ok (s, max r.2 g, if n > pdSurvCap d then 2 else 0)

/-- Writes the flag and ends the pass (R416 step 6). -/
def flagPass (p : Pass) (status : Nat) (s : State) : Except PassErr State := do
  let (bs, s) := s.openBytes (passSpoiled s p) (leBytes 8 (1 + status * 256))
  let r ← passPut p.asid (pdFlag p.bytes) bs (s, 0)
  .ok { r.1 with passes := r.1.passes.filter fun x => x.since != p.since }

/-- The oldest closed pass of a descriptor that is not held. -/
def State.closedPass (s : State) (asid desc : Nat) : Option Pass :=
  s.passes.find? fun p => p.asid == asid && p.desc == desc && p.st != .opened && !p.held

/-- Whether every `pemit` of a closing pass that arrived before the close has been binned (R416 step 1). -/
def passBinned (p : Pass) (s : State) : Bool :=
  !(s.appends.any fun x => x.asid == p.asid && x.desc == p.desc) && !(p.part.any fun x => (s.wave? x.1).isSome)

/-- Steps 2 to 5 of a close: the lines of the buffers leave the chip, and the pass waits to write its flag, or a fault holds it. -/
def closeStep (p : Pass) (s : State) : State :=
  match closePass p s with
  | .ok (s, gw, status) =>
    let (e, s) := dropBuffers p s
    s.setPass { p with st := .flagging status (max (max gw e) s.ns), count := 0 }
  | .error e => passFault e.s p.since e

/-- What a closed pass does next. -/
def closeWork (p : Pass) (s : State) : State :=
  match p.st with
  | .opened => s
  | .closing => if passBinned p s then closeStep p s else s
  | .flagging status gw => if s.ns ≥ gw + 2 then (passDone p.since (flagPass p status s)).settle else s

def execPassCloseProcess (asid desc : Nat) (s : State) : Host.Outcome State Fault Refusal :=
  .next (match s.closedPass asid desc with | some p => if s.anyParked then s else closeWork p s | none => s)

/-- The pass of a descriptor that a fault holds. -/
def State.heldPass (s : State) (asid desc : Nat) : Option Pass :=
  s.passes.find? fun p => p.asid == asid && p.desc == desc && p.held

/-- A reply releases a held pass: its full bins are flushed, and its other work goes on. -/
def releasePass (s : State) (asid desc : Nat) : State :=
  match s.heldPass asid desc with
  | some p =>
    let s := s.setPass { p with held := false }
    match flushFull asid desc s with
    | .ok s => s
    | .error e => passFault e.s p.since e
  | none => s

/-- A pass ends with status 1: STATE becomes 3, and the flag waits until the clock has passed the Emax of every line that the pass has
written (R250, R416). -/
def failPass (p : Pass) (s : State) : State :=
  let s := { s with appends := s.appends.filter fun x => !(x.asid == p.asid && x.desc == p.desc) }
  let g := match s.locate p.asid p.desc with | some t => s.gwctOf p.asid p.desc t | none => 0
  let (e, s) := dropBuffers p s
  (putField s p.asid p.desc 0x4D 1 3).setPass { p with held := false, st := .flagging 1 (max (max p.gw e) (max g s.ns)) }

/-- A reply ends a held pass (R416, R428). -/
def endPass (s : State) (asid desc : Nat) : State := match s.heldPass asid desc with | some p => failPass p s | none => s

end Sys2Proof.Machine
end

