-- ==== Sys2Proof/Machine/Host.lean ====
section
/-! DEFINITION. The host's side: contexts, generations, fault replies, queue control, saving and slicing, migration, the
registers of BAR0 and BAR2, and host accesses (R202, R251, R428, R438 to R457). -/

namespace Sys2Proof.Machine

/-! ### The driver's tables -/

/-- The physical address of the level-0 entry of a page (R162). -/
def leafSlot (s : State) (root va : Nat) : Option Nat :=
  match State.pointer (s.physNat (root + 8 * State.bits va 52 43) 8) with
  | none => none
  | some t2 => match State.pointer (s.physNat (t2 + 8 * State.bits va 42 33) 8) with
    | none => none
    | some t1 => match State.pointer (s.physNat (t1 + 8 * State.bits va 32 23) 8) with
      | none => none
      | some t0 => some (t0 + 8 * State.bits va 22 13)

/-! ### Creating and destroying a context (R446, R447) -/

/-- A power of two from 2^lo to 2^hi. -/
def powIn (n lo hi : Nat) : Bool := (List.range (hi + 1 - lo)).any fun k => n == 2 ^ (lo + k)

/-- A ring descriptor (R451). -/
def ringOf (bs : List Byte) : Ring := { base := bytesNat bs 0 8, slots := bytesNat bs 8 4 }
def ringOk (bs : List Byte) : Bool := bytesNat bs 0 8 % 128 == 0 && powIn (bytesNat bs 8 4) 3 16 && bytesNat bs 12 4 == 0

/-- Whether the fields of a context descriptor lie in their ranges (R446). -/
def descOk (d : List Byte) : Bool :=
  let f (o n : Nat) := bytesNat d o n
  f 0 2 < 4096 && (f 2 2 == 0 || decide (32 ≤ f 2 2 ∧ f 2 2 ≤ 4096)) && f 4 4 ≤ 60000 && f 8 8 % 8192 == 0
    && decide (f 8 8 < Config.hbmEnd) && decide (1 ≤ f 0x28 4 ∧ f 0x28 4 ≤ 65536)
    && State.bits (f 0x2C 4) 7 1 == 0 && f 0x2C 4 / 2 ^ 14 == 0 && f 0x30 8 % 32 == 0 && powIn (f 0x38 4) 6 20
    && powIn (f 0x3C 4) 6 20 && f 0x40 8 % 64 == 0 && f 0x48 8 % 8192 == 0
    && ((f 0x50 8 == 0 && f 0x58 4 == 0)
      || (f 0x50 8 % 8192 == 0 && f 0x58 4 % 4096 == 0 && decide (262144 ≤ f 0x58 4 ∧ f 0x58 4 ≤ 16777216)))
    && f 0x5C 4 == 0 && f 0x60 8 % 512 == 0 && f 0x70 8 == 0 && f 0x78 8 == 0

/-- The context that a descriptor at an address describes. -/
def contextOf (s : State) (addr : Nat) (d : List Byte) : Context :=
  let f (o n : Nat) := bytesNat d o n
  { asid := f 0 2, desc := addr, lease := if f 2 2 == 0 then Config.defaultLease else f 2 2
    wdogMs := if f 4 4 == 0 then Config.defaultWdogMs else f 4 4, root := f 8 8
    rings := (List.range 64).map fun q => ringOf (physBytes s (f 0x10 8 + 16 * q) 16)
    qen := BitVec.ofNat 64 (f 0x18 8), qdie := BitVec.ofNat 64 (f 0x20 8), quota := f 0x28 4, debug := f 0x2C 4 % 2 == 1
    vector := State.bits (f 0x2C 4) 13 8, evq := f 0x30 8, evslots := f 0x38 4, fq := f 0x40 8, fqslots := f 0x3C 4
    save := f 0x48 8, raybase := f 0x50 8, raycap := f 0x58 4, mattab := f 0x60 8, journal := f 0x68 8, wdFrom := s.ns }

/-- CSTAT after a CREATE: status and ASID. -/
def cstatOf (status asid : Nat) : Nat := status % 16 * 2 ^ 4 + asid % 4096 * 2 ^ 16

/-- Whether a task's outcome stands although it has not retired: it was rejected or skipped, or it is complete and its effects are
committed: its version is, or its family has become non-speculative. A NOVERSION task has no version that could commit, and runs again
(R330, R331). -/
def outcomeStands (s : State) (n : Node) : Bool :=
  n.rejected || (n.stage == .complete && (n.settled || (n.kind == .krn && n.status ≥ 3) || (match n.fam.bind s.fam? with
    | some f => (f.committed || f.st == .direct) && !n.launch.noversion
    | none => false)))

/-- An accepted task whose run is lost: it runs again from its record, unless its outcome stands (R329, R330). -/
def replayNode (s : State) (n : Node) : Node :=
  if outcomeStands s n then { n with settled := n.settled || n.stage == .complete }
  else { State.fresh' n with stage := if n.preds.isEmpty then .ready else .waiting, readyAt := s.ns }

/-- The accepted work of a lost context runs again from its records (R439). -/
def replayNodes (s : State) (asid : Nat) : State :=
  { s with nodes := modify (fun n => n.asid == asid && n.index.isSome && n.stage != .stopped) (replayNode s) s.nodes }

/-- Whether the families of an owner stay, with their open `redo` entries, when all else of a context is lost: its outcome stands. -/
def famStands (s : State) (f : Family) : Bool := match s.node? f.owner with | some o => outcomeStands s o | none => false

/-- The memory a creation clears: the header of the save area, for which the model takes one line of its frame (log entry 23), the index words
of both queues and the owner words of the ray area (R446, R447). -/
def clearAreas (s : State) (c : Context) : State :=
  let s := physPut s c.save (List.replicate 128 0)
  let s := s.partWrite c.asid (c.evq - 16) (List.replicate 16 0)
  let s := s.partWrite c.asid (c.fq - 16) (List.replicate 16 0)
  if c.raycap == 0 then s else s.partWrite c.asid (c.raybase + 0x400) (List.replicate (4 * c.raycap) 0xFF)

/-- Drops every on-chip line and translation of an ASID, written back where dirty. -/
def flushAsid (s : State) (asid : Nat) : State :=
  let s := (s.homes.filter fun h => h.asid == asid).foldl State.evict s
  { s with
    l1 := s.l1.filter fun x => x.asid != asid
    ilines := s.ilines.filter fun x => x.asid != asid
    tlb := s.tlb.filter fun x => x.asid != asid
    moved := s.moved.filter fun x => x.1 != asid
    clusters := s.clusters.filter fun x => x.asid != asid }

/-- What every accepted creation does: the generation is zero, and the start-up test has ended (R447, R462). -/
def acceptCreate (s : State) (c : Context) : State :=
  let leave (g : Group) : Group := { g with mode := .reserve, tags := [] }
  clearAreas { s with
    gens := s.gens.filter fun g => g.1 != c.asid
    plat := { s.plat with startup := false, groups := modify (fun g => g.mode == .test) leave s.plat.groups } } c

/-- Whether WORK0 and WORK1 name areas as R445 has them: at multiples of 8 MiB in HBM. -/
def workOk (s : State) : Bool :=
  [s.plat.work0, s.plat.work1].all fun a => a % Config.workAlign == 0 && decide (a < Config.hbmEnd)

/-- A write to CREATE; CSTAT reads BUSY until the outcome is reported (R444, R447). Where WORK0 or WORK1 is no address that R445
allows, and is not 0, the context is made and its status is open (R1, log entry 33). The binding table of a lost
context stays in its ray area (R377); one that it is given anew binds nothing (log entry 18). -/
def createContext (s : State) (addr : Nat) : State :=
  let setStat (s : State) (status asid : Nat) : State :=
    { s with plat := { s.plat with cstat := cstatOf status asid, cstatBusy := true } }
  let made (s : State) (asid : Nat) : State :=
    if workOk s then setStat s 0 asid else setStat { s with free := s.free + 1 } (Config.freeNat s.free) asid
  let d := physBytes s addr 128
  let s := physTouch (physTouch s addr 128) (bytesNat d 0x10 8) (16 * 64)
  let asid := bytesNat d 0 2 % 4096
  let ringsOk := (List.range 64).all fun q =>
    bytesNat d 0x18 8 / 2 ^ q % 2 == 0 || ringOk (physBytes s (bytesNat d 0x10 8 + 16 * q) 16)
  if s.plat.work0 == 0 || s.plat.work1 == 0 || addr % 128 != 0 || addr + 128 > Config.hbmEnd || !descOk d || !ringsOk then
    setStat s 1 asid
  else match s.ctx? asid with
    | some old =>
      if old.wd == .lost then
        let new := contextOf s addr d
        let keep (r o : Ring) : Ring := { r with next := o.next, door := o.door }
        let c := { new with queues := old.queues, rings := new.rings.zipWith keep old.rings }
        let s := if c.raycap != 0 && c.raybase == old.raybase then s
          else { s with bindings := s.bindings.filter fun b => b.asid != asid }
        made (replayNodes (acceptCreate ((flushAsid s asid).setCtx c) c) asid) asid
      else setStat s 2 asid
    | none =>
      let c := contextOf s addr d
      made (acceptCreate { s with ctxs := s.ctxs ++ [c] } c) asid

/-- Ends every task of a context without records (R447). -/
def dropTasks (s : State) (asid : Nat) : State :=
  let s := s.dropWaves fun w => w.asid == asid
  let s := s.freeRays fun r => r.asid == asid
  let s := (s.nodes.filter fun n => n.asid == asid).foldl (fun s n => (s.releaseDependents n.nid).freeNode n) s
  { s with
    fams := s.fams.filter fun f => f.asid != asid
    redos := s.redos.filter fun e => e.asid != asid
    redoLines := s.redoLines.filter fun e => e.asid != asid
    jobs := s.jobs.filter fun j => j.asid != asid
    passes := s.passes.filter fun p => p.asid != asid
    appends := s.appends.filter fun x => x.asid != asid
    bindings := s.bindings.filter fun b => b.asid != asid
    softWrites := s.softWrites.filter fun w => w.asid != asid }

/-- CTX DESTROY (R447): the ASID's generation is raised, and the lines of the freed ASID leave the chip, so that no later context
finds them. -/
def destroyContext (s : State) (asid : Nat) : State :=
  match s.ctx? asid with
  | none => s
  | some c =>
    let s := flushAsid (dropTasks s asid) asid
    { s with
      ctxs := s.ctxs.filter fun c => c.asid != asid
      names := s.names.filter fun k => k.2.1 != asid
      gens := (asid, (c.gen + 1) % 2 ^ 20) :: s.gens.filter fun g => g.1 != asid }

/-! ### Doorbells (R251, R444) -/

/-- A write of a ring's doorbell index. -/
def ringDoorbell (s : State) (asid q index : Nat) : State :=
  match s.ctx? asid with
  | some c => match c.rings[q]? with
    | some r => s.setCtx { c with rings := c.rings.set q { r with door := index % 2 ^ 32 } }
    | none => s
  | none => s

/-! ### Fault replies (R428, R438) -/

/-- A wave leaves Replay (R173): its engines are to read and store again what failed, once it stands in an active bank (R201), and
its instruction executes again. -/
def releaseWave (s : State) (wid : Nat) : State :=
  match s.wave? wid with
  | some w =>
    if w.st != .replay then s
    else
      let s := redoStreams s wid
      let s := s.arrays.foldl (fun s a => match a.fault, a.queue.head? with
        | some d, some h => if h.wid == wid && d.told then resumeArray s a h else s
        | _, _ => s) s
      let s := s.bcmds.foldl (fun s c => match c.fault with
        | some d => if c.wid == wid && d.told then resumeBank s c else s
        | none => s) s
      match s.wave? wid with
      | some w => s.setWave { w with st := .ready, rp := w.rp.map fun r => { r with park := none } }
      | none => s
  | none => s

/-- The part releases what it has parked with no record in some pages of a context: the waves and the accesses (R252, R457, R461). -/
def releaseParked (s : State) (asid : Nat) (p : Nat → Bool) : State :=
  let free (a : Access) : Access := { a with lock := none }
  let s := { s with accs := modify (fun a => a.asid == asid && (match a.lock with | some k => p k | none => false)) free s.accs }
  (s.waves.filter fun w => w.asid == asid && (match w.rp.bind (·.park) with | some k => p k | none => false)).foldl
    (fun s w => releaseWave s w.wid) s

/-- A debug-stopped wave resumes; its first instruction is not matched (R438). -/
def resumeDebug (s : State) (wid : Nat) (one : Bool) : State :=
  match s.wave? wid with
  | some w => if w.st == .debugStop then s.setWave { w with st := .ready, supp := true, stepping := one } else s
  | none => s

/-- RELEASE for lanes that a save has withdrawn and that have failed: they are tried again, and their wave leaves Replay once it waits
there for nothing else (R173, R441). -/
def releaseLanes (s : State) (id : Nat) : State :=
  match s.accs.find? fun a => a.id == id with
  | some a =>
    let s := { s with accs := modify (fun x => x.gid == a.gid && x.wid == a.wid) (fun x => { x with told := false }) s.accs }
    let waits := s.ctxs.any fun c => c.waiting.any fun x => match x.2.1 with | .wave wid => wid == a.wid | _ => false
    match s.wave? a.wid with
    | some w =>
      let more := (s.accs.any fun x => x.wid == a.wid && x.told) || (w.rp.bind (·.park)).isSome
      if w.st == .replay && !waits && !more then s.setWave { w with st := .ready } else s
    | none => s
  | none => s

/-- RELEASE. -/
def applyRelease (s : State) (wt : Waiter) : State :=
  match wt with
  | .wave wid => releaseWave s wid
  | .debug wid => resumeDebug s wid false
  | .entry eid => { s with entries := modify (fun e => e.eid == eid) (fun e => { e with stopped := false, started := false }) s.entries }
  | .ray rid => match s.ray? rid with
    | some r => if r.place == .faulted then s.setRay { r with place := .queued } else s
    | none => s
  | .job jid => { s with jobs := modify (fun j => j.jid == jid) (fun j => { j with stopped := false }) s.jobs }
  | .pass asid desc => releasePass s asid desc
  | .access id => releaseLanes s id
  | _ => s

/-- END for a lane that a save has withdrawn and that fails at its replay: the lanes of its instruction that have not been performed
go, and the wave takes the trap (R428, R441, log entry 23), but for one that halts meanwhile (R116). -/
def endLane (s : State) (id : Nat) (r : FaultRec) : State :=
  match s.accs.find? fun a => a.id == id with
  | some a =>
    let gone (x : Access) : Bool := x.gid == a.gid && x.wid == a.wid && x.withdrawn && x.st != .performed
    let n := (s.accs.filter gone).foldl (fun n x => n + x.items) 0
    let s := { s with accs := s.accs.filter fun x => !gone x }
    match s.wave? a.wid with
    | some w =>
      let w := { w with outst := w.outst - n }
      if w.st == .halting || w.ending then s.setWave w else s.takeTrap w r w.pc
    | none => s
  | none => s

/-- What a wave whose instruction ends in a trap leaves: the commands whose faults it was told of are discarded. -/
def endReplay (s : State) (w : Wave) : State :=
  let s := endStreams s w.wid
  let s := s.arrays.foldl (fun s a => match a.fault, a.queue.head? with
    | some d, some h => if h.wid == w.wid && d.told then discardCmd s a h else s
    | _, _ => s) s
  s.bcmds.foldl (fun s c => match c.fault with
    | some d => if c.wid == w.wid && d.told then discardBank s c else s
    | none => s) s

/-- END. -/
def applyEnd (s : State) (wt : Waiter) (r : FaultRec) : State :=
  match wt with
  | .wave wid => match s.wave? wid with
    | some w => if w.st == .replay then
        let s := endReplay s w
        match s.wave? wid with
        | some w => s.takeTrap { w with supp := false } r w.pc
        | none => s
      else s
    | none => s
  | .debug wid => match s.wave? wid with
    | some w => if w.st == .debugStop then s.takeTrap w r w.pc else s
    | none => s
  | .entry eid =>
    let close (e : EngEntry) : EngEntry := { e with stopped := false, performed := true, status := some 1 }
    { s with entries := modify (fun e => e.eid == eid && e.stopped) close s.entries }
  | .ray rid => match s.ray? rid with
    | some x => if x.place == .faulted then endRay s x 5 else s
    | none => s
  | .job jid =>
    let close (j : Job) : Job := { j with stopped := false, st := (match j.st with
        | .writing _ _ fl gw => .flagging 1 fl (max gw s.ns)
        | .flagging _ fl gw => .flagging 1 fl gw
        | .queued => .flagging 1 0 s.ns) }
    { s with jobs := modify (fun j => j.jid == jid && j.stopped) close s.jobs }
  | .pass asid desc => endPass s asid desc
  | .access id => endLane s id r
  | _ => s

/-- A reply to a record that waits for one; RELEASE is held while a generation raise is in progress, and a second reply to the
record has no effect (R428, R450). -/
def replyTo (s : State) (asid seq action : Nat) : State :=
  match s.ctx? asid with
  | none => s
  | some c => match c.waiting.find? fun x => x.1 == seq with
    | none => s
    | some (_, wt, r) =>
      let debug : Bool := match wt with | .debug _ => true | _ => false
      if action > 2 || (c.fqWait.any fun x => x.1.seq == seq) || (c.heldReplies.any fun x => x.1 == seq) then s
      else if c.busy && (action == 0 || (action == 2 && !debug)) then
        s.setCtx { c with heldReplies := c.heldReplies ++ [(seq, action)] }
      else
        let s := s.setCtx { c with waiting := c.waiting.filter fun x => x.1 != seq }
        match action, wt with
        | 1, _ => applyEnd s wt r
        | 2, .debug wid => resumeDebug s wid true
        | _, _ => applyRelease s wt

/-! ### Generations (R449, R450) -/

/-- A context under the next generation; a raise whose increment wraps to zero has lines to invalidate before it completes (R449). -/
def nextGen (c : Context) : Context :=
  let g := (c.gen + 1) % 2 ^ 20
  { c with gen := g, busy := true, wrapped := c.wrapped || g == 0 }

/-- A raise begins; one in progress takes it in. -/
def raiseGen (s : State) (asid : Nat) : State :=
  match s.ctx? asid with
  | some c => if c.busy then s else s.setCtx (nextGen c)
  | none => s

/-- The raise that a migration makes: one in progress goes on under a generation of its own (R457). -/
def raiseOwn (s : State) (asid : Nat) : State :=
  match s.ctx? asid with
  | some c => s.setCtx (nextGen c)
  | none => s

/-- The next migration of a context begins, once the completion word of the one before it is set (R457). -/
def startNext (s : State) (asid : Nat) : State :=
  match s.ctx? asid with
  | some c => match c.migs with
    | m :: rest => if c.moves.isEmpty then s.setCtx { c with migs := { m with started := true } :: rest } else s
    | [] => s
  | none => s

/-- A raise completes: no older translation stays, nor any line of the context where the generation has wrapped; what a migration has
parked is released, before its completion word is set and the next one begins, and the held replies take effect (R449, R450, R457). -/
def finishGen (s : State) (asid : Nat) : State :=
  match s.ctx? asid with
  | some c =>
    if !c.busy then s
    else
      let s := { s with tlb := s.tlb.filter fun t => t.asid != asid || t.gen == c.gen }
      let s := if c.wrapped then flushAsid s asid else s
      let s := s.setCtx { c with busy := false, wrapped := false, moves := [], heldReplies := [] }
      let s := releaseParked s asid fun k => (s.pageMove asid (8192 * k)).isNone
      let s := startNext (c.moves.foldl (fun s a => s.partWrite asid a (leBytes 8 1)) s) asid
      c.heldReplies.foldl (fun s x => replyTo s asid x.1 x.2) s
  | none => s

/-! ### Queue control (R453) -/

/-- The stopped task of a queue: the one of lowest INDEX. -/
def stoppedNode (s : State) (asid q : Nat) : Option Node :=
  (s.nodes.filter fun n => n.asid == asid && n.queue == q && n.stage == .stopped).foldl (fun best n => match best with
    | none => some n
    | some b => if n.index.getD 0 < b.index.getD 0 then some n else some b) none

def queueResume (s : State) (asid q index : Nat) : State :=
  match s.ctx? asid with
  | some c => match c.rings[q]? with
    | some r => if r.overrun then s.setCtx { c with rings := c.rings.set q { r with overrun := false, next := index % 2 ^ 32 } } else s
    | none => s
  | none => s

/-- Ends the stop of a queue, or leaves it stopped at another task that has stopped it. -/
def clearStop (s : State) (asid q : Nat) : State :=
  match s.ctx? asid with
  | some c => match c.queues[q]? with
    | some t => s.setCtx { c with queues := c.queues.set q { t with stopped := (stoppedNode s asid q).map (·.status) } }
    | none => s
  | none => s

def queueRerun (s : State) (asid q : Nat) : State :=
  match stoppedNode s asid q with
  | some n => clearStop (s.setNode { State.fresh' n with readyAt := s.ns }) asid q
  | none => s

def queueSkip (s : State) (asid q : Nat) : State :=
  match stoppedNode s asid q with
  | some n => clearStop (s.setNode { n with stage := .complete }) asid q
  | none => s

/-! ### Saving and time slicing (R439 to R441, R455) -/

/-- A save starts: atomics and `redo` lanes that are not performed are withdrawn with the operands they have, deferred ones too, to
be performed again after the restore (R440, R441). -/
def startSave (s : State) (asid : Nat) : State :=
  match s.ctx? asid with
  | some c =>
    if c.wd == .armed then
      let back (a : Access) : Access := { a with st := .issued, replayed := true, withdrawn := true }
      let mine (a : Access) : Bool := a.asid == asid && (a.st == .deferred || a.st == .issued)
        && (match a.kind with | .atom _ _ _ | .cas | .atomf _ _ _ | .talloc _ | .redo _ => true | _ => false)
      let s := { s with accs := modify mine back s.accs }
      s.setCtx { c with wd := .saving, saveFrom := s.ns }
    else s
  | none => s

def startRestore (s : State) (asid : Nat) : State :=
  match s.ctx? asid with
  | some c => if c.wd == .saved && !s.plat.hot then s.setCtx { c with restoring := true, saveFrom := s.ns } else s
  | none => s

/-- Whether a wave of a context stands in an active bank. -/
def resident (s : State) (w : Wave) : Bool := !w.spilled && w.bank == activeBank s w.core w.quad

/-- Reports BENCHED once every wave of a benched context is displaced (R455). -/
def noteBenched (s : State) (asid : Nat) : State :=
  match s.ctx? asid with
  | some c =>
    if c.benched && !c.benchReported && !(s.waves.any fun w => w.asid == asid && resident s w) then
      let c := { c with benchReported := true }
      (s.setCtx c).contextEvent c 19
    else s
  | none => s

def startSlice (s : State) (asid : Nat) : State :=
  match s.ctx? asid with
  | some c => if c.benched then s else noteBenched (s.setCtx { c with benched := true, benchReported := false }) asid
  | none => s

def endSlice (s : State) (asid : Nat) : State :=
  match s.ctx? asid with
  | some c => if c.benched then
      let c := { c with benched := false, benchReported := false }
      (s.setCtx c).contextEvent c 20
    else s
  | none => s

/-! ### Migration (R457) -/

/-- A write of MIGRATE: the block is read, and its page waits for the context's earlier migrations. -/
def startMigrate (s : State) (asid block : Nat) : State :=
  let d := physBytes s block 32
  let s := physTouch s block 32
  match s.ctx? asid with
  | some c =>
    if bytesNat d 0 2 != asid then s
    else
      let m : Migration := { block := block, va := bytesNat d 8 8 / 8192 * 8192, leaf := bytesNat d 0x10 8, compl := bytesNat d 0x18 8
                             started := c.migs.isEmpty && c.moves.isEmpty }
      s.setCtx { c with migs := c.migs ++ [m] }
  | none => s

/-- Copies the committed value of line i of a page into the new frame and directs the line's traffic there; it keeps its Emax, a
cluster atomic unit returns it, and a line of a victim cache leaves the chip, as one at HOME 11 does (R14, R203, R252, R457). -/
def copyLine (s : State) (asid va : Nat) (new : Trans) (i : Nat) : State :=
  let a := va + 128 * i
  match s.locate asid a with
  | none => s
  | some old =>
    let pa := new.pa / 8192 * 8192 + 128 * i
    let bs := (List.range 128).map fun k => s.committed asid (a + k) { old with pa := old.pa + k }
    let mark := max (s.movedMark asid a) (if old.home == 1 || old.home == 3 then 0 else s.expiryOf asid a old)
    let move (h : HomeLine) : HomeLine := { h with data := bs, dirty := false, tr := { h.tr with pa := pa } }
    let s := ((s.leaveCluster none asid a).modHome asid (a / 128) move).memPut pa bs new.bank
    { s with
      homes := s.homes.filter fun h => !(h.asid == asid && h.line == a / 128 && (new.home == 3 || h.vc))
      moved := (asid, a / 128, mark) :: s.moved.filter fun m => !(m.1 == asid && m.2.1 == a / 128) }

/-- Whether a migration has a page to move: one of 8 KiB with a translation, and a leaf that names a frame. A page under a larger leaf,
which the driver has to split first, is not moved (R456, log entry 33). -/
def movable (s : State) (c : Context) (m : Migration) : Bool :=
  (s.translate c.asid m.va).isSome && (State.leaf m.leaf 13 m.va).isSome && (leafSlot s c.root m.va).isSome

/-- A page's migration takes the lock of its next line, or copies the line that it has locked and unlocks it; a part that has stopped
moves nothing (R457, R465). -/
def moveOn (s : State) (asid : Nat) : State :=
  match s.ctx? asid with
  | none => s
  | some c => match c.migs with
    | [] => s
    | m :: rest =>
      if !m.started || m.lines ≥ 64 || s.plat.stopped || !movable s c m || (s.plat.groups.any fun g => g.parked) then s
      else if !m.locked then s.setCtx { c with migs := { m with locked := true } :: rest }
      else match State.leaf m.leaf 13 m.va with
        | some new => (copyLine s asid m.va new m.lines).setCtx { c with migs := { m with locked := false, lines := m.lines + 1 } :: rest }
        | none => s

/-- The oldest migration of a context ends: what is left of the page is copied, the new leaf written and the generation raised, which
sets the completion word once it is complete; only then does the next one begin (R457). -/
def finishMigrate (s : State) (c : Context) (m : Migration) (rest : List Migration) : State :=
  match s.translate c.asid m.va, State.leaf m.leaf 13 m.va, leafSlot s c.root m.va with
  | some _, some new, some slot =>
    let s := (List.range' m.lines (64 - m.lines)).foldl (fun s i => copyLine s c.asid m.va new i) s
    let s := s.setCtx { c with migs := rest, moves := c.moves ++ [m.compl] }
    let s := physPut s slot (leBytes 8 m.leaf)
    let s := { s with tlb := s.tlb.filter fun t => !(t.asid == c.asid && t.page == m.va / 8192) }
    raiseOwn s c.asid
  | _, _, _ =>
    let (bs, s) := freeBytes (s.setCtx { c with migs := rest, openPages := m.va / 8192 :: c.openPages }) 8
    let s := releaseParked s c.asid fun k => k == m.va / 8192
    startNext (s.partWrite c.asid m.compl bs) c.asid

/-! ### Registers (R436, R443, R444) -/

/-- Whether a register write makes the part read memory at once, which waits for the traffic of a parked group: CREATE and MIGRATE
(R461). -/
def readsMemory (off : Nat) : Bool := off == 0 || (decide (0x10000 ≤ off ∧ off < 0x1010000) && off % 0x1000 == 0x220)

/-- A write of 64 bits at an offset of BAR0, a multiple of 8; a part that has stopped takes none, and one that is to stop creates no
more contexts (R465). A register that no table names ignores a write, and the reserved bits of a register are not looked at, but for
those of REPLY (log entry 23). -/
def barPerform (s : State) (off v : Nat) : State :=
  if !s.plat.fwRunning || s.plat.stopped then s
  else if off == 0 then (if s.plat.hot then s else createContext s v)
  else if off == 0x10 then { s with plat := { s.plat with work0 := v } }
  else if off == 0x18 then { s with plat := { s.plat with work1 := v } }
  else if 0x10000 ≤ off && off < 0x1010000 then
    let asid := (off - 0x10000) / 0x1000
    let o := off % 0x1000
    if o < 0x200 then ringDoorbell s asid (o / 8) (v % 2 ^ 32)
    else if o == 0x200 then (if v / 2 ^ 34 == 0 then replyTo s asid (v % 2 ^ 32) (State.bits v 33 32) else s)
    else if o == 0x208 then (if v % 2 == 1 then raiseGen s asid else s)
    else if o == 0x210 then
      match State.bits v 7 6 with
      | 0 => queueResume s asid (v % 64) (v / 2 ^ 32)
      | 1 => queueRerun s asid (v % 64)
      | 2 => queueSkip s asid (v % 64)
      | _ => s
    else if o == 0x218 then
      match v with
      | 1 => startSave s asid
      | 2 => startRestore s asid
      | 3 => destroyContext s asid
      | 4 => startSlice s asid
      | 5 => endSlice s asid
      | _ => s
    else if o == 0x220 then startMigrate s asid v
    else s
  else s

/-- A write to BAR0, or its wait for a parked group; CSTAT reads BUSY while a CREATE waits (R461). -/
def barWrite (s : State) (off v : Nat) : State :=
  if readsMemory off && s.plat.fwRunning && !s.plat.stopped && s.plat.groups.any fun g => g.parked then
    { s with plat := { s.plat with regWait := s.plat.regWait ++ [(off, v)], cstatBusy := s.plat.cstatBusy || off == 0 } }
  else barPerform s off v

/-- The register writes that have waited for a parked group, in order (R461). -/
def resumeRegs (s : State) : State :=
  s.plat.regWait.foldl (fun s w => barPerform s w.1 w.2) { s with plat := { s.plat with regWait := [] } }

/-- A comparator of a core's debug block; one that the host has not written holds 0 (R436). -/
def comparator (s : State) (core idx : Nat) : BitVec 128 :=
  match s.comps.find? fun k => k.core == core && k.idx == idx with | some k => k.value | none => 0

/-- A read at an offset of BAR2, a multiple of 8: half of a comparator, which reads as it was written (R6, R436, R443); an
offset of no comparator reads 0 (log entry 23). -/
def debugRead (s : State) (off : Nat) : Nat :=
  let core := off / 0x1000
  let o := off % 0x1000
  if core ≥ Config.cores || o ≥ 0xC0 then 0
  else ((comparator s core (o / 16)).extractLsb' (if o / 8 % 2 == 1 then 64 else 0) 64).toNat

/-- A write at an offset of BAR2: half of a comparator of a core's debug block (R436, R443). -/
def debugWrite (s : State) (off v : Nat) : State :=
  let core := off / 0x1000
  let o := off % 0x1000
  if core ≥ Config.cores || o ≥ 0xC0 then s
  else
    let idx := o / 16
    let old := comparator s core idx
    let half := if o / 8 % 2 == 1 then BitVec.ofNat 64 v ++ old.extractLsb' 0 64 else old.extractLsb' 64 64 ++ BitVec.ofNat 64 v
    let value := half &&& ~~~(0xFFF#128 <<< 84)
    { s with comps := { core := core, idx := idx, value := value } :: s.comps.filter fun k => !(k.core == core && k.idx == idx) }

/-! ### The rows -/

def execCreate (desc : Nat) (s : State) : Host.Outcome State Fault Refusal := .next (barWrite s 0 desc)

/-- The context page register at an offset. -/
def pageReg (asid o : Nat) : Nat := 0x10000 + 0x1000 * (asid % 4096) + o

/-- A doorbell is performed once the clock has passed the GWCT of every earlier posted write (R251). -/
def execDoorbell (asid ring index : Nat) (s : State) : Host.Outcome State Fault Refusal :=
  .next (if s.ns ≥ s.plat.posted + 2 then barWrite s (pageReg asid (8 * (ring % 64))) (index % 2 ^ 32) else s)

def execReplyRelease (asid seq : Nat) (s : State) : Host.Outcome State Fault Refusal :=
  .next (barWrite s (pageReg asid 0x200) (seq % 2 ^ 32))
def execReplyEnd (asid seq : Nat) (s : State) : Host.Outcome State Fault Refusal :=
  .next (barWrite s (pageReg asid 0x200) (seq % 2 ^ 32 + 2 ^ 32))
def execReplyStep (asid seq : Nat) (s : State) : Host.Outcome State Fault Refusal :=
  .next (barWrite s (pageReg asid 0x200) (seq % 2 ^ 32 + 2 * 2 ^ 32))

def execGen (asid : Nat) (s : State) : Host.Outcome State Fault Refusal := .next (barWrite s (pageReg asid 0x208) 1)

def execGenerationRaiseComplete (asid : Nat) (s : State) : Host.Outcome State Fault Refusal := .next (if s.plat.stopped then s else finishGen s asid)

def execQctlResume (asid queue index : Nat) (s : State) : Host.Outcome State Fault Refusal :=
  .next (barWrite s (pageReg asid 0x210) (queue % 64 + index % 2 ^ 32 * 2 ^ 32))
def execQctlRerun (asid queue : Nat) (s : State) : Host.Outcome State Fault Refusal :=
  .next (barWrite s (pageReg asid 0x210) (queue % 64 + 0x40))
def execQctlSkip (asid queue : Nat) (s : State) : Host.Outcome State Fault Refusal :=
  .next (barWrite s (pageReg asid 0x210) (queue % 64 + 0x80))

def execCtxSave (asid : Nat) (s : State) : Host.Outcome State Fault Refusal := .next (barWrite s (pageReg asid 0x218) 1)
def execCtxRestore (asid : Nat) (s : State) : Host.Outcome State Fault Refusal := .next (barWrite s (pageReg asid 0x218) 2)
def execCtxDestroy (asid : Nat) (s : State) : Host.Outcome State Fault Refusal := .next (barWrite s (pageReg asid 0x218) 3)
def execCtxSlice (asid : Nat) (s : State) : Host.Outcome State Fault Refusal := .next (barWrite s (pageReg asid 0x218) 4)
def execCtxUnslice (asid : Nat) (s : State) : Host.Outcome State Fault Refusal := .next (barWrite s (pageReg asid 0x218) 5)

def execMigrate (asid block : Nat) (s : State) : Host.Outcome State Fault Refusal := .next (barWrite s (pageReg asid 0x220) block)

def execMigrationComplete (asid : Nat) (s : State) : Host.Outcome State Fault Refusal :=
  match s.ctx? asid with
  | some c => match c.migs with
    | m :: rest => .next (if !m.started || s.plat.stopped || s.plat.groups.any fun g => g.parked then s else finishMigrate s c m rest)
    | [] => .next s
  | none => .next s

/-- Whether a doorbell may be performed: the clock has passed the GWCT of every earlier posted write of the host (R251). -/
def doorbellDue (s : State) : Bool := decide (s.ns ≥ s.plat.posted + 2)

/-- Whether an offset of BAR0 is a doorbell register (R444). -/
def isDoorbell (off : Nat) : Bool := decide (0x10000 ≤ off) && decide (off < 0x1010000) && decide (off % 0x1000 < 0x200)

/-- A host write of a register: BAR 0 or 2 (R443, R444); one at an offset that is no multiple of 8 is ignored (log entry 23), and a part
that has stopped takes none (R465). -/
def execRegisterWrite (bar offset : Nat) (value : BitVec 64) (s : State) : Host.Outcome State Fault Refusal :=
  .next (match bar with
    | 0 =>
      if offset < Config.devSize && offset % 8 == 0 && (!isDoorbell offset || doorbellDue s) then barWrite s offset value.toNat else s
    | 2 => if offset % 8 == 0 && !s.plat.stopped then debugWrite s offset value.toNat else s
    | _ => s)

/-! ### Host accesses to device memory (R202, R251) -/

/-- A posted write performed at its homes; it may free entries of a ring for records that wait (R427, R446). A channel failure or
a line lock parks it, and a part that has stopped takes none (R252, R461, R465). -/
def execHostWrite (asid va : Nat) (bytes : List Byte) (s : State) : Host.Outcome State Fault Refusal :=
  if s.plat.stopped || s.anyParked then .next s
  else
    let w := homeWrite s asid none va bytes
    .next ({ w.s.noteWrite asid va w.done false with plat := { w.s.plat with posted := max w.s.plat.posted w.gwct } }.flushRings asid)

/-- A read performed at the homes: committed data; where no page is mapped the completion is open (log entry 2). -/
def execHostRead (asid va len : Nat) (s : State) : Host.Outcome State Fault Refusal :=
  if s.plat.stopped || s.anyParked then .next s
  else match homeRead s asid none va len with
  | .ok (bs, s) => .next { s with plat := { s.plat with hostData := bs } }
  | .error _ =>
    let (bs, s) := freeBytes s len
    .next { s with plat := { s.plat with hostData := bs } }

end Sys2Proof.Machine
end

