-- ==== Sys2Proof/Machine/Homes.lean ====
section
/-! DEFINITION. What happens at the places where accesses are performed: loads, stores, atomics, `redo` contributions,
acknowledgements and landing results, and the host's atomics (R202 to R220, R226, R236 to R240, R324, R459). -/

namespace Sys2Proof.Machine

def State.acc? (s : State) (id : Nat) : Option Access := s.accs.find? fun a => a.id == id
def State.modAcc (s : State) (id : Nat) (g : Access → Access) : State := { s with accs := modify (fun a => a.id == id) g s.accs }
def State.dropAcc (s : State) (id : Nat) : State := { s with accs := s.accs.filter fun a => a.id != id }

/-! ### Order within a wave (R186, R200, R247) -/

def AccKind.isLoad : AccKind → Bool
  | .load _ _ _ => true
  | _ => false

/-- Atomics of R202 and R310: those that an open line defers. -/
def AccKind.isAtomic : AccKind → Bool
  | .atom _ _ _ | .cas | .atomf _ _ _ | .talloc _ | .host _ => true
  | _ => false

def AccKind.isAcquire : AccKind → Bool
  | .load a _ _ => a
  | _ => false

def AccKind.isRelease : AccKind → Bool
  | .store r => r
  | _ => false

def AccKind.isRedo : AccKind → Bool
  | .redo _ => true
  | _ => false

/-- Whether two accesses touch a common scratchpad. -/
def sameSpad (x a : Access) : Bool := a.pieces.any fun p => match p.space with | .spad k => x.onSpad k | .glob => false

/-- Whether an earlier access x of the same wave that is not performed yet holds an access back. -/
def mustFollow (x a : Access) : Bool :=
  sameSpad x a
    || (x.space == .glob && a.space == .glob && (!x.cached && !a.cached
      || x.ranges.any fun p => a.ranges.any fun q => decide (p.1 < q.1 + q.2 ∧ q.1 < p.1 + p.2)))
    || (x.kind.isAcquire && (a.kind.isLoad || a.kind.isAtomic))

/-- The conditions of a release store (R184). -/
def releaseMet (s : State) (a : Access) : Bool :=
  !(s.lands.any fun l => l.wid == a.wid && l.load && decide (l.gid < a.gid))
    && storesAcked { s with accs := s.accs.filter fun x => x.gid != a.gid } a.wid a.id
    && (match s.wave? a.wid with | some w => decide (s.ns ≥ w.relMark + 2) | none => true)

/-- Whether a context lets an access be performed: a save withdraws what is no plain load or store (R440). -/
def ctxAdmits (s : State) (a : Access) : Bool :=
  !s.plat.stopped && (match s.ctx? a.asid with
    | some c => (c.wd == .armed && !c.restoring) || (c.wd == .saving && !a.kind.isAtomic && !a.kind.isRedo)
    | none => false)

/-- Whether nothing earlier holds an access back. -/
def accReady (s : State) (a : Access) : Bool :=
  ctxAdmits s a
    && !(s.accs.any fun x => x.wid == a.wid && decide (x.id < a.id) && x.st != .performed && mustFollow x a)
    && (!a.kind.isRelease || releaseMet s a)
    && !(a.pieces.any fun p => (p.space == .glob || p.space == .spad a.core)
      && (arrayHolds s a.wid a.asid a.id (p.space != .glob) a.cached p.addr p.size p.writes
        || streamHolds s a.wid a.asid a.id (p.space != .glob) a.cached p.addr p.size))

/-! ### Versions (R240, R323, R324) -/

/-- The distinct 128-byte lines of a version's bytes, which are kept in rising order. -/
def versionLines : List (Nat × Byte) → Nat
  | [] => 0
  | [_] => 1
  | a :: b :: l => (if a.1 / 128 == b.1 / 128 then 0 else 1) + versionLines (b :: l)

/-- Whether a write of byte ranges would raise version data above its limit. -/
def overVersion (s : State) (f : Family) (rs : List (Nat × Nat)) : Bool :=
  let lines := (rs.flatMap fun r => (List.range (lineSpan r.1 r.2)).map fun i => r.1 / 128 + i).dedup
  let new := (lines.filter fun n => !f.writes.any fun b => b.1 / 128 == n).length
  new != 0 && (decide (128 * (versionLines f.writes + new) > Config.versionLimit)
    || decide (128 * (s.fams.foldl (fun k g => k + versionLines g.writes) new) > Config.versionLimit))

/-- The family of a node. -/
def famOfNode (s : State) (nid : Nat) : Option Family := ((s.node? nid).bind (·.fam)).bind s.fam?

/-- What a checked access wants. -/
def Access.want (a : Access) : Want :=
  match a.kind with
  | .load _ _ _ | .copy _ => .read
  | .store _ | .line _ _ | .tile _ _ _ | .talloc _ => .write
  | .atom _ _ _ | .cas | .atomf _ _ _ | .redo _ => .atomic (a.scope == 4)
  | .host _ => .atomic true

/-- Whether a write is one that makes a family non-speculative. -/
def holdTrigger (s : State) (a : Access) (f : Family) (ts : List Trans) : Bool :=
  ts.any (fun t => t.uncached || decide (t.pa ≥ Config.devBase)) || (a.kind.isAtomic && a.scope == 4) || overVersion s f a.ranges

/-- What the performing place answers to an access. -/
inductive Admit where
  /-- It is not performed now. -/
  | wait
  /-- It makes its family enter HOLD. -/
  | hold (fid : Nat)
  /-- It is performed, under the translation of its first byte. -/
  | go (t : Trans)

/-- The translations of the ranges of a global access, all of them valid and none parked by a channel failure or by the lock
of a migration (R252, R461). -/
def accTrans (s : State) (a : Access) : Option (List Trans) :=
  a.ranges.mapM fun r => match s.lookup a.asid r.1 a.want with
    | some t =>
      if a.lock.isSome || a.told || s.isParked t.pa || s.lineLocked a.asid r.1
          || (a.withdrawn && (s.laneCheck a.asid r.1 a.size a.want).isSome) then none
      else some t
    | none => none

/-- Whether a lane that a save has withdrawn fails a check of R171 at its replay, other than by being parked. -/
def failsAgain (s : State) (x : Access) : Bool :=
  x.withdrawn && x.st == .issued && !x.told && (match s.laneCheck x.asid x.addr x.size x.want with | some c => c != cPARK | none => false)

/-- Lanes that a save has withdrawn fail their checks at their replay (R171, R173, R441): one record tells of all of an instruction's,
with the lowest, and the wave waits in Replay for its reply. A Halting wave's record has the halt's PC, and its lanes are discarded
(R116). -/
def faultAcc (s : State) (a : Access) : State :=
  let bad := s.accs.filter fun x => x.gid == a.gid && x.wid == a.wid && failsAgain s x
  let low := bad.foldl (fun (m : Access) x => if x.lane < m.lane then x else m) a
  let mask := bad.foldl (fun m x => m ||| BitVec.ofNat 32 (2 ^ x.lane)) (0 : Word)
  let cause := (s.laneCheck low.asid low.addr low.size low.want).getD cPARK
  match s.wave? a.wid with
  | some w =>
    if w.st == .halting then
      let s := haltingFault s w { code := codeOf cause, cause := cause, addr := low.addr, mask := mask }
      lessOutst { s with accs := s.accs.filter fun x => !bad.any fun y => y.id == x.id } w.wid (bad.foldl (fun n x => n + x.items) 0)
    else
      let s' := { s with accs := modify (fun x => bad.any fun y => y.id == x.id) (fun x => { x with told := true, count := x.count + 1 }) s.accs }
      let s' := if w.st == .ready || (w.st == .blocked && w.pending.isNone) then s'.setWave { w with st := .replay, waitCtr := 0 } else s'
      let r := s.waveRec { w with pc := a.pc } (codeOf cause) cause low.addr mask 0 low.count
      s'.appendRec { r with flags := 1 + s.waveFlags w } (.access low.id)
  | none => s

/-- What an access does that may not be performed now: one that meets the lock of a migration is parked until the part releases it,
and then replayed (R252, R457), and one that a save has withdrawn is checked as a replay is (R171, R441). -/
def lockAcc (s : State) (a : Access) : State :=
  if a.space != .glob || !accReady s a || a.lock.isSome || a.told then s
  else if a.ranges.any (fun r => s.lineLocked a.asid r.1) then
    s.modAcc a.id fun x => { x with lock := some (a.addr / 8192), replayed := true }
  else if failsAgain s a then faultAcc s a
  else s

/-- What the family of an access says to it (R323, R324). A deferred atomic is earlier than the write that made its family
enter HOLD, so it is performed until the version commits; held writes then wait until the clock has passed that commit. -/
def famAdmits (s : State) (a : Access) (t : Trans) (ts : List Trans) : Admit :=
  if !a.kind.writes || a.kind.isRedo then .go t
  else match famOfNode s a.node with
    | some f => match f.st with
      | .spec => if holdTrigger s a f ts then .hold f.fid else .go t
      | .hold => if a.st == .deferred && !holdTrigger s a f ts then .go t else .wait
      | .direct => if s.ns ≥ f.holdTo then .go t else .wait
    | none => .go t

/-- Whether an access may be performed now (R323, R324); an access whose page is no longer mapped waits. -/
def admission (s : State) (a : Access) : Admit :=
  if !accReady s a then .wait
  else if a.space != .glob then .go { pa := 0, w := true, x := false, g := false, sro := false, home := 3, core := 0, bank := false }
  else match accTrans s a with
    | some (t :: ts) => famAdmits s a t (t :: ts)
    | _ => .wait

/-! ### Lines at their place -/

/-- A cluster atomic unit takes a line, or counts another atomic to it; a full unit returns its oldest line. -/
def takeCluster (s : State) (core asid va : Nat) : State :=
  let die := dieOf core
  let rest := s.clusters.filter fun k => !(k.die == die && k.asid == asid && k.line == va / 128)
  let mine := rest.filter fun k => k.die == die
  let oldest := mine.foldl (fun m k => min m k.last) s.ns
  let rest := if mine.length ≥ Config.clusterLines then
      match rest.find? fun k => k.die == die && k.last == oldest with | some k => rest.erase k | none => rest
    else rest
  { s with clusters := { die := die, asid := asid, line := va / 128, last := s.ns } :: rest }

/-- Brings a line to its place for an access of a core; a `stnt` that misses allocates none (R183), and `ldnt` puts it first for
eviction (R179). -/
def atPlace (s : State) (a : Access) (t : Trans) : State :=
  let s := s.leaveCluster (some (dieOf a.core)) a.asid a.addr
  let nt := match a.kind with | .load _ install _ => !install | _ => false
  if t.home == 3 then (s.noteWalk a.asid a.addr).reach a.asid a.addr t
  else if a.scope == 1 && a.kind == .store false then s
  else s.ensureLine a.asid a.addr t nt

/-- Writes a device register as the host would (R161): the value of the bytes stored from a
register's first byte, zero-extended; a store to any other offset is ignored (log entry 23). -/
def devStore (s : State) (pa : Nat) (bs : List Byte) : State :=
  let off := pa - Config.devBase
  if off % 8 == 0 then barWrite s off (leNat bs) else s

/-- Writes bytes at their place, with the GWCT of the write (R236, R238). -/
def putBytes (s : State) (a : Access) (t : Trans) (bs : List Byte) : State × Nat :=
  let g := s.gwctOf a.asid a.addr t
  if State.isDev t.pa then (devStore s t.pa bs, g)
  else (((atPlace s a t).writeVal a.asid (s.specFam a.node) a.addr t bs).noteWrite a.asid a.addr bs.length true, g)

/-- Marks an access performed. -/
def nowPerformed (s : State) (a : Access) (gwct : Nat) (fl : Flags := 0) : State :=
  s.modAcc a.id fun x => { x with st := .performed, gwct := gwct, flags := x.flags ||| fl }

/-- Adds lane values to a landing group. -/
def pushLand (s : State) (gid : Nat) (vs : List (Nat × Nat)) : State :=
  { s with lands := modify (fun l => l.gid == gid) (fun l => { l with vals := l.vals ++ vs }) s.lands }

/-! ### Loads (R169, R179, R180, R237) -/

/-- The data of a core's existing copy becomes what the reader sees; its lease stays. -/
def refreshL1 (s : State) (core asid va : Nat) (fam : Option Nat) (t : Trans) : State :=
  match s.l1? core asid (va / 128) with
  | some x =>
    let s' := s.grantL1 core asid va fam t
    { s with l1 := modify (fun y => y.core == core && y.asid == asid && y.line == va / 128) (fun y => { y with expiry := x.expiry }) s'.l1 }
  | none => s

/-- The value a load reads at its place. -/
def readAtPlace (s : State) (a : Access) (t : Trans) (install : Bool) : Nat × State :=
  match a.space with
  | .spad k => (spRead s a.node k a.addr a.size, s)
  | .glob =>
    let fam := s.specFam a.node
    let s := atPlace s a t
    let v := s.readVal a.asid fam a.addr t a.size
    (v, if t.uncached || t.home == 1 then s
        else if install then s.grantL1 a.core a.asid a.addr fam t else refreshL1 s a.core a.asid a.addr fam t)

/-- The lanes of one load that address the bytes of a lane, itself among them: they read together, so that each receives the same
value (R179). -/
def twins (s : State) (a : Access) : List Access :=
  s.accs.filter fun x => x.gid == a.gid && x.st == .issued && x.kind == a.kind && x.space == a.space && x.addr == a.addr && x.size == a.size

/-- Performs one lane of a load. -/
def performLoad (install : Bool) (t : Trans) (s : State) (a : Access) : State :=
  let (v, s) := readAtPlace s a t install
  (pushLand s a.gid [(a.lane, extend a.data v)]).dropAcc a.id

def execLoadAtHome (access : Nat) (s : State) : Host.Outcome State Fault Refusal :=
  match s.acc? access with
  | some a => match a.kind, a.st, admission s a with
    | .load _ install _, .issued, .go t => .next ((twins s a).foldl (performLoad install t) s)
    | .load _ _ _, .issued, .wait => .next (lockAcc s a)
    | _, _, _ => .next s
  | none => .next s

/-! ### Stores (R183, R190, R196 to R198, R292, R420) -/

/-- Pieces of n of a list, of which it has at most the first argument. -/
def piecesOf {α : Type} (n : Nat) : Nat → List α → List (List α)
  | 0, _ => []
  | _ + 1, [] => []
  | k + 1, l => l.take n :: piecesOf n k (l.drop n)

/-- Performs the elements of a store item, each as an ordinary store of its size at its address (R292). -/
def storeLine (s : State) (a : Access) (t : Trans) (esz : Nat) (cells : List (Nat × Byte)) : State × Nat :=
  (piecesOf esz cells.length cells).foldl (fun (s, g) e => match e with
    | [] => (s, g)
    | c :: _ =>
      let (s, g') := putBytes s { a with addr := c.1, size := e.length } { t with pa := t.pa + c.1 - a.addr } (e.map (·.2))
      (s, max g g')) (s, 0)

/-- Writes the bytes of a store item in a scratchpad. -/
def storeSpad (s : State) (a : Access) (core : Nat) (cells : List (Nat × Byte)) : State :=
  cells.foldl (fun s c => spWrite s a.node core c.1 1 c.2.toNat) s

/-- Converts a tile where its mode byte allows it; the pixels of one that an ordinary store has spoiled are open (R420). -/
def storeTile (s : State) (a : Access) (op tile colour : Nat) : State × Nat :=
  let fam := s.specFam a.node
  match homeRead s a.asid fam a.addr 1, homeRead s a.asid fam tile 256 with
  | .ok (mb, _), .ok (d, _) =>
    let (d, s) := s.openBytes (s.tileSpoiled a.asid a.addr tile && leNat mb / 64 != 0) d
    match convertTile op colour (leNat mb) d with
    | some (m, bs) =>
      let w1 := homeWrite s a.asid fam a.addr (leBytes 1 m)
      let w2 := homeWrite w1.s a.asid fam tile bs
      ((w2.s.noteWrite a.asid tile bs.length false).noteWrite a.asid a.addr 1 false, max w1.gwct w2.gwct)
    | none => (s, s.ns)
  | _, _ => (s, s.ns)

/-- Performs a store. -/
def performStore (s : State) (a : Access) (t : Trans) : State :=
  match a.space, a.kind with
  | .spad k, .store _ => nowPerformed (spWrite s a.node k a.addr a.size a.data) a 0
  | .spad k, .line _ cells => nowPerformed (storeSpad s a k cells) a 0
  | .spad k, .copy dst => nowPerformed (spWrite s a.node a.core dst a.size (spRead s a.node k a.addr a.size)) a 0
  | .glob, .store _ => let (s, g) := putBytes s a t (leBytes a.size a.data); nowPerformed s a g
  | .glob, .line esz cells => let (s, g) := storeLine s a t esz cells; nowPerformed s a g
  | .glob, .tile op tile colour => let (s, g) := storeTile s a op tile colour; nowPerformed s a g
  | _, _ => s

def execStoreAtHome (access : Nat) (s : State) : Host.Outcome State Fault Refusal :=
  match s.acc? access with
  | some a =>
    if a.st != .issued || a.kind.isAtomic || a.kind.isRedo then .next s
    else match admission s a with
      | .go t => .next (performStore s a t)
      | .hold f => .next (s.enterHold f)
      | .wait => .next (lockAcc s a)
  | none => .next s

/-! ### Open lines (R215 to R219) -/

/-- The current generation of a line's entries. -/
def redoGen (s : State) (asid line : Nat) : Nat :=
  match s.redoLines.find? fun r => r.asid == asid && r.line == line with | some r => r.gen | none => 0

/-- The entries of a line, which is open while there is one. -/
def lineEntries (s : State) (asid line : Nat) : List RedoEntry := s.redos.filter fun e => e.asid == asid && e.addr / 128 == line
def isOpen (s : State) (asid line : Nat) : Bool := !(lineEntries s asid line).isEmpty

/-- Deferred atomics of a line. -/
def deferredAt (s : State) (asid line : Nat) : List Access :=
  s.accs.filter fun a => a.asid == asid && a.space == .glob && a.addr / 128 == line && a.st == .deferred

/-- Seals a line's current generation. -/
def sealLine (s : State) (asid line : Nat) : State :=
  { s with redoLines := { asid := asid, line := line, gen := redoGen s asid line + 1 } ::
             s.redoLines.filter fun r => !(r.asid == asid && r.line == line) }

/-- Defers an atomic that meets an open line: the first one seals the current generation. -/
def deferAtomic (s : State) (a : Access) : State :=
  let line := a.addr / 128
  let s' := if (deferredAt s a.asid line).isEmpty then sealLine s a.asid line else s
  let (k, s') := s'.fresh
  s'.modAcc a.id fun x => { x with st := .deferred, ord := k }

/-- Whether a deferred atomic's turn has come: every entry of the sealed generation is gone, and it arrived first. -/
def deferredReady (s : State) (a : Access) : Bool :=
  let line := a.addr / 128
  (lineEntries s a.asid line).all (fun e => decide (e.gen ≥ redoGen s a.asid line))
    && (deferredAt s a.asid line).all fun x => decide (a.ord ≤ x.ord)

/-! ### Atomics (R202 to R212, R310, R459) -/

/-- The new value and flags that a kind gives an old one. -/
def atomApply (a : Access) (old : Nat) : Nat × Flags :=
  match a.kind with
  | .atom op sg _ => (atomNew op sg (8 * a.size) old a.data, 0)
  | .cas => (if old == a.data then a.data2 else old, 0)
  | .atomf op ty _ => atomfNew op ty old a.data
  | .host .fetchAdd => ((old + a.data) % 2 ^ (8 * a.size), 0)
  | .host .swap => (a.data, 0)
  | .host .cas => (if old == a.data2 then a.data else old, 0)
  | _ => (old, 0)

/-- Whether an atomic writes: a compare-and-swap only where the compare succeeds (R208). -/
def AccKind.stores (k : AccKind) (a : Access) (old : Nat) : Bool :=
  match k with
  | .cas => old == a.data
  | .host .cas => old == a.data2
  | _ => true

/-- Whether an atomic returns a value. -/
def AccKind.returns : AccKind → Bool
  | .atom _ _ r => r
  | .cas => true
  | .atomf _ _ r => r
  | _ => false

/-- The lanes of a `talloc` in order (R310): the new cursor and each lane's address. -/
def tallocRun (limit : Nat) : List (Nat × Nat) → Nat → Nat × List (Nat × Nat)
  | [], cur => (cur, [])
  | (l, n) :: ls, cur =>
    let z := 16 * ((n + 15) / 16)
    if n == 0 || decide (cur + z > limit) then
      let r := tallocRun limit ls cur
      (r.1, (l, 0) :: r.2)
    else
      let r := tallocRun limit ls (cur + z)
      (r.1, (l, cur) :: r.2)

/-- An atomic at a port: it passes no posted write, and its own write is not posted (R202, R204). -/
def atPort (s : State) (a : Access) (t : Trans) : State :=
  let s := (atPlace s a t).landPorts
  let old := leNat (s.mem.getBytes t.pa a.size)
  let (v, fl) := atomApply a old
  let g := s.gwctOf a.asid a.addr t
  let s := if a.kind.stores a old then
      ((s.writeCommitted a.asid a.addr t (leBytes a.size v)).noteWrite a.asid a.addr a.size true).landPorts
    else s
  nowPerformed (if a.kind.returns then pushLand s a.gid [(a.lane, old)] else s) a g fl

/-- Reads and rewrites an atomic's bytes at its place. -/
def rewriteAt (s : State) (a : Access) (t : Trans) : State :=
  let fam := s.specFam a.node
  let s := atPlace s a t
  match a.kind with
  | .talloc lanes =>
    let cur := s.readVal a.asid fam a.addr { t with pa := t.pa } 8
    let limit := s.readVal a.asid fam (a.addr + 8) { t with pa := t.pa + 8 } 8
    let (cur', vals) := tallocRun limit lanes cur
    let (s, g) := putBytes s { a with size := 8 } t (leBytes 8 cur')
    let s := match s.wave? a.wid with | some w => countTalloc s a.node (orderIdx w) a.data2 | none => s
    nowPerformed (pushLand s a.gid vals) a g
  | _ =>
    let old := s.readVal a.asid fam a.addr t a.size
    let (v, fl) := atomApply a old
    let (s, g) := if a.kind.stores a old then putBytes s a t (leBytes a.size v) else (s, s.gwctOf a.asid a.addr t)
    let s := if a.scope == 2 then takeCluster s a.core a.asid a.addr else s
    nowPerformed (if a.kind.returns then pushLand s a.gid [(a.lane, old)] else s) a g fl

/-- An atomic on a scratchpad. -/
def rewriteSpad (s : State) (a : Access) (core : Nat) : State :=
  let old := spRead s a.node core a.addr a.size
  let (v, fl) := atomApply a old
  let s := if a.kind.stores a old then spWrite s a.node core a.addr a.size v else s
  nowPerformed (if a.kind.returns then pushLand s a.gid [(a.lane, old)] else s) a 0 fl

/-- Bytes that a port may retain. -/
def retainLimit : Nat := 4 * 2 ^ 20

/-- The port of a switch reduction: a `red` or `redf` at `.system` scope in a window. -/
def switchPort (s : State) (a : Access) (t : Trans) : Option Port :=
  match a.kind with
  | .atom _ _ false | .atomf _ _ false =>
    if a.scope == 4 then ((windowAt s t.pa).filter (· < peerPorts)).map (portOf s) else none
  | _ => none

/-- The operation and format that a contribution carries. -/
def contribOp (a : Access) : Nat × Nat :=
  match a.kind with
  | .atom op sg _ => (op, if sg then 1 else 0)
  | .atomf op ty _ => (op, 2 + ty)
  | _ => (0, 0)

/-- A port sends a contribution and retains it; a full retention buffer holds the lane. -/
def sendContrib (s : State) (a : Access) (t : Trans) (p : Port) : State :=
  if (p.kept.foldl (fun k c => k + c.size) 0) + a.size > retainLimit then s
  else
    let (op, fmt) := contribOp a
    let c : Contribution := { flit := p.outSeq, step := p.step, acc := a.id, addr := t.pa, size := a.size, op := op, fmt := fmt, data := a.data }
    nowPerformed (setPort s { p with outSeq := p.outSeq + 1, kept := p.kept ++ [c] }) a s.ns

/-- Performs an atomic at its place. -/
def performAtomic (s : State) (a : Access) (t : Trans) : State :=
  match a.space with
  | .spad k => rewriteSpad s a k
  | .glob => match switchPort s a t with
    | some p => sendContrib s a t p
    | none => if a.scope == 4 && decide (t.pa ≥ Config.portBase) then atPort s a t else rewriteAt s a t

/-- R210; an atomic that meets an open line is deferred (R218). -/
def execAtomicAtPlace (access : Nat) (s : State) : Host.Outcome State Fault Refusal :=
  match s.acc? access with
  | some a =>
    if a.st != .issued || !a.kind.isAtomic then .next s
    else match admission s a with
      | .go t => .next (if a.space == .glob && isOpen s a.asid (a.addr / 128) then deferAtomic s a else performAtomic s a t)
      | .hold f => .next (s.enterHold f)
      | .wait => .next (lockAcc s a)
  | none => .next s

/-- The value of a host atomic's completion; the access is done. -/
def hostReply (s : State) (a : Access) (old : Nat) : State :=
  let s := s.dropAcc a.id
  { s with plat := { s.plat with hostData := leBytes a.size old } }

/-- Performs a host atomic at its line's home (R202). -/
def performHost (s : State) (a : Access) (t : Trans) : State :=
  let s := atHome s a.asid a.addr t
  let old := s.readVal a.asid none a.addr t a.size
  let s := if a.kind.stores a old then
      (s.writeCommitted a.asid a.addr t (leBytes a.size (atomApply a old).1)).noteWrite a.asid a.addr a.size false
    else s
  hostReply s a old

/-- R218; a part that has stopped performs none (R465). -/
def execDeferredAtomic (access : Nat) (s : State) : Host.Outcome State Fault Refusal :=
  match s.acc? access with
  | some a =>
    if a.st != .deferred || !deferredReady s a || s.plat.stopped then .next s
    else match accTrans s a, a.kind with
      | some (t :: _), .host _ => .next (performHost s a t)
      | some (t :: ts), _ =>
        if !ctxAdmits s a then .next s
        else match famAdmits s a t (t :: ts) with
          | .go t => .next (performAtomic s a t)
          | .hold f => .next (s.enterHold f)
          | .wait => .next s
      | _, _ => .next s
  | none => .next s

/-- A host AtomicOp request; where the address fails its checks the completion is open (log entry 2). -/
def execHostAtomic (asid va : Nat) (op : PortOp) (size : Nat) (arg cmp : BitVec 64) (s : State) :
    Host.Outcome State Fault Refusal :=
  let size := if size == 8 then 8 else 4
  if s.plat.stopped || s.anyParked then .next s
  else match s.laneCheck asid va size (.atomic true), s.lookup asid va (.atomic true) with
  | none, some t =>
      let (id, s) := s.fresh
      let a : Access := { id := id, gid := id, wid := id, node := id, core := Config.cores, lane := 0, kind := .host op, space := .glob
                          scope := 4, asid := asid, addr := va, size := size, data := arg.toNat % 2 ^ (8 * size)
                          data2 := cmp.toNat % 2 ^ (8 * size) }
      .next (if isOpen s asid (va / 128) then deferAtomic { s with accs := s.accs ++ [a] } a else performHost s a t)
  | _, _ =>
    let (bs, s) := freeBytes s size
    .next { s with plat := { s.plat with hostData := bs } }

/-! ### `redo` (R215, R216, R220) -/

/-- The scale of an exact sum: the least subnormal of FP64 is 2 to the power -1074. -/
def redoScale : Nat := 1074

/-- The home slice of a line's entries. -/
def redoSlice (s : State) (asid addr : Nat) : Nat :=
  State.sliceOf addr ((s.lookup asid addr .read).getD
    { pa := 0, w := true, x := false, g := false, sro := false, home := 0, core := 0, bank := false })

/-- Adds a contribution exactly. -/
def RedoEntry.add (e : RedoEntry) (v : FV) : RedoEntry :=
  match v with
  | .nan sig => { e with nan := true, snan := e.snan || sig }
  | .inf neg => if neg then { e with ninf := true } else { e with pinf := true }
  | .fin neg m x =>
    let n : Int := ((m * 2 ^ (x + redoScale).toNat : Nat) : Int)
    { e with sum := e.sum + (if neg then -n else n) }

/-- The exact value of a sum. -/
def RedoEntry.value (e : RedoEntry) : FV := ofSigned false e.sum (-(redoScale : Int))

def redoFp (dbl : Bool) : Fp := if dbl then fp64 else fp32

/-- Entries of a slice's buffer. -/
def bufferEntries (s : State) (slice : Nat) : List RedoEntry :=
  s.redos.filter fun e => !e.overflow && redoSlice s e.asid e.addr == slice

/-- Adds the contribution of a lane, or leaves the lane waiting where its slice's buffer is full. Contributions of both types to one
address share an entry of the first one's type (log entry 15). -/
def contribute (s : State) (a : Access) (dbl : Bool) (f : Family) : State :=
  let gen := redoGen s a.asid (a.addr / 128)
  let key (e : RedoEntry) : Bool := e.asid == a.asid && e.addr == a.addr && e.fam == f.fid && e.gen == gen
  let v := (redoFp dbl).decode a.data
  match s.redos.find? key with
  | some _ => nowPerformed { s with redos := modify key (fun e => e.add v) s.redos } a s.ns
  | none =>
    if (bufferEntries s (redoSlice s a.asid a.addr)).length ≥ Config.redoEntries then s
    else
      let (k, s) := s.fresh
      let e : RedoEntry := { asid := a.asid, addr := a.addr, fam := f.fid, gen := gen, dbl := dbl, order := k }
      nowPerformed { s with redos := s.redos ++ [e.add v] } a s.ns

def execRedoContribution (access : Nat) (s : State) : Host.Outcome State Fault Refusal :=
  match s.acc? access with
  | some a => match a.kind, a.st, admission s a, a.fam.bind s.fam? with
    | .redo dbl, .issued, .go _, some f => .next (contribute s a dbl f)
    | .redo _, .issued, .wait, _ => .next (lockAcc s a)
    | _, _, _, _ => .next s
  | none => .next s

/-- A contribution has waited long enough: the entry of the family admitted last, and of those the newest (log
entry 15), moves to its die's overflow table. -/
def execRedoOverflowMove (slice : Nat) (s : State) : Host.Outcome State Fault Refusal :=
  let es := bufferEntries s slice
  let waits := s.accs.any fun a => a.kind.isRedo && a.st == .issued && redoSlice s a.asid a.addr == slice
    && decide (s.cc ≥ a.since + Config.redoWaitCc)
  let full := (s.redos.filter fun e => e.overflow && redoSlice s e.asid e.addr / 32 == slice / 32).length ≥ Config.overflowEntries
  if es.length < Config.redoEntries || !waits || full then .next s
  else
    let last := es.foldl (fun (m : RedoEntry) e => if decide (e.fam > m.fam) || (e.fam == m.fam && decide (e.order > m.order)) then e else m)
      (es.headD { asid := 0, addr := 0, fam := 0, gen := 0, dbl := false })
    .next { s with redos := modify (fun e => e == last) (fun e => { e with overflow := true }) s.redos }

/-- The value that closing an entry leaves, with its flags (R217). -/
def RedoEntry.close (e : RedoEntry) (old : Nat) : Nat × Flags :=
  let p := redoFp e.dbl
  let v := p.decode old
  let pinf := v == .inf false
  let ninf := v == .inf true
  if e.nan || v.isNan then (p.nan, flagIf (e.snan || v.isSig) fNV)
  else if (e.pinf && e.ninf) || (pinf && e.ninf) || (ninf && e.pinf) then (p.nan, fNV)
  else if e.pinf || pinf then (p.inf, 0)
  else if e.ninf || ninf then (p.inf + p.sign true, 0)
  else p.round mRNE false (v.add mRNE e.value).1

/-! ### Acknowledgements (R226, R236, R237) -/

/-- Whether a switch still owes an access its acknowledgement. -/
def contribKept (s : State) (id : Nat) : Bool := s.plat.ports.any fun p => p.kept.any fun c => c.acc == id

/-- Whether an access is a read at the home that refreshes the whole of an existing copy: an atomic, or a store that a replay has
issued (R237). -/
def Access.refreshes (a : Access) : Bool := a.kind.isAtomic || a.replayed

/-- The issuing core's copy takes the bytes that their home holds: those of a store, or all of its line (R169, R237). A copy that
was read for another family is read anew for this one, with its lease (R240). -/
def ackL1 (s : State) (a : Access) : State :=
  if a.space != .glob || (!a.cached && a.ranges.length == 1) || a.kind.isRedo then s
  else (a.ranges.flatMap fun r => linePieces r.1 r.2).foldl (fun s r =>
    let fam := s.specFam a.node
    match s.l1? a.core a.asid (r.1 / 128), s.nearTrans a.core a.asid r.1 fam with
    | some x, some t =>
      let bs := (List.range r.2).map fun i => s.visible a.asid fam (r.1 + i) { t with pa := t.pa + i }
      if a.refreshes || x.asker != fam then refreshL1 s a.core a.asid r.1 fam t else s.updateL1 a.core a.asid r.1 fam bs
    | _, _ => s) s

/-- Flags that enter `fpflags` with an acknowledgement: those of an `mst` with its last item, once it has no line to send (R292). -/
def ackFlags (s : State) (a : Access) : Flags :=
  match a.kind with
  | .line _ _ =>
    if (s.accs.any fun x => x.gid == a.gid && x.id != a.id) || (s.arrays.any fun b => b.queue.any fun h => h.id == a.gid) then 0
    else a.flags
  | _ => a.flags

/-- Delivers an acknowledgement to its wave. -/
def acknowledge (s : State) (a : Access) : State :=
  let s := ackL1 s a
  let fl := BitVec.ofNat 32 (ackFlags s a)
  let s := match s.wave? a.wid with
    | some w => s.setWave { w with outst := w.outst - a.items, relMark := max w.relMark a.gwct, fpflags := w.fpflags ||| fl }
    | none => s
  (if a.kind.writes then noteFam s a.fam a.gwct else s).dropAcc a.id

def execAcknowledgement (access : Nat) (s : State) : Host.Outcome State Fault Refusal :=
  match s.acc? access with
  | some a => .next (if a.st == .performed && !contribKept s a.id then acknowledge s a else s)
  | none => .next s

/-! ### Results that land (R38, R173, R181) -/

/-- Writes a landing group's values to its destination. -/
def landWave (l : Landing) (w : Wave) : Wave :=
  let val (k : Nat) : Nat := match l.vals.find? fun x => x.1 == k with | some x => x.2 | none => 0
  let m := maskOf fun k => l.vals.any fun x => x.1 == k
  let w := { w with fpflags := w.fpflags ||| BitVec.ofNat 32 l.flags }
  match l.dest with
  | .vec r n => (w.wvGrp r n m fun i k => wordI (val k) i).setFull r n true
  | .scal r n =>
    let w := w.wScalar (.s r) n (val 0)
    if w.pending == some l.gid then { w with pending := none, st := if w.st == .blocked then .ready else w.st } else w
  | .regs rs => rs.zipIdx.foldl (fun w x => (w.wv x.1 m fun k => wordI (val k) x.2).setFull x.1 1 true) w
  | .none => w

/-- A wave parked on a register that has become full wakes (R108). -/
def wakeFull (w : Wave) : Wave :=
  match w.st with
  | .parked (.full r) _ => if w.vfull r then { w with st := .ready } else w
  | _ => w

/-- Whether every lane of a group has its value. -/
def landReady (s : State) (l : Landing) : Bool :=
  l.ready && !l.held && !(s.accs.any fun a => a.gid == l.gid && a.st != .performed)

def execLongLatencyResult (group : Nat) (s : State) : Host.Outcome State Fault Refusal :=
  match s.lands.find? fun l => l.gid == group with
  | some l =>
    if !landReady s l then .next s
    else
      let s := { s with lands := s.lands.filter fun x => x.gid != group }
      .next (match s.wave? l.wid with
        | some w => s.setWave (wakeFull (landWave l w))
        | none => s)
  | none => .next s

/-! ### Leases (R203, R237) -/

/-- A copy whose lease has expired serves no load any more. -/
def execL1LeaseExpiry (core asid line : Nat) (s : State) : Host.Outcome State Fault Refusal :=
  .next { s with l1 := s.l1.filter fun x => !(x.core == core && x.asid == asid && x.line == line && decide (s.ns ≥ x.expiry)) }

def execClusterLineIdle (die asid line : Nat) (s : State) : Host.Outcome State Fault Refusal :=
  .next { s with clusters := s.clusters.filter fun k =>
    !(k.die == die && k.asid == asid && k.line == line && decide (s.ns ≥ k.last + Config.clusterIdle)) }

end Sys2Proof.Machine
end

