-- ==== Sys2Proof/Machine/Clock.lean ====
section
/-! DEFINITION. The lease clock and what time ends: parks, overdue waves and busy units (R95, R108, R109, R234, R439). -/

namespace Sys2Proof.Machine

/-- Core cycles that end in the tick from a reading, at a clock of f MHz (R234, R465). -/
def cyclesIn (ns f : Nat) : Nat := (ns + 1) * f / 1000 - ns * f / 1000

/-- Whether a context's watchdog count stands still (R439). -/
def wdPaused (s : State) (c : Context) : Bool :=
  c.wd != .armed || c.restoring || c.benched || s.waves.any fun w => w.asid == c.asid && w.st == .debugStop

/-- What goes on in the part within a tick: CSTAT reports, a posted write may land or be repeated, what a parked group or a locked
line has held back is written, records that found a ring full are written once it has room, migrations go on, and a bench whose
waves have all left is reported (R251, R252, R427, R444, R455, R457, R458, R461). -/
def inTick (s : State) : State :=
  let s := { s with plat := { s.plat with cstatBusy := s.plat.regWait.any fun w => w.1 == 0 } }.repeatFlit.landPort.resumeWaits
  (s.ctxs.map (·.asid)).foldl (fun s asid => noteBenched (moveOn (s.flushRings asid) asid) asid) s

/-- Whether a gang's waves have still to issue their first instructions in this tick (R319). -/
def gangDue (s : State) : Bool :=
  s.waves.any fun w => w.startAt != 0 && (s.nodeOf w).launch.gang && decide (w.startAt ≤ s.ns) && w.st == .ready && returned s w
    && !w.ending && ctxRuns s w.asid

/-- R234: one tick of 1 ns; it does not pass while waves of a gang have their first instructions to issue in the present one. -/
def execLeaseClockTick (s : State) : Host.Outcome State Fault Refusal :=
  .next (if gangDue s then s
    else inTick { s with
      ns := s.ns + 1
      cc := s.cc + cyclesIn s.ns s.plat.clockMHz
      ctxs := s.ctxs.map fun c => if wdPaused s c then { c with wdFrom := c.wdFrom + 1 } else c })

/-- A park whose time or limit has passed ends (R108, R109). -/
def execParkTimeout (wave : Nat) (s : State) : Host.Outcome State Fault Refusal :=
  match s.wave? wave with
  | some w => match w.st with
    | .parked _ (some c) => .next (if s.cc ≥ c then s.setWave { w with st := .ready } else s)
    | _ => .next s
  | none => .next s

/-- A Ready wave waits one cycle more: at 48 cycles it is overdue (R95). -/
def execWaveOverdue (wave : Nat) (s : State) : Host.Outcome State Fault Refusal :=
  match s.wave? wave with
  | some w => .next (if w.st == .ready && w.waitCtr + 1 == Config.overdue then s.setWave { w with waitCtr := Config.overdue } else s)
  | none => .next s

/-- A unit is free: the first wave in its order becomes Ready where it waits on this quadrant (R95). -/
def execFunctionalUnitFree (core quad unit : Nat) (s : State) : Host.Outcome State Fault Refusal :=
  match unitFirst s unit with
  | some u => match s.wave? u.wid with
    | some w =>
      let here := w.core == core && w.quad == quad && w.st == .blocked && w.pending.isNone
      .next (if !unitBusy s unit && here then s.setWave { w with st := .ready } else s)
    | none => .next s
  | none => .next s

end Sys2Proof.Machine
end

