-- ==== Sys2Proof/Machine/EngineWork.lean ====
section
/-! DEFINITION. What the engines do with their entries: copies, gathers, scatters, LZ streams, fences, faults and tickets
(R248, R333 to R347). -/

namespace Sys2Proof.Machine

/-! ### The Brerdore LZ format (R342, R343) -/

/-- How a decoding of the input read so far ends: more input is needed, or a ticket status. -/
inductive LzEnd where
  | more
  | status (n : Nat)
  deriving DecidableEq, Repr

/-- Byte i of a stream of n bytes of which a prefix has been read; past the stream the status is TRUNCATED. -/
def lzByte (bs : List Byte) (n i : Nat) : Except LzEnd Nat :=
  if i ≥ n then .error (.status 4)
  else match bs[i]? with
    | some b => .ok b.toNat
    | none => .error .more

/-- Extension bytes from position i: the sum and the next position. -/
def lzExt (bs : List Byte) (n : Nat) : Nat → Nat → Nat → Except LzEnd (Nat × Nat)
  | 0, _, _ => .error (.status 4)
  | k + 1, i, acc => do
    let b ← lzByte bs n i
    if b == 255 then lzExt bs n k (i + 1) (acc + 255) else .ok (acc + b, i + 1)

/-- Appends k literals; `out` holds the output, last byte first. -/
def lzLits (bs : List Byte) (n cap : Nat) : Nat → Nat → List Byte → List Byte × Except LzEnd Nat
  | 0, i, out => (out, .ok i)
  | k + 1, i, out => match lzByte bs n i with
    | .error e => (out, .error e)
    | .ok b => if out.length ≥ cap then (out, .error (.status 3)) else lzLits bs n cap k (i + 1) (BitVec.ofNat 8 b :: out)

/-- Repeats the byte at a back offset k times. -/
def lzMatch (cap off : Nat) : Nat → List Byte → List Byte × Option LzEnd
  | 0, out => (out, none)
  | k + 1, out =>
    if out.length ≥ cap then (out, some (.status 3)) else lzMatch cap off k (out.getD (off - 1) 0 :: out)

/-- Decodes sequences from position i. -/
def lzRun (bs : List Byte) (n cap : Nat) : Nat → Nat → List Byte → List Byte × LzEnd
  | 0, _, out => (out, .status 4)
  | k + 1, i, out =>
    let head : Except LzEnd (Nat × Nat × Nat) := do
      let t ← lzByte bs n i
      if t / 32 == 7 then do
        let (x, j) ← lzExt bs n (bs.length + 1) (i + 1) 0
        .ok (t % 32, 7 + x, j)
      else .ok (t % 32, t / 32, i + 1)
    match head with
    | .error e => (out, e)
    | .ok (low, lits, j) => match lzLits bs n cap lits j out with
      | (out, .error e) => (out, e)
      | (out, .ok j) =>
        let off : Except LzEnd Nat := do
          let a ← lzByte bs n j
          let b ← lzByte bs n (j + 1)
          .ok (a + 256 * b)
        match off with
        | .error e => (out, e)
        | .ok 0 => (out, if low != 0 || j + 2 != n then .status 2 else .status 0)
        | .ok off =>
          if off > out.length then (out, .status 2)
          else
            let ext : Except LzEnd (Nat × Nat) := if low == 31 then do
                let (x, j') ← lzExt bs n (bs.length + 1) (j + 2) 0
                .ok (34 + x, j')
              else .ok (low + 3, j + 2)
            match ext with
            | .error e => (out, e)
            | .ok (len, j') => match lzMatch cap off len out with
              | (out, some e) => (out, e)
              | (out, none) => lzRun bs n cap k j' out

/-- The output and end of decoding the input read so far. -/
def lzDecode (bs : List Byte) (n cap : Nat) : List Byte × LzEnd :=
  let r := lzRun bs n cap (bs.length + 1) 0 []
  (r.1.reverse, r.2)

/-! ### Reads and writes of an entry (R248, R346, R347) -/

/-- Why an entry stops before its end. -/
inductive EngStop where
  | going
  | wait
  | hold (fid : Nat)
  | fault (cause addr : Nat)
  deriving DecidableEq, Repr

/-- An entry at work; with `nt` it allocates no home lines (R338, R339). -/
structure EngRun where
  s : State
  e : EngEntry
  stop : EngStop := .going
  nt : Bool := false

/-- Reads pieces into the entry's input buffer. -/
def engReadPieces (size : Nat) : List (Nat × Nat) → EngRun → EngRun
  | [], r => r
  | (p, n) :: ps, r =>
    let a := addr64 p
    match r.s.laneCheck r.e.asid a size .read with
    | some c => { r with stop := .fault c a }
    | none => match homeRead r.s r.e.asid (r.s.specFam r.e.node) a n r.nt with
      | .error (c, a) => { r with stop := .fault c a }
      | .ok (bs, s) => engReadPieces size ps { r with s := s, e := { r.e with inBuf := r.e.inBuf ++ bs } }

/-- Writes bytes at one place; device registers take them in groups of 8. -/
def engStore (s : State) (fam : Option Nat) (nt : Bool) (asid a : Nat) (t : Trans) (bs : List Byte) : State :=
  if State.isDev t.pa then
    (linePieces (16 * t.pa) (16 * bs.length)).foldl (fun s p =>
      devStore s (p.1 / 16) ((bs.drop (p.1 / 16 - t.pa)).take (p.2 / 16))) s
  else (homeWrite s asid fam a bs nt).s.noteWrite asid a bs.length false

/-- Writes pieces; a write that its family may not make yet holds the entry (R324). -/
def engWritePieces (size : Nat) : List (Nat × Nat) → List Byte → EngRun → EngRun
  | [], _, r => r
  | (p, n) :: ps, bs, r =>
    let a := addr64 p
    match r.s.laneCheck r.e.asid a size .write, r.s.lookup r.e.asid a .write with
    | some c, _ => { r with stop := .fault c a }
    | none, none => { r with stop := .fault cNOTMAPPED a }
    | none, some t =>
      let gate : EngStop := match famOfNode r.s r.e.node with
        | some f => match f.st with
          | .spec => if t.uncached || decide (t.pa ≥ Config.devBase) || overVersion r.s f [(a, n)] then .hold f.fid else .going
          | .hold => .wait
          | .direct => if r.s.ns ≥ f.holdTo then .going else .wait
        | none => .going
      if gate != .going then { r with stop := gate }
      else
        let g := r.s.gwctOf r.e.asid a t
        let s := engStore r.s (r.s.specFam r.e.node) r.nt r.e.asid a t (bs.take n)
        engWritePieces size ps (bs.drop n) { r with s := s, e := { r.e with gwct := max r.e.gwct g, written := r.e.written + n } }

/-! ### The work of an entry -/

/-- The writes of an entry's output buffer from where it stands. -/
def engFlush (dst : Nat) (r : EngRun) : EngRun :=
  engWritePieces 1 (linePieces (dst + r.e.written) (r.e.out.length - r.e.written)) (r.e.out.drop r.e.written) r

/-- Ends an entry's work with a status. -/
def engDone (status : Nat) (r : EngRun) : EngRun :=
  if r.stop == .going then { r with e := { r.e with status := some status } } else r

/-- R338: every source byte is read before any is written. -/
def engCopy (dst src len : Nat) (r : EngRun) : EngRun :=
  let k := r.e.inBuf.length
  let r := engReadPieces 1 (linePieces (src + k) (len - k)) r
  if r.stop != .going then r
  else engDone 0 (engFlush dst { r with e := { r.e with out := r.e.inBuf } })

/-- One element of R341: its index, then its bytes are read, then they are written. What has been read stays in the input
buffer, so that an entry resumes at the access that failed (R346). -/
def engElement (card : List Byte) (i : Nat) (r : EngRun) : EngRun :=
  if r.stop != .going then r
  else
    let size := 2 ^ byteN card 2
    let iw := if byteN card 3 == 1 then 8 else 4
    let gather := byteN card 0 == 2
    let src := bytesNat card 8 8
    let dst := bytesNat card 0x10 8
    let idx := if r.e.inBuf.length < iw then engReadPieces iw [(bytesNat card 0x20 8 + i * iw, iw)] r else r
    if idx.stop != .going then idx
    else
      let k := sext (8 * iw) (leNat (idx.e.inBuf.take iw))
      let a := addr64 (((if gather then src else dst : Nat) : Int) + k * sext 64 (bytesNat card 0x28 8))
      let (from_, to_) := if gather then (a, dst + i * size) else (src + i * size, a)
      let v := if idx.e.inBuf.length < iw + size then engReadPieces size [(from_, size)] idx else idx
      if v.stop != .going then v
      else
        let w := engWritePieces size [(to_, size)] (v.e.inBuf.drop iw) v
        if w.stop != .going then w else { w with e := { w.e with inBuf := [], pos := i + 1 } }

/-- Gathers or scatters the remaining elements. -/
def engElements (card : List Byte) (r : EngRun) : EngRun :=
  let n := bytesNat card 0x18 8
  engDone 0 ((List.range (n - r.e.pos)).foldl (fun x k => engElement card (r.e.pos + k) x) r)

/-- The source and the destination of a decompression meet: its output is open (R343, R1). -/
def cardMeets (card : List Byte) : Bool :=
  decide (bytesNat card 8 8 < bytesNat card 0x10 8 + bytesNat card 0x20 8)
    && decide (bytesNat card 0x10 8 < bytesNat card 8 8 + bytesNat card 0x18 8)

/-- Decodes an LZ stream: what is decoded is written before more input is read. -/
def engDecode (card : List Byte) : Nat → EngRun → EngRun
  | 0, r => r
  | k + 1, r =>
    let n := bytesNat card 0x18 8
    let (out, e) := lzDecode r.e.inBuf n (bytesNat card 0x20 8)
    let (out, s) := if cardMeets card then freeBytes r.s out.length else (out, r.s)
    let r := engFlush (bytesNat card 0x10 8) { r with s := s, e := { r.e with out := out } }
    if r.stop != .going then r
    else match e with
      | .status c => engDone c r
      | .more =>
        let h := r.e.inBuf.length
        let r := engReadPieces 1 ((linePieces (bytesNat card 8 8 + h) (n - h)).take 1) r
        if r.stop != .going then r else engDecode card k r

/-- The work of a valid card, up to its result word (R339). -/
def engCard (addr : Nat) (card : List Byte) (r : EngRun) : EngRun :=
  let r := { r with nt := byteN card 1 % 2 == 1 }
  let r := if r.e.status.isSome then r
    else match byteN card 0 with
      | 1 => engCopy (bytesNat card 0x10 8) (bytesNat card 8 8) (bytesNat card 0x18 8) r
      | 4 => engDecode card (bytesNat card 0x18 8 + 2) r
      | _ => engElements card r
  if r.stop != .going || byteN card 1 / 2 % 2 == 0 then r
  else
    let w := r.e.written
    let v := leBytes 8 (w % 2 ^ 40 + r.e.status.getD 0 * 2 ^ 40)
    let r := engWritePieces 8 [(addr + 0x38, 8)] v r
    { r with e := { r.e with written := w } }

/-- Runs an entry from where it stands. -/
def engRun (r : EngRun) : EngRun :=
  match r.e.op with
  | .fence _ => engDone 0 r
  | .copy dst src len nt => engCopy dst src len { r with nt := nt }
  | .kept addr bytes => engCard addr bytes r
  | .card addr lz =>
    match r.e.card with
    | some bs => engCard addr bs r
    | none =>
      let kinds := if lz then [4] else [2, 3]
      if addr % 64 != 0 then engDone 5 r
      else
        let r := engReadPieces 1 (linePieces addr 64) { r with e := { r.e with inBuf := [] } }
        if r.stop != .going then r
        else
          let bs := r.e.inBuf
          let r := { r with e := { r.e with card := some bs, inBuf := [] } }
          if cardOk addr bs kinds then engCard addr bs r
          else engDone 5 r

/-- The record of an entry's fault, with its progress saved (R346, R424). -/
def engFault (s : State) (e : EngEntry) (cause addr : Nat) : State :=
  let count := if e.fkey == some addr then e.count + 1 else 0
  let e := { e with fkey := some addr, count := count, stopped := true }
  let s := writeSave { s.noteFault e.asid cause addr with entries := modify (fun x => x.eid == e.eid) (fun _ => e) s.entries } e.asid
  let task := match s.node? e.node with | some n => State.taskId n | none => 0
  s.appendRec { code := codeOf cause, cause := cause, flags := 1 + s.partialFlag e.node, source := 1, task := task, pc := e.pc
                addr := BitVec.ofNat 64 addr, asid := e.asid, slot := e.queue.getD 0, info := count } (.entry e.eid)

/-- Keeps what an entry has done. -/
def engKeep (r : EngRun) : State :=
  let set (s : State) (e : EngEntry) : State := { s with entries := modify (fun x => x.eid == e.eid) (fun _ => e) s.entries }
  match r.stop with
  | .going => set r.s { r.e with performed := true }
  | .wait => set r.s r.e
  | .hold f => (set r.s r.e).enterHold f
  | .fault c a => engFault r.s r.e c a

/-! ### Starting and completing (R248, R334, R336, R344) -/

/-- The queue order an entry waits for: earlier entries of its queue have been performed, and a fence before it is complete. -/
def engTurn (s : State) (e : EngEntry) : Bool :=
  match e.queue with
  | none => true
  | some q => s.entries.all fun x => !(x.asid == e.asid && x.queue == some q && decide (x.eid < e.eid))
      || (x.performed && (match x.op with | .fence _ => false | _ => true))

/-- The entries a fence waits for have completed. -/
def fenceTurn (s : State) (e : EngEntry) : Bool :=
  match e.op with
  | .fence mask => !(s.entries.any fun x => x.asid == e.asid && decide (x.eid < e.eid)
      && (match x.queue with | some q => x.queue == e.queue || mask / 2 ^ q % 2 == 1 | none => false))
  | _ => true

/-- Whether an engine operation is a decompression (R334, R340). -/
def EngOp.decodes : EngOp → Bool
  | .card _ lz => lz
  | .kept _ bytes => byteN bytes 0 == 4
  | .copy _ _ _ _ | .fence _ => false

/-- Whether an engine of a die is free for a class of entries: each at work holds one, and one that a fault has stopped has
given its engine up (R9, R333, R334, R346). -/
def engineFree (s : State) (die : Nat) (lz : Bool) : Bool :=
  decide ((s.entries.filter fun x => x.die == die && x.started && !x.performed && !x.stopped && x.op.decodes == lz).length
    < if lz then Config.decompressors else Config.copyEngines)

/-- Whether an entry may start or go on; an engine that is reserved for a node is not taken (R311). -/
def engReady (s : State) (e : EngEntry) : Bool :=
  let kept := reservedFor s fun m => m.kind == .eng && m.die == e.die && (byteN m.card 0 == 4) == e.op.decodes
  let engine := e.started || (engineFree s e.die e.op.decodes && !kept) || (match e.op with | .fence _ => true | _ => false)
  !e.performed && !e.stopped && engine && ctxRuns s e.asid && !s.anyParked && engTurn s e && fenceTurn s e
    && (match e.wid with | some w => storesAcked s w e.eid | none => true)

def execEngineEntryStart (entry : Nat) (s : State) : Host.Outcome State Fault Refusal :=
  match s.entries.find? fun e => e.eid == entry with
  | some e => .next (if engReady s e then engKeep (engRun { s := s, e := { e with started := true } }) else s)
  | none => .next s

/-- The ticket word (R337). -/
def ticketWord (e : EngEntry) : Nat :=
  let count := match e.op with | .fence _ => 0 | _ => e.written
  e.status.getD 0 % 256 + e.queue.getD 0 % 16 * 2 ^ 8 + count % 2 ^ 20 * 2 ^ 12

/-- Completes an entry: its ticket lands, or its node completes unless the task has been ended (R336, R347). -/
def engComplete (s : State) (e : EngEntry) : State :=
  let s := { s with entries := s.entries.filter fun x => x.eid != e.eid }
  let land (l : Landing) : Landing := { l with ready := true, vals := laneList.map fun k => (k, ticketWord e) }
  let s := match e.gid with
    | some g => { s with lands := modify (fun l => l.gid == g) land s.lands }
    | none => s
  match e.queue, s.node? e.node with
  | none, some n =>
    (if n.stage == .running then s.setNode { n with stage := .complete, status := if e.status == some 0 then 0 else 4 } else s).settle
  | _, _ => s.settle

def execEngineEntryComplete (entry : Nat) (s : State) : Host.Outcome State Fault Refusal :=
  match s.entries.find? fun e => e.eid == entry with
  | some e => .next (if e.performed && decide (s.ns ≥ e.gwct + 2) then engComplete s e else s)
  | none => .next s

end Sys2Proof.Machine
end

