-- ==== Sys2Proof/Machine/LoadStore.lean ====
section
/-! DEFINITION. Classes LD and ST without their streams (R176 to R185), and class SPD (R195 to R198). -/

namespace Sys2Proof.Machine

/-- The lane address of R178, with the index operand of IX forms. -/
def memAddr (c : Ctx) (ty l : Nat) : Nat :=
  addr64 ((c.va.d l : Int) + (if c.sh.b.isSome then (c.vb.w l).toInt * (tySize ty : Int) else 0) + c.f.off)

/-- R179. -/
def execLd (f : Fields) (s : State) : Host.Outcome State Fault Refusal :=
  issue (.ld f) f s fun c s => vectorLoad c s (tyF f) (.load false true false) true 0 (memAddr c (tyF f))

def execLdnt (f : Fields) (s : State) : Host.Outcome State Fault Refusal :=
  issue (.ldnt f) f s fun c s => vectorLoad c s (tyF f) (.load false false false) false 0 (memAddr c (tyF f))

/-- R180. -/
def execLda (f : Fields) (s : State) : Host.Outcome State Fault Refusal :=
  issue (.lda f) f s fun c s => vectorLoad c s (tyF f) (.load true true false) false (f.m 5 3) (memAddr c (tyF f))

/-- The scalar address of `lds` and `sts` (R181, R185). -/
def scalAddr (c : Ctx) : Nat := addr64 ((c.va.scalar64 : Int) + c.f.off)

/-- R181: the wave is Blocked until the value arrives. -/
def execLds (f : Fields) (s : State) : Host.Outcome State Fault Refusal :=
  issue (.lds f) f s fun c s =>
    let ty := tyF f
    let va := scalAddr c
    match dataMatch s c true false (tySize ty) fun _ => va with
    | some (k, hit) => dataStop s c k hit
    | none => match loadCause s c.w true va (tySize ty) with
      | some cause => .replay s cause va c.m allLanes none
      | none =>
        let (gid, s) := s.fresh
        let (s, vs) := issueLoads s c gid 1 ty (.load false true false) true 0 fun _ => va
        match c.d, vs with
        | some r, [(_, v)] => .done (s.setWave ((c.wave s).wScalar r (tyWords ty) v))
        | some (.s n), _ => .await (openLanding s c.w gid (.scal n (tyWords ty)) true false []) gid
        | _, _ => .done s

/-- R182: whether a lane's address passes checks 1 to 4 of R171 and is not HOME 11; a line that the core's own copy holds is asked for no
translation (R14, R170). -/
def prfOk (s : State) (core asid va : Nat) (fam : Option Nat) : Bool :=
  va < Config.vaEnd && (s.l1Own core asid va fam || match s.lookup asid va .read with | some t => !t.g && !t.uncached | none => false)

/-- The fill of one lane's line to a level: 0 the core's L1, 1 its home, 2 the victim cache (R182). A line that is already at
the level, or nearer, stays there. -/
def prefetch (c : Ctx) (lvl va : Nat) (s : State) : State :=
  let fam := s.specFam c.w.node
  if s.l1Own c.w.core c.w.asid va fam then s
  else match s.lookup c.w.asid va .read with
  | none => s
  | some t =>
    if (s.l1Serves c.w.core c.w.asid va fam).isSome then s
    else if lvl == 0 then
      let s := s.fillHome (dieOf c.w.core) c.w.asid va t
      if t.uncached || t.home == 1 || (s.home? c.w.asid (va / 128)).isNone || s.isParked t.pa || s.lineLocked c.w.asid va then s
      else s.grantL1 c.w.core c.w.asid va fam t
    else if lvl == 1 then s.fillHome (dieOf c.w.core) c.w.asid va t
    else if (s.home? c.w.asid (va / 128)).isSome then s
    else (s.fillHome (dieOf c.w.core) c.w.asid va t).fillVictim c.w.asid va

def execPrf (f : Fields) (s : State) : Host.Outcome State Fault Refusal :=
  issue (.prf f) f s fun c s =>
    let addr (l : Nat) := addr64 ((c.va.d l : Int) + f.off)
    match dataMatch s c true false 1 addr with
    | some (k, hit) => dataStop s c k hit
    | none =>
      let ok := maskOf fun l => prfOk s c.w.core c.w.asid (addr l) (s.specFam c.w.node)
      .done (c.putPred ((maskBits (c.m &&& ok)).foldl (fun s l => prefetch c (f.m 1 0) (addr l) s) s) c.m ok)

/-- R183. -/
def execSt (f : Fields) (s : State) : Host.Outcome State Fault Refusal :=
  issue (.st f) f s fun c s => vectorStore c s (tyF f) false 0 (memAddr c (tyF f))

def execStnt (f : Fields) (s : State) : Host.Outcome State Fault Refusal :=
  issue (.stnt f) f s fun c s => vectorStore c s (tyF f) false 1 (memAddr c (tyF f))

/-- R184. -/
def execStl (f : Fields) (s : State) : Host.Outcome State Fault Refusal :=
  issue (.stl f) f s fun c s => vectorStore c s (tyF f) true (f.m 5 3) (memAddr c (tyF f))

/-- R185: one store, whatever the number of lanes in m. -/
def execSts (f : Fields) (s : State) : Host.Outcome State Fault Refusal :=
  issue (.sts f) f s fun c s =>
    let ty := tyF f
    let va := scalAddr c
    match dataMatch s c false true (tySize ty) fun _ => va with
    | some (k, hit) => dataStop s c k hit
    | none => match s.laneCheck c.w.asid va (tySize ty) .write with
      | some cause => .replay s cause va c.m allLanes none
      | none =>
        if outstFull c.w 1 then .wait
        else
          let (gid, s) := s.fresh
          let cached := match s.lookup c.w.asid va .write with | some t => !t.uncached | none => true
          let v := if ty == 5 then c.vd.d 0 else (c.vd.w 0).toNat
          let s := addAccess s { id := 0, gid := gid, wid := c.w.wid, node := c.w.node, core := c.w.core, lane := 0
                                 kind := .store false, space := .glob, asid := c.w.asid, addr := va, size := tySize ty
                                 data := v, cached := cached, replayed := c.w.rp.isSome }
          .done (addOutst s c.w.wid 1)

/-! ### Class SPD -/

/-- The 32-bit address of a scratchpad lane (R196). -/
def spAddr (c : Ctx) (l : Nat) : Nat := addr32 (((c.va.w l).toNat : Int) + c.f.off)

def execSpl (f : Fields) (s : State) : Host.Outcome State Fault Refusal :=
  issue (.spl f) f s fun c s => spLoad c s true (tyF f) (spAddr c)

def execSps (f : Fields) (s : State) : Host.Outcome State Fault Refusal :=
  issue (.sps f) f s fun c s => spStore c s true (tyF f) (spAddr c)

def execSpcl (f : Fields) (s : State) : Host.Outcome State Fault Refusal :=
  issue (.spcl f) f s fun c s => spLoad c s false (tyF f) (spAddr c)

def execSpcs (f : Fields) (s : State) : Host.Outcome State Fault Refusal :=
  issue (.spcs f) f s fun c s => spStore c s false (tyF f) (spAddr c)

/-- The lanes of a copy whose source and destination lie in range (R198, R199). -/
def copyLanes (s : State) (c : Ctx) (size : Nat) : Word :=
  maskOf fun l => lane c.m l && (spTarget s c.w false (spAddr c l) size).isSome && (spTarget s c.w true (c.vb.w l).toNat size).isSome

/-- R198. -/
def execSpcp (f : Fields) (s : State) : Host.Outcome State Fault Refusal :=
  issue (.spcp f) f s fun c s =>
    let size := tySize (tyF f)
    let good := copyLanes s c size
    if outstFull c.w (maskCount good) then .wait
    else
      let s := noteRange s c.w.wid (c.m &&& ~~~good)
      let (gid, s) := s.fresh
      let s := issueSpad s c gid good false size (fun l => .copy (c.vb.w l).toNat) (fun _ => 0) (spAddr c)
      .done (addOutst s c.w.wid (maskCount good))

end Sys2Proof.Machine
end

