-- ==== Sys2Proof/Machine/Mask.lean ====
section
/-! DEFINITION. Class MSK (R112 to R115). -/

namespace Sys2Proof.Machine

/-- A whole-mask operation of R112. -/
def maskOp (i : Instr) (f : Fields) (s : State) (g : Word → Word → Word) : Host.Outcome State Fault Refusal :=
  issue i f s fun c s => .done (c.putScalar s 1 (g c.va.scalar c.vb.scalar).toNat)

def execMand (f : Fields) (s : State) : Host.Outcome State Fault Refusal := maskOp (.mand f) f s fun a b => a &&& b
def execMor (f : Fields) (s : State) : Host.Outcome State Fault Refusal := maskOp (.mor f) f s fun a b => a ||| b
def execMxor (f : Fields) (s : State) : Host.Outcome State Fault Refusal := maskOp (.mxor f) f s fun a b => a ^^^ b
def execMandn (f : Fields) (s : State) : Host.Outcome State Fault Refusal := maskOp (.mandn f) f s fun a b => a &&& ~~~b
def execMnot (f : Fields) (s : State) : Host.Outcome State Fault Refusal := maskOp (.mnot f) f s fun a _ => ~~~a
def execMmov (f : Fields) (s : State) : Host.Outcome State Fault Refusal := maskOp (.mmov f) f s fun a _ => a

/-- The number of set bits. -/
def popCount (m : Word) : Nat := (laneList.filter fun l => lane m l).length

def execMpopc (f : Fields) (s : State) : Host.Outcome State Fault Refusal :=
  maskOp (.mpopc f) f s fun a _ => BitVec.ofNat 32 (popCount a)

def execMfirst (f : Fields) (s : State) : Host.Outcome State Fault Refusal :=
  maskOp (.mfirst f) f s fun a _ => if a == 0 then allLanes else BitVec.ofNat 32 (lowLane a)

/-- R113. -/
def mlaneVal (m : Word) (a : SrcVal) (k : Nat) : Word := maskOf fun l => lane m l && lane (a.w l) k

def execMlane (f : Fields) (s : State) : Host.Outcome State Fault Refusal :=
  issue (.mlane f) f s fun c s =>
    if c.contDet then .det
    else .done (c.putScalar s 1 (mlaneVal c.m c.va (c.vb.scalar.toNat % 32)).toNat)

/-- The truth value of `vote` (R114). -/
def voteVal (op : Nat) (m : Word) (a : SrcVal) : Bool :=
  let p := a.scalar &&& m
  match op with
  | 0 => p != 0
  | 1 => p == m
  | 2 => p == 0 || p == m
  | _ => laneList.all fun l => !lane m l || a.w l == a.w (lowLane m)

def execVote (f : Fields) (s : State) : Host.Outcome State Fault Refusal :=
  issue (.vote f) f s fun c s =>
    if c.contDet then .det
    else
      let r := voteVal (f.m 1 0) c.m c.va
      let one : Nat := match c.d with | some (.p _) => 0xFFFFFFFF | _ => 1
      .done (c.putScalar s 1 (if r then one else 0))

end Sys2Proof.Machine
end

