-- ==== Sys2Proof/Machine/System.lean ====
section
/-! DEFINITION. Class SYS (R429, R432, R433, R437) and the words of class 31 and of no class (R45, R47 to R51). -/

namespace Sys2Proof.Machine

def execTrap (f : Fields) (s : State) : Host.Outcome State Fault Refusal :=
  issue (.trap f) f s fun _ _ => .trap kTRAP 0 0 0 0 (f.e 15 0)

/-- R433: the saved PC and `exec` are restored and the wave leaves its handler. -/
def execTret (f : Fields) (s : State) : Host.Outcome State Fault Refusal :=
  issue (.tret f) f s fun c s =>
    let w := c.wave s
    if w.hnd then .jump (s.setWave (State.returnTrap w)) w.epc else .illopnd

/-- The `wstat` register (R429). -/
def wstat (c : Ctx) : Word :=
  let b (x : Bool) (n : Nat) : Nat := if x then 2 ^ n else 0
  BitVec.ofNat 32 (b c.w.hnd 0 + b c.det 1 + b c.isCont 2 + b c.node.launch.gang 3 + c.node.launch.prio % 4 * 16 + b c.w.supp 6)

/-- The value of a system register (R429). -/
def sysRead (c : Ctx) (n : Nat) : Word :=
  let r := c.w.trapRec
  match n with
  | 0x000 => c.w.fpmode
  | 0x001 => c.w.fpflags
  | 0x002 => wstat c
  | 0x010 => BitVec.ofNat 32 (r.code % 256 + r.cause % 256 * 256 + r.flags % 256 * 65536 + r.source % 256 * 16777216)
  | 0x011 => BitVec.ofNat 32 r.task
  | 0x012 => wordI c.w.epc.toNat 0
  | 0x013 => wordI c.w.epc.toNat 1
  | 0x014 => wordI r.addr.toNat 0
  | 0x015 => wordI r.addr.toNat 1
  | 0x016 => r.mask
  | 0x017 => c.w.eexec
  | 0x018 => wordI r.info 0
  | 0x019 => wordI r.info 1
  | 0x01A => BitVec.ofNat 32 r.opnd
  | _ => 0

/-- Whether an earlier instruction of the wave may still raise flags (R139): an access or a result that brings flags, or
an array command that slices or converts. -/
def flagsPending (s : State) (w : Wave) : Bool :=
  (s.accs.any fun a => a.wid == w.wid && (match a.kind with | .atomf _ _ _ | .line _ _ => true | _ => false))
    || (s.lands.any fun l => l.wid == w.wid && l.flags != 0)
    || (s.arrays.any fun a => a.queue.any fun h => h.wid == w.wid && (match h.op with
      | .cfg | .swp | .clr _ _ _ _ _ => false
      | _ => true))

def execSrd (f : Fields) (s : State) : Host.Outcome State Fault Refusal :=
  issue (.srd f) f s fun c s =>
    let n := f.e 9 0
    if n == 0x001 && flagsPending s c.w then .wait
    else .done (c.putScalar s 1 (sysRead c n).toNat)

/-- Replaces one half of a 64-bit register. -/
def setHalf (v : Word64) (hi : Bool) (x : Word) : Word64 :=
  if hi then x ++ v.extractLsb' 0 32 else v.extractLsb' 32 32 ++ x

/-- A watchdog count that restarts (R439). -/
def kickWatchdog (s : State) (asid : Nat) : State :=
  match s.ctx? asid with | some c => s.setCtx { c with wdFrom := s.ns } | none => s

/-- R137, R138, R429, R433. -/
def execSwr (f : Fields) (s : State) : Host.Outcome State Fault Refusal :=
  issue (.swr f) f s fun c s =>
    let v := c.va.scalar
    let w := c.wave s
    match f.e 9 0 with
    | 0x000 => .done (s.setWave { w with fpmode := if v &&& 7 > 4 then 0 else v &&& 7 })
    | 0x001 => if flagsPending s w then .wait else .done (s.setWave { w with fpflags := v &&& 0x7F })
    | 0x003 => .done (kickWatchdog s w.asid)
    | 0x012 => if w.hnd then .done (s.setWave { w with epc := setHalf w.epc false v }) else .illopnd
    | 0x013 => if w.hnd then .done (s.setWave { w with epc := setHalf w.epc true v }) else .illopnd
    | _ => if w.hnd then .done (s.setWave { w with eexec := v }) else .illopnd

/-- R437: a debug stop after the instruction, or the trap path with the return address PC + 12 (R430). -/
def execBrk (f : Fields) (s : State) : Host.Outcome State Fault Refusal :=
  issue (.brk f) f s fun c s =>
    .final (s.debugStop { c.wave s with waitCtr := 0, supp := false, hpri := c.w.hpri - 1 } 32 c.m (f.e 15 0) (c.w.pc + 12))

def execCtime (f : Fields) (s : State) : Host.Outcome State Fault Refusal :=
  issue (.ctime f) f s fun c s => if c.det then .det else .done (c.putScalar s 2 s.ns)

/-! ### Class 31 and reserved words -/

/-- R49: the part may bring the lines; this model brings none (log entry 8). -/
def execHprf (f : Fields) (s : State) : Host.Outcome State Fault Refusal := issueHint (.hprf f) f s fun _ s => s

/-- R50: the preference covers the next n instructions; 0 cancels it. -/
def execHpri (f : Fields) (s : State) : Host.Outcome State Fault Refusal :=
  issueHint (.hpri f) f s fun c s => s.setWave { c.wave s with hpri := f.e 7 0 + 1 }

/-- R51: the prediction changes no state. -/
def execHbranch (f : Fields) (s : State) : Host.Outcome State Fault Refusal := issueHint (.hbranch f) f s fun _ s => s

def execHintNop (_w : BitVec 96) (s : State) : Host.Outcome State Fault Refusal := issueWord s fun s => .done s

def execReservedWord (_w : BitVec 96) (s : State) : Host.Outcome State Fault Refusal :=
  issueWord s fun _ => .trap kILLINST 0 0 0 0 0

end Sys2Proof.Machine
end

