-- ==== Sys2Proof/Machine/Matrix.lean ====
section
/-! DEFINITION. Classes MXL and MXS: what a matrix instruction checks at issue and puts into the array command queue
(R277 to R293). -/

namespace Sys2Proof.Machine

/-- The array of the issuing wave's quadrant and bank, if its task holds it (R254, R277). -/
def ownArray (s : State) (w : Wave) : Option ArrayBank :=
  match s.array? w.core w.quad w.bank with
  | some a => if a.holder == w.node then some a else none
  | none => none

/-- The checks common to matrix instructions: a deferred fault first, then the grant (R277, R296). -/
def onArray (c : Ctx) (s : State) (body : ArrayBank → Act) : Act :=
  withDelivery c s true true <| match ownArray s c.w with
    | some a => body a
    | none => .illopnd

/-- As `onArray` for an instruction that needs a configuration (R281). -/
def onConfig (c : Ctx) (s : State) (body : ArrayBank → Nat → Act) : Act :=
  onArray c s fun a => match viewCfg a with
    | some k => body a k
    | none => .illopnd

/-- Commands an array queue holds (R254). -/
def arrQueueCap : Nat := 8

/-- A command enters the queue, or the wave is Blocked by a full one (R255). -/
def enqueue (c : Ctx) (s : State) (a : ArrayBank) (cfg : Nat) (op : ArrOp) (extra : Nat := 0) : Act :=
  if a.queue.length ≥ arrQueueCap then .wait
  else
    let h : ArrCmd := { id := s.nextId, wid := c.w.wid, pc := c.w.pc, cfg := cfg, op := op }
    .done ({ s with nextId := s.nextId + 1 + extra }.setArray { a with queue := a.queue ++ [h] })

/-- R280, R281. -/
def execMcfg (f : Fields) (s : State) : Host.Outcome State Fault Refusal :=
  issue (.mcfg f) f s fun c s => onArray c s fun a =>
    let word := (if f.m 5 5 == 1 then f.imm32 else c.va.scalar).toNat
    if cfgOk word then enqueue c s a word .cfg else .illopnd

/-- R283 to R285. -/
def execMlds (f : Fields) (s : State) : Host.Outcome State Fault Refusal :=
  issue (.mlds f) f s fun c s => onConfig c s fun a k =>
    let sp := f.m 0 0 == 1
    let img := f.m 1 1 == 1
    let base := if sp then c.va.scalar.toNat else c.va.scalar64
    let pitch := c.vb.scalar.toNat
    let need := if img then imgBytes (arrCfg k) else recBytesB (arrCfg k)
    if base % 16 != 0 || pitch % 16 != 0 || decide (pitch < need) then .illopnd
    else enqueue c s a k (.lds sp img (f.e 2 0) base pitch)

/-- R286. -/
def execMswp (f : Fields) (s : State) : Host.Outcome State Fault Refusal :=
  issue (.mswp f) f s fun c s => onArray c s fun a => enqueue c s a ((viewCfg a).getD 0) .swp

/-- R287; the checks come before a count of 0 (log entry 13). -/
def execMclr (f : Fields) (s : State) : Host.Outcome State Fault Refusal :=
  issue (.mclr f) f s fun c s => onArray c s fun a =>
    let f32 := f.m 0 0 == 1
    let anc := f.m 1 1 == 1
    let first := c.va.scalar.toNat
    let count := c.vb.scalar.toNat
    let anchor : Int := if anc then c.vc.scalar.toInt else 0
    let preset : Bool := match viewCfg a with | some k => (arrCfg k).preset | none => false
    if (anc && (!preset || f32)) || (preset && !f32 && !anc) || decide (anchor < -4096 ∨ anchor > 4095)
        || (f32 && (first % 8 != 0 || count % 8 != 0)) || !inGrant a f32 first count then .illopnd
    else if count == 0 then .done s
    else enqueue c s a ((viewCfg a).getD 0) (.clr f32 anc first count anchor)

/-- Whether a load stream can feed rows (R289): bound by `astr` with 32- or 64-bit elements. -/
def rowQueue (s : State) (w : Wave) (qn : Nat) (tys : List Nat) : Option Nat :=
  match (w.q.getD qn none).bind s.stream? with
  | some t => if !t.write && tys.contains t.ty then some t.sid else none
  | none => none

/-- Whether the tag of the active plane, once the queue has run, is the one a configuration needs (R282). -/
def tagOk (a : ArrayBank) (g : ArrCfg) : Bool :=
  let tag := (viewPlanes a).1
  tag.loaded && tag.bf == g.bf && tag.bmx == g.bmx && tag.s == g.s && tag.sparse == g.sparse && decide (tag.j < g.s)

/-- Whether rows reach an accumulator that another wave has opened (R270). -/
def openerClash (a : ArrayBank) (g : ArrCfg) (wid base rows rs : Nat) : Bool :=
  (List.range rows).any fun m => (List.range 128).any fun n =>
    match viewOpener a (accKey g.f32 (base + m * rs + n)) with
    | some o => o != wid
    | none => false

/-- R282, R288 to R290; the checks come before M = 0, and the scale field that must be 0 is an illegal operand (log entry 13). -/
def execMstr (f : Fields) (s : State) : Host.Outcome State Fault Refusal :=
  issue (.mstr f) f s fun c s => onConfig c s fun a k =>
    let g := arrCfg k
    let sp := f.m 0 0 == 1
    let base := c.vd.scalar.toNat
    let rows := c.vb.scalar.toNat
    let rs := f.e 12 0
    let sid : Option Nat := match c.a with | some (.q n) => rowQueue s c.w n [4, 5] | _ => none
    let scale : Option Nat := if g.amx then rowQueue s c.w (f.e 23 21) [if g.sparse then 5 else 4] else none
    let srcOk := sp || (sid.isSome && (if g.amx then scale.isSome else f.e 23 21 == 0))
    if !tagOk a g || !srcOk || decide (rows > 128) || !accsOk a g base rows rs 128 then .illopnd
    else if rows == 0 then .done s
    else if c.det && openerClash a g c.w.wid base rows rs then .det
    else enqueue c s a k (.str sp base (if sp then c.va.scalar.toNat else 0) rows rs (16 * f.e 20 13) sid scale)

/-- The rounding mode of a read-back, with `.dyn` read at issue (R291). -/
def mxMode (c : Ctx) : Nat := modeOf c.w (c.f.m 2 0)

/-- R291. -/
def execMrd (f : Fields) (s : State) : Host.Outcome State Fault Refusal :=
  issue (.mrd f) f s fun c s => onConfig c s fun a k =>
    let g := arrCfg k
    let base := c.va.scalar.toNat
    let size := outBytes g.outf
    let p := if size < 4 then 4 / size else 1
    if (g.outf == 10 && f.m 2 0 != 0) || !accsOk a g base 1 0 (32 * p) then .illopnd
    else match c.d with
      | some (.v r) =>
        let words := if size == 8 then 2 else 1
        if size == 8 && r % 2 == 1 then .illopnd
        else if r + words > c.w.allot then .trap kREGBOUND 0 0 0 0 0
        else if !(c.w.vfull r && (size != 8 || c.w.vfull (r + 1))) || a.queue.length ≥ arrQueueCap then .wait
        else
          let (gid, s) := s.fresh
          let s := openLanding s c.w gid (.vec r words) false false []
          let s := { s with lands := modify (fun l => l.gid == gid) (fun l => { l with ready := false }) s.lands }
          enqueue c s a k (.rd gid base (mxMode c))
      | _ => .illopnd

/-- R292; the pitch is read without a sign (log entry 13). -/
def execMst (f : Fields) (s : State) : Host.Outcome State Fault Refusal :=
  issue (.mst f) f s fun c s => onConfig c s fun a k =>
    let g := arrCfg k
    let sr := f.m 3 3 == 1
    let sp := f.m 4 4 == 1
    let size := outBytes g.outf
    let pitch := c.vd.scalar.toNat
    let dst := if sp then c.va.scalar.toNat else c.va.scalar64
    let base := c.vb.scalar.toNat
    let rows := f.e 6 0 + 1
    let rs := f.e 19 7
    if (g.outf == 10 && f.m 2 0 != 0) || (sr && (size ≥ 4 || f.m 2 0 != 0)) || dst % size != 0 || pitch % size != 0
        || !accsOk a g base rows rs 128 then .illopnd
    else
      let n := mstLines dst pitch rows size
      if outstFull c.w n || a.queue.length ≥ arrQueueCap then .wait
      else enqueue c (addOutst s c.w.wid n) a k (.st (mxMode c) sr sp dst base pitch rows rs) n

/-- R293: it waits for the `mrd` and `mst` that entered the queue before it, and until every earlier contribution has been applied
(R294); commands that come while it waits are not among them. -/
def execMbnd (f : Fields) (s : State) : Host.Outcome State Fault Refusal :=
  issue (.mbnd f) f s fun c s => onArray c s fun a =>
    let from_ := c.w.bndFrom.getD s.nextId
    let reads := a.queue.any fun h => decide (h.id < from_) && (match h.op with
      | .rd _ _ _ | .st _ _ _ _ _ _ _ _ | .str _ _ _ _ _ _ _ _ => true
      | _ => false)
    if reads then .queue (s.setWave { c.wave s with bndFrom := some from_ })
    else .done (c.putScalar (s.setArray { a with mbound := 0x80FF0000#32 }) 1 a.mbound.toNat)

end Sys2Proof.Machine
end

