-- ==== Sys2Proof/Machine/Order.lean ====
section
/-! DEFINITION. Class ORD (R241 to R246): the wave waits at a fence until its conditions hold, so every later access is
held. -/

namespace Sys2Proof.Machine

/-- R243; deferred faults are delivered first (R296, R371). It waits for no earlier store to a scratchpad, so of the row of R247 on a
scratchpad and a global access only `fence.rel` orders such a store (log entry 14). -/
def execFenceAcq (f : Fields) (s : State) : Host.Outcome State Fault Refusal :=
  issue (.fenceAcq f) f s fun c s => withDelivery c s true true <|
    if loadsReturned s c.w.wid then .done s else .wait

/-- Outstanding items of a wave that target a scratchpad (R244): accesses not acknowledged, pushed stream elements, and
array stores. -/
def spadOutstanding (s : State) (w : Wave) : Bool :=
  spadPending s w || s.accs.any fun a => a.wid == w.wid && a.space != .glob && a.kind.writes

/-- The conditions of `fence.rel` in a scope (R244); the flushing reads of `.system` scope end the wait for posted writes. -/
def releaseReady (s : State) (w : Wave) (scope : Nat) : Bool :=
  loadsReturned s w.wid &&
    (if scope == 1 then !spadOutstanding s w else w.outst == 0 && decide (s.ns ≥ w.relMark + 2))

/-- R244. -/
def execFenceRel (f : Fields) (s : State) : Host.Outcome State Fault Refusal :=
  issue (.fenceRel f) f s fun c s => withDelivery c s true true <|
    if releaseReady s c.w (f.m 5 3) then .done (if f.m 5 3 == 4 then s.landPorts else s) else .wait

/-- R245. -/
def execLwait (f : Fields) (s : State) : Host.Outcome State Fault Refusal :=
  issue (.lwait f) f s fun c s => if s.ns ≥ c.va.scalar64 + 2 then .done s else .wait

end Sys2Proof.Machine
end

