-- ==== Sys2Proof/Machine/Puppeteer.lean ====
section
/-! DEFINITION. The Puppeteers: ring packets, dispatch, wave placement, shadow-bank swaps, halts, commits and retirement
(R20, R92, R110, R229, R300, R311 to R323, R451, R452). -/

namespace Sys2Proof.Machine

/-! ### Windows (R321, R323) -/

/-- Whether a node is the oldest unretired task of its queue. -/
def isOldest (s : State) (n : Node) : Bool :=
  (windowOf s n.asid n.queue).all fun m => decide (n.index.getD 0 ≤ m.index.getD 0)

/-- Whether a queue has stopped. -/
def queueStopped (s : State) (asid q : Nat) : Bool :=
  match s.ctx? asid with | some c => ((c.queues.getD q {}).stopped).isSome | none => true

/-- Whether a context's tasks are dispatched and placed: it runs and is not benched (R440, R455). -/
def ctxPlaces (s : State) (asid : Nat) : Bool :=
  ctxRuns s asid && (match s.ctx? asid with | some c => !c.benched | none => false)

/-! ### Quadrants (R11, R313) -/

/-- The waves that a bank of a quadrant holds. -/
def bankWaves (s : State) (core quad bank : Nat) : List Wave :=
  s.waves.filter fun w => w.core == core && w.quad == quad && w.bank == bank && !w.spilled

/-- The registers that a bank has free. -/
def freeRegs (s : State) (core quad bank : Nat) : Nat :=
  Config.bankRegs - (bankWaves s core quad bank).foldl (fun k w => k + w.allot) 0

/-- The scratchpad of a core (R10). -/
def spadBytes : Nat := 2 ^ 20

/-- Whether a core holds, or can hold, a node's scratchpad. -/
def spadFits (s : State) (n : Node) (core : Nat) : Bool :=
  (s.spad? n.nid core).isSome
    || decide ((s.spads.filter fun p => p.core == core).foldl (fun k p => k + p.size) 0 + n.launch.scratch ≤ spadBytes)

/-- Whether a bank admits a node's accumulator grant (R254, R256). -/
def grantFits (s : State) (n : Node) (core quad bank : Nat) : Bool :=
  n.launch.accum == 0 || (match s.array? core quad bank with
    | some a => a.holder == n.nid
    | none => decide (unitsGranted s core quad + n.launch.accum ≤ Config.accUnits))

/-- Whether a bank of a quadrant can take a wave of a node. -/
def bankTakes (s : State) (n : Node) (core quad bank : Nat) : Bool :=
  decide ((bankWaves s core quad bank).length < Config.slots) && decide (16 * n.launch.regs ≤ freeRegs s core quad bank)
    && spadFits s n core && grantFits s n core quad bank && !s.deadCores.contains core && !n.avoid.contains core

/-- The quadrants of a die in order. -/
def quadsOf (die : Nat) : List (Nat × Nat) :=
  (List.range Config.coresPerDie).flatMap fun c => (List.range Config.quadsPerCore).map fun q => (die * Config.coresPerDie + c, q)

/-- The eligible quadrant that leaves the most registers free, the first of them in order (R313). -/
def bestQuad (s : State) (n : Node) (die : Nat) : Option (Nat × Nat) :=
  (quadsOf die).foldl (fun best k =>
    let b := activeBank s k.1 k.2
    if bankTakes s n k.1 k.2 b then
      match best with
      | none => some k
      | some m => if freeRegs s k.1 k.2 b > freeRegs s m.1 m.2 (activeBank s m.1 m.2) then some k else best
    else best) none

/-! ### Waves (R20, R92, R396) -/

/-- The initial `exec` of wave j of n indices. -/
def initExec (count j : Nat) : Word := maskOf fun l => decide (32 * j + l < count)

/-- A wave of a node as it stands before its first instruction. -/
def newWave (n : Node) (wid age j core quad bank slot : Nat) (mark : Nat) : Wave :=
  let args := n.launch.args.toNat
  let cont := n.kind == .cont
  { wid := wid, node := n.nid, asid := n.asid, idx := j, core := core, quad := quad, bank := bank, slot := slot, pc := n.launch.entry
    exec := if cont then initExec n.recs.length 0 else initExec n.launch.count j
    s := ((List.replicate 64 0#32).set 0 (BitVec.ofNat 32 args)).set 1 (BitVec.ofNat 32 (args / 2 ^ 32))
    v := List.replicate (16 * n.launch.regs) ⟨true, List.replicate 32 0⟩
    age := age, cont := if cont then some n.contNum else none, contLanes := n.recs, startAt := mark }

/-- Gives a node's task its scratchpad on a core. -/
def giveSpad (s : State) (n : Node) (core : Nat) : State :=
  if n.launch.scratch == 0 || (s.spad? n.nid core).isSome then s
  else { s with spads := s.spads ++ [{ node := n.nid, core := core, size := n.launch.scratch, bytes := [] }] }

/-- Grants a node its accumulator units in a bank. -/
def giveGrant (s : State) (n : Node) (core quad bank : Nat) : State :=
  if n.launch.accum == 0 || (s.array? core quad bank).isSome then s
  else { s with arrays := s.arrays ++ [{ core := core, quad := quad, bank := bank, holder := n.nid, grant := n.launch.accum }] }

/-- Places the next wave of a node in a quadrant, in a free slot (log entry 2). -/
def placeWave (s : State) (n : Node) (core quad : Nat) : State :=
  let bank := activeBank s core quad
  let (k, s) := s.takeFree
  let (wid, s) := s.fresh
  let used := (bankWaves s core quad bank).map (·.slot)
  let slot := (freeSlot Config.slots (Config.freeNat k) used).getD 0
  let w := newWave n wid s.cc n.placed core quad bank slot n.startMark
  let s := giveGrant (giveSpad s n core) n core quad bank
  { s.setNode { n with placed := n.placed + 1, stage := .running } with waves := s.waves ++ [w] }

/-! ### Gangs (R227, R319) -/

/-- Places every wave of a gang, die by die in the order given; none where one of them finds no place. -/
def placeGangWaves (dies : List Nat) (nid : Nat) : Nat → State → Option State
  | 0, s => some s
  | k + 1, s => match s.node? nid with
    | none => none
    | some n => match dies.findSome? fun d => bestQuad s n d with
      | none => none
      | some (core, quad) => placeGangWaves dies nid k (placeWave s n core quad)

/-- Writes the gang word of a die and makes its waves members (R227). -/
def makeGangWord (n : Node) (root dies : Nat) (s : State) (die : Nat) : State :=
  match gangPlace s n.nid die with
  | none => s
  | some r =>
    let s := { s with nodes := modify (fun x => x.nid == n.nid) (fun x => { x with gangAt := r :: x.gangAt }) s.nodes }
    let mine (w : Wave) : Bool := w.node == n.nid && dieOf w.core == die
    let isRoot := root == die
    let t : TWord := { members := (s.waves.filter mine).length, root := isRoot, gang := true, classB := n.launch.classB, init := true
                       dies := if isRoot then dies else 0 }
    let s := setTw s n.nid r t
    { s with waves := modify mine (fun w => { w with troupe := some r }) s.waves }

/-- Places a gang whole; its waves issue their first instructions at one tick (R319). -/
def placeGang (s : State) (n : Node) : Option State :=
  let dies := if n.launch.classB then [0, 1] else [n.die]
  match placeGangWaves dies n.nid n.launch.waves (s.setNode { n with startMark := s.ns + 1 }) with
  | none => none
  | some s =>
    let used := dies.filter fun d => s.waves.any fun w => w.node == n.nid && dieOf w.core == d
    let root := match s.waves.find? fun w => w.node == n.nid && w.idx == 0 with | some w => dieOf w.core | none => n.die
    some (used.foldl (makeGangWord n root used.length) s)

/-! ### Dispatch (R311 to R313, R323, R325) -/

/-- The resource a node needs: quadrants, an engine of one of the two kinds, or the reduction engine of a stack. -/
def resourceOf (s : State) (n : Node) : Nat :=
  match n.kind with
  | .krn | .cont => 0
  | .eng => if byteN n.card 0 == 4 then 10 else 1
  | .red => 2 + redStack s n

/-- Whether a node has to wait for its turn as the oldest task of its queue and for its parent's commit. -/
def needsTurn (n : Node) : Bool := n.kind == .red || (n.launch.noversion && n.kind == .krn)

/-- The order of ready nodes: priority, then the time of becoming ready (R311), then that of their making (log entry 30). -/
def readyBefore (a b : Node) : Bool :=
  decide (a.launch.prio > b.launch.prio)
    || (a.launch.prio == b.launch.prio && (decide (a.readyAt < b.readyAt) || (a.readyAt == b.readyAt && decide (a.nid < b.nid))))

/-- Whether a context's ray area is full: no slot is free, or a wave waits for slots (R381, R405). -/
def rayFull (s : State) (asid : Nat) : Bool :=
  (s.unitQ.any fun u => u.unit == unitRays asid) || (match s.ctx? asid with
    | some c => decide ((s.rays.filter fun r => r.asid == asid).length ≥ c.raycap)
    | none => false)

/-- A continuation task of a full ray area comes ahead of new tasks (R405). -/
def contFirst (s : State) (n : Node) : Bool := n.kind == .cont && rayFull s n.asid

/-- Whether a ready node is offered a resource before another. -/
def offeredBefore (s : State) (m n : Node) : Bool :=
  if contFirst s m != contFirst s n then contFirst s m else readyBefore m n

/-- Whether a ready node is one of the first of its die, which lie in the ready pool (R19, R300). -/
def inPool (s : State) (n : Node) : Bool :=
  decide ((s.nodes.filter fun m => m.die == n.die && m.stage == .ready && m.preds.isEmpty && offeredBefore s m n).length < Config.readyPool)

/-- Whether waves of a node, or of continuation tasks that it owns, are still there. -/
def wavesLeft (s : State) (n : Node) : Bool :=
  s.waves.any fun w => w.node == n.nid || (match s.node? w.node with | some m => m.owner == some n.nid | none => false)

/-- Whether a ready node may be dispatched at all; one that is run again waits until its waves have ended. -/
def mayDispatch (s : State) (n : Node) : Bool :=
  n.stage == .ready && n.preds.isEmpty && inPool s n && !wavesLeft s n && ctxPlaces s n.asid
    && !queueStopped s n.asid n.queue && (!needsTurn n || (isOldest s n && n.birth.isNone))

/-- Whether the resource a node needs can take it now. -/
def canServe (s : State) (n : Node) : Bool :=
  match n.kind with
  | .krn =>
    if n.launch.count == 0 then true
    else if n.launch.gang then (placeGang s n).isSome
    else (bestQuad s n n.die).isSome
  | .cont => (bestQuad s n n.die).isSome
  | .eng => engineFree s n.die (byteN n.card 0 == 4)
  | .red => decide ((s.jobs.filter fun j => j.stack + 2 == resourceOf s n).length < jobLimit)

/-- Whether a node's waves go to a die: those of a class B gang go to both (R319). -/
def usesDie (n : Node) (die : Nat) : Bool := n.die == die || (n.kind == .krn && n.launch.gang && n.launch.classB)

/-- A kernel task of no indices has no waves, and needs no quadrant (R20). -/
def needsNone (n : Node) : Bool := n.kind == .krn && n.launch.count == 0

/-- Whether a node that was passed over for too long has the quadrants of a die reserved for it (R311). -/
def reserved (s : State) (die : Nat) (nid : Option Nat) : Bool :=
  s.nodes.any fun m => m.passed && some m.nid != nid && usesDie m die && mayDispatch s m && (m.kind == .cont || (m.kind == .krn && !needsNone m))

/-- Whether a ready node competes with another for a resource: both stand in one die's order, or one that was passed over has
resources reserved that the other takes, quadrants of a die that its waves go to or the reduction engine of a stack, which both dies
share (R311). -/
def rivals (s : State) (m n : Node) : Bool :=
  m.nid != n.nid && mayDispatch s m && !needsNone m && !needsNone n && resourceOf s m == resourceOf s n
    && (m.die == n.die || (m.passed && (m.kind == .red || [0, 1].any fun d => usesDie m d && usesDie n d)))

/-- Whether a node is the first that its resource can serve. A node passed over for too long keeps others off, but for the
continuation tasks of a full ray area, which come ahead of every new task (R311, R405). -/
def firstServed (s : State) (n : Node) : Bool :=
  !(s.nodes.any fun m => rivals s m n
    && ((m.passed && !n.passed && !(contFirst s n && !contFirst s m))
      || (offeredBefore s m n && canServe s m && (m.passed || !n.passed || contFirst s m))))

/-- Opens the version family of a dispatched task that belongs to none (R304, R323). -/
def openFamily (s : State) (n : Node) : Node × State :=
  match n.fam.bind s.fam? with
  | some _ => (n, s)
  | none =>
    if n.kind == .red then ({ n with fam := none }, s)
    else
      let (fid, s) := s.fresh
      let f : Family := { fid := fid, owner := n.nid, asid := n.asid, st := if n.launch.noversion then .direct else .spec }
      ({ n with fam := some fid }, { s with fams := s.fams ++ [f] })

/-- Brings a line to its home slice ahead of use, where its page admits that; no value changes (R314). -/
def fillLine (w : Bool) (die asid : Nat) (s : State) (va : Nat) : State :=
  let k : Want := if w then .write else .read
  match s.laneCheck asid va 1 k, s.lookup asid va k with
  | none, some t => s.fillHome die asid va t
  | _, _ => s

/-- The lines of a tile's first 64 KiB (R62, R314). -/
def tileLines (d : List Byte) : List Nat :=
  let a := bytesNat d 0 8
  let n := min 65536 (16 * bytesNat d 12 2 * bytesNat d 8 2)
  (List.range (lineSpan a n)).map fun i => (a / 128 + i) * 128

/-- The fills that a dispatch starts; a descriptor's W bit takes the lines for writing (R314). -/
def fillTiles (s : State) (n : Node) : State :=
  n.tileDescs.foldl (fun s d => (tileLines d).foldl (fillLine (byteN d 15 % 2 == 1) n.die n.asid) s) s

/-- Dispatches a node whose resource can take it. -/
def dispatchNode (s : State) (n : Node) : State :=
  let n := { n with restart := false }
  match n.kind with
  | .cont =>
    let num := match n.owner.bind s.node? with | some o => o.contNum | none => 0
    let s := match n.owner.bind s.node? with | some o => s.setNode { o with contNum := o.contNum + 1, contRan := true } | none => s
    let n := { n with contNum := num, passed := false }
    match bestQuad s n n.die with
    | some (core, quad) => placeWave (s.setNode n) n core quad
    | none => s
  | .eng =>
    let (n, s) := openFamily s n
    let (eid, s) := s.fresh
    let e : EngEntry := { eid := eid, wid := none, node := n.nid, asid := n.asid, queue := none, pc := 0, die := n.die, started := true
                          op := .kept n.source n.card }
    { s.setNode { n with stage := .running, passed := false } with entries := s.entries ++ [e] }
  | .red =>
    let (jid, s) := s.fresh
    let j := { jobOf n.card jid jid n.nid n.asid 0 (resourceOf s n - 2) with byNode := true }
    { s.setNode { n with stage := .running, passed := false } with jobs := s.jobs ++ [j] }
  | .krn =>
    let (n, s) := openFamily s n
    let n := { n with stage := .running, passed := false }
    let s := fillTiles (s.setNode n) n
    if n.launch.count == 0 then s.settle
    else if n.launch.gang then (placeGang s n).getD s
    else match bestQuad s n n.die with
      | some (core, quad) => placeWave s n core quad
      | none => s

def execNodeDispatch (node : Nat) (s : State) : Host.Outcome State Fault Refusal :=
  match s.node? node with
  | some n => .next (if mayDispatch s n && canServe s n && firstServed s n then dispatchNode s n else s)
  | none => .next s

/-- R311: the time runs from when the node became ready (log entry 30). -/
def execNodePassedOver (node : Nat) (s : State) : Host.Outcome State Fault Refusal :=
  match s.node? node with
  | some n => .next (if mayDispatch s n && decide (s.ns ≥ n.readyAt + Config.passedOverNs) then s.setNode { n with passed := true } else s)
  | none => .next s

/-- Places the next wave of a task that has started (R313), unless the die's quadrants are reserved for a node that was passed over
(R311). -/
def execWavePlacement (node : Nat) (s : State) : Host.Outcome State Fault Refusal :=
  match s.node? node with
  | some n =>
    if n.kind == .krn && n.stage == .running && !n.launch.gang && decide (n.placed < n.launch.waves) && ctxPlaces s n.asid
        && !reserved s n.die (some n.nid) then
      match bestQuad s n n.die with
      | some (core, quad) => .next (placeWave s n core quad)
      | none => .next s
    else .next s
  | none => .next s

/-! ### Halts (R110) -/

/-- Whether everything a Halting wave issued has ended: its results, tickets among them, have landed, and its stores, atomics and
messages are acknowledged. -/
def haltOver (s : State) (w : Wave) : Bool :=
  w.st == .halting && w.outst == 0
    && !(s.accs.any fun a => a.wid == w.wid)
    && !(s.lands.any fun l => l.wid == w.wid)
    && !(s.streams.any fun t => t.wid == w.wid)
    && !(s.arrays.any fun a => a.queue.any fun h => h.wid == w.wid)
    && !(s.bcmds.any fun c => c.wid == w.wid)

/-- The report of a nonzero range mask (R110, R425). -/
def rangeReport (s : State) (w : Wave) : State :=
  match s.rangeRec w with
  | some r => s.appendRec r .nothing
  | none => s

/-- The end of a Halting wave; a wave whose task has ended stops at this instruction boundary and enters Halting (R308, R431), once what it still held is reported and it may leave its troupe. -/
def execHaltingEnd (wave : Nat) (s : State) : Host.Outcome State Fault Refusal :=
  match s.wave? wave with
  | some w =>
    if w.ending && w.st != .halting then
      let s := reportHeld s w
      .next (if leaveHeld s w then s else haltWave s ((s.wave? wave).getD w))
    else if !haltOver s w then .next s
    else
      let s : State := rangeReport s w
      let s : State := match s.node? w.node with
        | some n => if n.stage == .running then s.setNode { n with halts := orderIdx w :: n.halts } else s
        | none => s
      let s := { s with
        waves := s.waves.filter fun x => x.wid != wave
        lands := s.lands.filter fun l => l.wid != wave
        unitQ := s.unitQ.filter fun u => u.wid != wave }
      .next (s.endHolding w.node).settle
  | none => .next s

/-! ### Gang messages (R229) -/

def execGangForwardArrival (task die : Nat) (s : State) : Host.Outcome State Fault Refusal :=
  let m : GangMsg := { node := task, die := die, release := false }
  if !s.gangMsgs.contains m then .next s
  else
    let s := { s with gangMsgs := s.gangMsgs.erase m }
    match rootWord s task with
    | none => .next s
    | some r =>
      let t := getTw s task r
      if t.diearr + 1 < t.dies then .next (setTw s task r { t with diearr := t.diearr + 1 })
      else
        let s := troupeRelease (setTw s task r { t with diearr := 0 }) task r
        let other := 1 - dieOf r.core
        .next (if t.dies < 2 then s else { s with gangMsgs := s.gangMsgs ++ [{ node := task, die := other, release := true }] })

def execGangReleaseMessage (task die : Nat) (s : State) : Host.Outcome State Fault Refusal :=
  let m : GangMsg := { node := task, die := die, release := true }
  if !s.gangMsgs.contains m then .next s
  else
    let s := { s with gangMsgs := s.gangMsgs.erase m }
    match gangWord s task die with
    | some r => .next (troupeRelease s task r)
    | none => .next s

/-! ### Shadow banks (R316 to R318) -/

def quadOf (s : State) (core quad : Nat) : Quad :=
  (s.quads.find? fun q => q.core == core && q.quad == quad).getD { core := core, quad := quad }

def setQuad (s : State) (q : Quad) : State :=
  { s with quads := q :: s.quads.filter fun x => !(x.core == q.core && x.quad == q.quad) }

/-- The troupe of a wave as swaps see it: a gang is one troupe on both dies. -/
def troupeKey (s : State) (w : Wave) : Option (Nat × Option TroupeRef) :=
  w.troupe.map fun r => if (s.nodeOf w).launch.gang then (w.node, none) else (w.node, some r)

/-- Adds the quadrants that share a troupe with those of a list, among some waves. -/
def growClosure (s : State) (ws : List Wave) (qs : List (Nat × Nat)) : List (Nat × Nat) :=
  let keys := (ws.filter fun w => qs.contains (w.core, w.quad)).filterMap (troupeKey s)
  (ws.filter fun w => (match troupeKey s w with | some k => keys.contains k | none => false)).foldl (fun l w =>
    if l.contains (w.core, w.quad) then l else l ++ [(w.core, w.quad)]) qs

/-- The closure of a quadrant among some waves (R317); each round that does not end it adds the quadrant of one more wave. -/
def closureOf (s : State) (ws : List Wave) (core quad : Nat) : List (Nat × Nat) :=
  (List.range ws.length).foldl (fun qs _ => growClosure s ws qs) [(core, quad)]

/-- The resident waves of the part. -/
def residents (s : State) : List Wave := s.waves.filter (resident s)

/-- The priority of a wave's task. -/
def prioW (s : State) (w : Wave) : Nat := (s.nodeOf w).launch.prio

/-- The highest priority among the resident waves of quadrants, plus one; 0 where there is none. -/
def topPrio (s : State) (qs : List (Nat × Nat)) : Nat :=
  ((residents s).filter fun w => qs.contains (w.core, w.quad)).foldl (fun m w => max m (prioW s w + 1)) 0

/-- Whether a quadrant's closure may be swapped out: every shadow bank is armed. -/
def armedAll (s : State) (qs : List (Nat × Nat)) : Bool := qs.all fun k => (quadOf s k.1 k.2).armed

/-- Whether a wave is older than another: its age stamp, its place in a swap, then its index and slot (R95, R97). -/
def older (a b : Wave) : Bool := decide ([a.age, a.ageSub, a.idx, a.slot] < [b.age, b.ageSub, b.idx, b.slot])

/-- Waves swapped in take the swap's cycle as their age stamp, in the order of the stamps they had (R97). -/
def restamp (s : State) (ids : List Nat) : State :=
  let ws := sortBy (fun (a b : Wave) => !older b a) (s.waves.filter fun w => ids.contains w.wid)
  ws.zipIdx.foldl (fun s x => s.setWave { x.1 with age := s.cc, ageSub := x.2 }) s

/-- Exchanges the banks of quadrants; benched contexts whose waves have all left are reported. -/
def exchange (s : State) (qs : List (Nat × Nat)) : State :=
  let s := qs.foldl (fun s k =>
    let q := quadOf s k.1 k.2
    setQuad s { q with active := 1 - q.active, armed := false }) s
  (s.ctxs.map (·.asid)).foldl noteBenched s

/-- Whether a ready node of priority 3, or a continuation task of a full ray area, finds no place (R317, R405). -/
def wantsSwap (s : State) (n : Node) : Bool :=
  (n.kind == .krn && n.launch.prio == 3 || n.kind == .cont && (n.launch.prio == 3 || rayFull s n.asid))
    && mayDispatch s n && !canServe s n

/-- Whether a quadrant could take a wave of a node once its banks are exchanged. -/
def swapHelps (s : State) (n : Node) (k : Nat × Nat) : Bool :=
  (dieOf k.1 == n.die || (n.launch.gang && n.launch.classB)) && bankTakes s n k.1 k.2 (1 - activeBank s k.1 k.2)

/-- The swap targets for a node with their rank, by the highest priority in the quadrant's own active bank: lower is preferred
(R317). -/
def swapTargets (s : State) (n : Node) : List (List Nat × Nat × Nat) :=
  ((quadsOf 0 ++ quadsOf 1).filter fun k => swapHelps s n k).filterMap fun k =>
    let qs := closureOf s (residents s) k.1 k.2
    let top := topPrio s [k]
    if armedAll s qs && top < 4 then some ([top, k.1, k.2], k.1, k.2) else none

/-- Whether a quadrant is the preferred target of a node that needs a swap. -/
def isTarget (s : State) (core quad : Nat) : Bool :=
  s.nodes.any fun n => wantsSwap s n && (match swapTargets s n with
    | [] => false
    | t :: ts =>
      let best := ts.foldl (fun (b : List Nat × Nat × Nat) x => if x.1 < b.1 then x else b) t
      best.2 == (core, quad))

/-- Whether a quadrant holds a resident wave of a benched context (R455). -/
def holdsBenched (s : State) (core quad : Nat) : Bool :=
  (residents s).any fun w => w.core == core && w.quad == quad && (match s.ctx? w.asid with | some c => c.benched | none => false)

/-- Displaced waves that may return: their context runs. -/
def returning (s : State) (w : Wave) : Bool := !resident s w && ctxPlaces s w.asid

/-- The array that a wave's task holds in the wave's own bank. -/
def ownBank (s : State) (w : Wave) : Option ArrayBank := (s.array? w.core w.quad w.bank).filter fun a => a.holder == w.node

/-- The array of a wave's bank goes with the wave to another bank of its quadrant (R257). -/
def carryArray (s : State) (w : Wave) (to_ : Nat) : State :=
  let held (a : ArrayBank) : Bool := a.core == w.core && a.quad == w.quad && a.holder == w.node && a.bank == w.bank
  { s with arrays := modify held (fun a => { a with bank := to_ }) s.arrays }

/-- Whether two waves use one array (R257). -/
def sharesArray (s : State) (x y : Wave) : Bool :=
  (ownBank s x).isSome && x.node == y.node && x.core == y.core && x.quad == y.quad && x.bank == y.bank

/-- Whether a set of returning waves fits the shadow bank of a quadrant: no other wave is there, nor an array where theirs has to go,
and an array goes there with all the waves that use it. -/
def returnFits (s : State) (ws : List Wave) (k : Nat × Nat) : Bool :=
  let to_ := 1 - activeBank s k.1 k.2
  let mine := ws.filter fun w => (w.core, w.quad) == k
  mine.length ≤ Config.slots && mine.foldl (fun n w => n + w.allot) 0 ≤ Config.bankRegs
    && (bankWaves s k.1 k.2 (1 - to_)).isEmpty
    && (bankWaves s k.1 k.2 to_).all (fun w => mine.any fun x => x.wid == w.wid)
    && mine.all fun w => (ownBank s w).isNone || w.bank == to_ || ((s.array? w.core w.quad to_).isNone
      && s.waves.all fun x => !sharesArray s w x || mine.any fun y => y.wid == x.wid)

/-- Brings displaced waves back into the shadow banks of their own quadrants (log entry 26), with the array state of their tasks. -/
def bringBack (s : State) (ws : List Wave) : State :=
  ws.foldl (fun s w =>
    let to_ := 1 - activeBank s w.core w.quad
    let used := (bankWaves s w.core w.quad to_).map (·.slot)
    let slot := if used.contains w.slot then ((List.range Config.slots).find? fun i => !used.contains i).getD w.slot else w.slot
    (carryArray s w to_).setWave { w with bank := to_, slot := if w.spilled then slot else w.slot, spilled := false }) s

/-- A returning wave with those that must return with it, through troupes and the arrays they use (R257, R317). -/
def returnPart (s : State) (all : List Wave) (w : Wave) : List Wave :=
  let joins (x y : Wave) : Bool :=
    x.wid == y.wid || sharesArray s x y || (match troupeKey s x with | some k => troupeKey s y == some k | none => false)
  (List.range all.length).foldl (fun part _ => all.filter fun x => part.any (joins x)) [w]

/-- The waves that a return swap of a quadrant brings back: all that wait there and in its closure where they fit, else
the oldest troupe that fits. -/
def returnSet (s : State) (core quad : Nat) : Option (List (Nat × Nat) × List Wave) :=
  let all := s.waves.filter (returning s)
  let qs := closureOf s all core quad
  let ws := all.filter fun w => qs.contains (w.core, w.quad)
  let partOf := returnPart s all
  let quads (part : List Wave) : List (Nat × Nat) :=
    part.foldl (fun l w => if l.contains (w.core, w.quad) then l else l ++ [(w.core, w.quad)]) []
  if ws.isEmpty then none
  else if qs.all (returnFits s ws) then some (qs, ws)
  else
    match all.filter (fun w => w.core == core && w.quad == quad && (quads (partOf w)).all (returnFits s (partOf w))) with
    | [] => none
    | x :: xs =>
      let part := partOf (xs.foldl (fun (m : Wave) w => if older w m then w else m) x)
      some (quads part, part)

/-- A swap of a quadrant and its closure: for a priority-3 task, to bench a context, or to bring displaced waves back
(R317, R318, R455), whose registers are read from the save area, as they may be while no group is parked (R461). -/
def execShadowBankSwap (core quad : Nat) (s : State) : Host.Outcome State Fault Refusal :=
  let qs := closureOf s (residents s) core quad
  if (isTarget s core quad || holdsBenched s core quad) && armedAll s qs then .next (exchange s qs)
  else match if reserved s (dieOf core) none || s.anyParked then none else returnSet s core quad with
    | some (qs, ws) => .next (restamp (exchange (bringBack s ws) qs) (ws.map (·.wid)))
    | none => .next s

/-- Whether every result in flight for a wave has landed, so that it may be spilled (R318). -/
def spillReady (s : State) (w : Wave) : Bool :=
  !w.spilled && w.bank != activeBank s w.core w.quad
    && !(s.accs.any fun a => a.wid == w.wid)
    && !(s.lands.any fun l => l.wid == w.wid)
    && !(s.streams.any fun t => t.wid == w.wid && t.write && !t.entries.isEmpty)

/-- Prefetched entries of a wave's load streams are discarded and read again later (R192); the places of those whose fault the wave
has been told of stay, so that a release has them read again (R201). -/
def rewindStreams (s : State) (wid : Nat) : State :=
  let told (t : Stream) : List Nat := (t.entries.zipIdx.filter fun x => x.1.told).map (·.2)
  let back (t : Stream) : Stream :=
    { t with next := t.next - 32 * t.entries.length, entries := [], toldAt := told t ++ t.toldAt.filter fun k => !(told t).contains k }
  { s with streams := modify (fun t => t.wid == wid && !t.write) back s.streams }

/-- The spill engine writes a displaced wave to the save area. -/
def execSpill (wave : Nat) (s : State) : Host.Outcome State Fault Refusal :=
  match s.wave? wave with
  | some w => .next (if spillReady s w && !s.anyParked then (rewindStreams (writeSave s w.asid) wave).setWave { w with spilled := true } else s)
  | none => .next s

/-- A used shadow bank that no wave occupies any more is armed again. -/
def execShadowBankRearm (core quad : Nat) (s : State) : Host.Outcome State Fault Refusal :=
  let q := quadOf s core quad
  .next (if !q.armed && (bankWaves s core quad (1 - q.active)).isEmpty then setQuad s { q with armed := true } else s)

/-! ### Ring packets (R451, R452) -/

/-- The journal entry of a ring slot: 8 bytes per slot of every enabled ring, in ring order (R446). -/
def journalAt (c : Context) (q slot : Nat) : Nat :=
  let before := (List.range q).foldl (fun k i => if c.qen.getLsbD i then k + (c.rings.getD i { base := 0, slots := 0 }).slots else k) 0
  c.journal + 8 * (before + slot)

/-- Where a packet's predecessors lie, or none where an identifier names no task or an edge is refused (R305, R306). -/
def packetPreds (s : State) (c : Context) (p : List Byte) : Option (List Nat) :=
  (List.range (byteN p 5)).foldlM (fun l i =>
    let v := bytesNat p (0x10 + 4 * i) 4
    if v / 2 ^ 30 != 0 then none
    else match predOf s c v with
      | .node m => if (familyOf s m).isSome then none else some (if l.contains m.nid then l else m.nid :: l)
      | .retired => some l
      | .bad _ => none) []

/-- The committed bytes that a packet's source holds, or none where a page of it cannot be read. -/
def sourceBytes (s : State) (c : Context) (a n : Nat) : Option (List Byte) := s.readBytes c.asid none (a % 2 ^ 64) n

/-- The node of a packet that passes its checks (R63, R340, R367, R452). A source that does not lie at a multiple of 64 breaks
R61, R339 or R367; the packet is rejected (log entry 33). -/
def packetNode (s : State) (c : Context) (q : Nat) (p : List Byte) : Option Node := do
  let src := bytesNat p 8 8
  let n : Node := { nid := 0, asid := c.asid, queue := q, source := src }
  let npred := byteN p 5
  if npred > 8 || bytesNat p 6 2 != 0 || (List.range 80).any (fun i => byteN p (0x30 + i) != 0)
      || (List.range 8).any (fun i => i ≥ npred && bytesNat p (0x10 + 4 * i) 4 != 0) || src % 64 != 0 then none
  else
    let preds ← packetPreds s c p
    let bs ← sourceBytes s c src 64
    match byteN p 4 with
    | 1 =>
      let r := launchOf bs
      if !launchOk bs || !gangFits r then none
      else
        let tb ← sourceBytes s c (src + 64) (16 * r.tiles)
        let tiles := (List.range r.tiles).map fun i => (tb.drop (16 * i)).take 16
        if tiles.all tileOk then some { n with launch := r, tileDescs := tiles, preds := preds } else none
    | 2 => if cardOk src bs [1, 2, 3, 4] then some { n with kind := .eng, card := bs, preds := preds } else none
    | 3 => if blockOk src bs then some { n with kind := .red, card := bs, preds := preds } else none
    | _ => none

/-- The node of a rejected packet: it retires in its turn with status REJECTED. -/
def rejectedNode (c : Context) (q : Nat) (p : List Byte) : Node :=
  { nid := 0, asid := c.asid, queue := q, source := bytesNat p 8 8, rejected := true, status := 5
    kind := match byteN p 4 with | 2 => .eng | 3 => .red | _ => .krn }

/-- Accepts the packet in a slot: journal, node, window entry; none where there is no room. -/
def acceptPacket (s : State) (c : Context) (q : Nat) (r : Ring) (p : List Byte) : Option State :=
  let n := (packetNode s c q p).getD (rejectedNode c q p)
  if (windowOf s c.asid q).length ≥ Config.window || edgesOf s (queueDie c q) + n.preds.length > Config.edgeSlots then none
  else match addNode s c n with
    | none => none
    | some (n, s) =>
      let s := physPut s (journalAt c q (r.next % r.slots)) (leBytes 8 r.next)
      let s := s.setCtx { c with rings := c.rings.set q { r with next := (r.next + 1) % 2 ^ 32 } }
      match s.ctx? c.asid with
      | none => some s
      | some c =>
        let (n, s) := submit s c n
        some (if n.rejected then s.setNode { n with stage := .complete, preds := [] } else s)

/-- What the part reads of a packet's source: its record, card or block, and a record's tile descriptors (R462). -/
def touchSource (s : State) (c : Context) (p : List Byte) : State :=
  let src := bytesNat p 8 8
  let s := s.touchRange c.asid src 64
  match sourceBytes s c src 64 with
  | some bs => if byteN p 4 == 1 then s.touchRange c.asid (src + 64) (16 * (launchOf bs).tiles) else s
  | none => s

/-- The part reads the next slot of a ring whose doorbell is ahead of it. -/
def readSlot (s : State) (c : Context) (q : Nat) (r : Ring) : State :=
  let p := physBytes s (r.base + 128 * (r.next % r.slots)) 128
  let s := touchSource (physTouch s (r.base + 128 * (r.next % r.slots)) 128) c p
  if bytesNat p 0 4 != r.next then s.setCtx { c with rings := c.rings.set q { r with overrun := true } }
  else (acceptPacket s c q r p).getD s

/-- Whether a context has accepted tasks that are to run again after a function reset and have not been dispatched since: no ring is
read further before they are (R454, log entry 21). A stopped queue holds no other up. -/
def mustRerun (s : State) (asid : Nat) : Bool :=
  s.nodes.any fun n => n.asid == asid && n.restart && (n.stage == .waiting || n.stage == .ready) && !queueStopped s asid n.queue

def execRingSlotRead (asid ring : Nat) (s : State) : Host.Outcome State Fault Refusal :=
  match s.ctx? asid with
  | some c => match c.rings[ring]? with
    | some r =>
      let ahead := (r.door + 2 ^ 32 - r.next) % 2 ^ 32
      .next (if queueEnabled c ring && !r.overrun && ahead != 0 && decide (ahead < 2 ^ 31) && ctxRuns s asid && !mustRerun s asid && !s.anyParked then
          readSlot s c ring r
        else s)
    | none => .next s
  | none => .next s

/-! ### Commits (R217, R240, R321, R323) -/

/-- Writes a version byte into the committed value: its resident line, or its frame; with the GWCT of the write. -/
def commitByte (asid : Nat) (r : State × Nat) (x : Nat × Byte) : State × Nat :=
  match r.1.home? asid (x.1 / 128) with
  | some h =>
    let t := { h.tr with pa := h.tr.pa + x.1 % 128 }
    (r.1.writeCommitted asid x.1 t [x.2], max r.2 (r.1.gwctOf asid x.1 t))
  | none => match r.1.locate asid x.1 with
    | some t => (r.1.writeCommitted asid x.1 t [x.2], max r.2 (r.1.gwctOf asid x.1 t))
    | none => r

/-- Commits a family's version; its provisional children are accepted. -/
def commitFam (s : State) (f : Family) : State :=
  let (s, g) := f.writes.foldl (commitByte f.asid) (s, s.ns)
  let s := s.setFam { f with writes := [], committed := true, gwct := g }
  { s with
    l1 := modify (fun x => x.fam == some f.fid) (fun x => { x with fam := none }) s.l1
    nodes := modify (fun n => n.birth == some f.fid) (fun n => { n with birth := none }) s.nodes }

/-- A family whose version has committed at HOLD is non-speculative (R323). -/
def goDirect (s : State) (fid : Nat) : State :=
  { s with fams := modify (fun f => f.fid == fid) (fun f => { f with st := .direct, holdTo := f.gwct + 2 }) s.fams }

/-- An owner in HOLD has become the oldest: the version so far commits and the family is non-speculative; the writes that it has held
are performed once the clock has passed the commit. -/
def execHoldCommit (family : Nat) (s : State) : Host.Outcome State Fault Refusal :=
  match s.fam? family with
  | some f => match s.node? f.owner with
    | some o =>
      if f.st != .hold || !isOldest s o || queueStopped s o.asid o.queue || !ctxRuns s o.asid || s.anyParked then .next s
      else .next (goDirect (commitFam s f) f.fid)
    | none => .next s
  | none => .next s

/-- Whether an entry may close now: no deferred atomic waits before its generation (R218). -/
def mayClose (s : State) (e : RedoEntry) : Bool :=
  decide (e.gen < redoGen s e.asid (e.addr / 128)) || (deferredAt s e.asid (e.addr / 128)).isEmpty

/-- Closes an entry: a store of the rounded total at the home, with its GWCT (R217); one whose page is no longer mapped is
dropped (log entry 15). -/
def closeEntry (r : State × Nat × Flags) (e : RedoEntry) : State × Nat × Flags :=
  let s := { r.1 with redos := r.1.redos.filter fun x => x != e }
  let n := if e.dbl then 8 else 4
  match s.lookup e.asid e.addr .read with
  | some t =>
    let s := atHome s e.asid e.addr t
    let (v, fl) := e.close (s.readVal e.asid none e.addr t n)
    let g := s.gwctOf e.asid e.addr t
    ((s.writeCommitted e.asid e.addr t (leBytes n v)).noteWrite e.asid e.addr n true, max r.2.1 g, r.2.2 ||| fl)
  | none => (s, r.2)

/-- Those of some entries, in ascending element address, that close now: an entry that waits behind a deferred atomic holds back the
entries after it, but for those of sealed generations, which deferred atomics wait for (R217, R218, log entry 15). -/
def closing (s : State) : List RedoEntry → List RedoEntry
  | [] => []
  | e :: es =>
    if mayClose s e then e :: closing s es
    else es.filter fun x => decide (x.gen < redoGen s x.asid (x.addr / 128)) && !(deferredAt s x.asid (x.addr / 128)).isEmpty

/-- The entries of a family that close now. -/
def closable (s : State) (fid : Nat) : List RedoEntry :=
  closing s (sortBy (fun (a b : RedoEntry) => decide (a.addr ≤ b.addr)) (s.redos.filter fun e => e.fam == fid))

/-- Closes the entries of a family that may close, in ascending element address. -/
def closeFam (s : State) (fid : Nat) : State × Nat × Flags := (closable s fid).foldl closeEntry (s, 0, 0)

/-- The families that a task owns: that of its last run, and those of earlier runs whose effects were kept (R323). -/
def ownFams (s : State) (nid : Nat) : List Nat := (s.fams.filter fun f => f.owner == nid).map (·.fid)

/-- Closes the entries of every family that a task owns, in the order in which they were opened (log entry 15). -/
def closeOwn (s : State) (nid : Nat) : State × Nat × Flags :=
  (ownFams s nid).foldl (fun (s, g, fl) fid => let (s, g', fl') := closeFam s fid; (s, max g g', fl ||| fl')) (s, 0, 0)

/-- The version that a node's retirement commits: that of its last run, if it owns it and it is still speculative. -/
def ownVersion (s : State) (n : Node) : Option Family :=
  (n.fam.bind s.fam?).filter fun f => f.owner == n.nid && f.st != .direct && !f.committed

/-- The first steps of a retirement: the version commits and the entries of every run that was kept close; flags go to the owner's
record. -/
def settleVersion (s : State) (n : Node) : State :=
  let s := match ownVersion s n with | some f => commitFam s f | none => s
  let (s, g, fl) := closeOwn s n.nid
  let done (f : Family) : Family := { f with committed := true, gwct := max f.gwct g }
  let s := { s with fams := modify (fun f => f.owner == n.nid) done s.fams }
  match s.node? n.nid with
  | some n => s.setNode { n with redoFlags := n.redoFlags ||| fl }
  | none => s

/-- The completion record's KIND (R322, R399). -/
def recordKind (n : Node) : Nat :=
  match n.kind with
  | .eng => 1
  | .red => 2
  | _ => if n.contRan then 3 else 0

/-- The last steps of a retirement: the record, the dependents, the entry and the node (R321). -/
def retireNode (s : State) (n : Node) : State :=
  let s := s.appendEv n.asid (State.eventBytes (State.taskId n) n.status (n.redoFlags % 128) (recordKind n) s.ns n.source n.checked)
  let own (m : Node) : Bool := match m.fam with | some f => (ownFams s n.nid).contains f | none => false
  let s := { s with
    fams := s.fams.filter fun x => x.owner != n.nid
    nodes := modify own (fun m => { m with fam := none, birth := none, settled := true }) s.nodes }
  let s := (s.releaseDependents n.nid).freeNode n
  match s.ctx? n.asid with
  | some c => s.setCtx { c with wdFrom := s.ns }
  | none => s

/-- Whether the version that a complete task wrote into is committed, with nothing left to close of it or of the families that the
task's earlier runs have left, and the clock has passed what they wrote. -/
def versionSettled (s : State) (n : Node) : Bool :=
  (s.fams.all fun f => !(some f.fid == n.fam || f.owner == n.nid)
      || ((f.st == .direct || f.committed) && decide (s.ns ≥ f.gwct + 2)))
    && !(s.redos.any fun e => (ownFams s n.nid).contains e.fam)

/-- Whether retirement has work to do on versions before the record. -/
def versionWork (s : State) (n : Node) : Bool := (ownVersion s n).isSome || (ownFams s n.nid).any fun fid => !(closable s fid).isEmpty

/-- The oldest task of a queue. -/
def oldestNode (s : State) (asid q : Nat) : Option Node := (windowOf s asid q).find? (isOldest s)

def execTaskRetirement (asid queue : Nat) (s : State) : Host.Outcome State Fault Refusal :=
  let s := s.settle
  match oldestNode s asid queue, s.ctx? asid with
  | some n, some c =>
    if n.stage != .complete || queueStopped s asid queue || !ctxRuns s asid || s.anyParked || (s.waves.any fun w => w.node == n.nid) then .next s
    else if versionWork s n then .next (settleVersion s n)
    else .next (if versionSettled s n && s.evRoom c then retireNode s n else s)
  | _, _ => .next s

end Sys2Proof.Machine
end

