-- ==== Sys2Proof/Machine/Platform.lean ====
section
/-! DEFINITION. Power, firmware, links, channel and core failures, the watchdog, saves and restores, and the function
reset (R374, R434, R435, R439 to R441, R454, R458 to R465). -/

namespace Sys2Proof.Machine

/-! ### Firmware and attestation (R463) -/

/-- Whether the ROM loader starts an image. -/
def imageOk (ecdsaOk lmsOk : Bool) (version fuses : Nat) : Bool := ecdsaOk && lmsOk && decide (version ≥ fuses)

/-- Power-on: everything on the part stands as at reset, and the ROM loader starts the image or stays in recovery. Memory
keeps what is listed, and the inputs stay (log entries 1 and 5). -/
def execPowerOn (ecdsaOk lmsOk : Bool) (version fuses : Nat) (s : State) : Host.Outcome State Fault Refusal :=
  let ok := imageOk ecdsaOk lmsOk version fuses
  .next { State.reset with
    turns := s.turns
    free := s.free
    nextId := s.nextId
    mem := s.mem
    plat := { portRefuses := s.plat.portRefuses, windows := s.plat.windows, parityRow := s.plat.parityRow
              reserveRow := s.plat.reserveRow, fwRunning := ok, recovery := !ok, fwVersion := if ok then version else 0, fuses := fuses } }

/-- The host loads an image while the part is in recovery. -/
def execRecoveryImageLoad (ecdsaOk lmsOk : Bool) (version : Nat) (s : State) : Host.Outcome State Fault Refusal :=
  .next (if s.plat.recovery && imageOk ecdsaOk lmsOk version s.plat.fuses then
      { s with plat := { s.plat with fwRunning := true, recovery := false, fwVersion := version } }
    else s)

/-- A measurement is answered, signed by both algorithms: it depends on the firmware, the fuse state and the ROM, and its value and
signatures are open (log entry 2). -/
def execSpdmRequest (index : Nat) (s : State) : Host.Outcome State Fault Refusal :=
  let v := Config.measure index s.plat.fwVersion s.plat.fuses
  let m : Measurement := { index := index, value := v, ecdsa := Config.signature 0 v, lms := Config.signature 1 v }
  .next { s with plat := { s.plat with measured := s.plat.measured ++ [m] } }

/-- The speeds in tenths of GT/s and the widths that PCIe 7.0 defines, up to 128 GT/s and ×16 (R443). -/
def linkSpeeds : List Nat := [25, 50, 80, 160, 320, 640, 1280]
def linkWidths : List Nat := [1, 2, 4, 8, 16]

/-- The host link trains at 128 GT/s ×16 or below (R443): at the highest speed and width of PCIe 7.0 that do not lie above those
that the other end offers, the speed in tenths of GT/s. -/
def execHostLinkTraining (speed width : Nat) (s : State) : Host.Outcome State Fault Refusal :=
  let best (l : List Nat) (n : Nat) : Nat := (l.filter fun x => x ≤ n).foldl max 0
  let v := best linkSpeeds speed
  let w := best linkWidths width
  .next (if v == 0 || w == 0 then s else { s with plat := { s.plat with linkSpeed := v, linkWidth := w } })

/-! ### Peer ports (R458, R459) -/

/-- A flit that passes its CRC in its turn is accepted and acknowledged; any other is repeated. -/
def execPeerFlit (port seq : Nat) (crcOk : Bool) (body : FlitBody) (s : State) : Host.Outcome State Fault Refusal :=
  let p := portOf s port
  if port ≥ peerPorts then .next s
  else if crcOk && seq == p.nextSeq then
    let p := { p with nextSeq := p.nextSeq + 1, acked := p.acked + 1 }
    .next (setPort s (match body with
      | .data => p
      | .stepAck n => { p with kept := p.kept.filter fun c => c.step != n, step := if n == p.step then n + 1 else p.step }))
  else .next (setPort s { p with replays := p.replays + 1 })

/-- The contributions of an aborted step are sent again in the same order. -/
def execSwitchStepAbort (port step : Nat) (s : State) : Host.Outcome State Fault Refusal :=
  let p := portOf s port
  let again (c : Contribution) : Contribution := { c with sent := c.sent + 1 }
  .next (if port ≥ peerPorts then s else setPort s { p with kept := modify (fun c => c.step == step) again p.kept })

/-- A lane is retired, the port retrains on those that are left, and it sends again every flit that is not acknowledged: the
contributions that it retains, and the posted writes that have not landed; a read or an atomic request has its completion, which
acknowledges it, within the event that sends it (R331, R458). -/
def execLinkLaneFailure (port : Nat) (s : State) : Host.Outcome State Fault Refusal :=
  let p := portOf s port
  let again (c : Contribution) : Contribution := { c with sent := c.sent + 1 }
  let s := { s with portWrites := modify (fun w => peerOf s w.pa == some port) (fun w => { w with sent := w.sent + 1 }) s.portWrites }
  .next (if port ≥ peerPorts then s
    else setPort s { p with lanes := p.lanes - 1, retrains := p.retrains + 1, replays := p.replays + 1, kept := p.kept.map again })

/-! ### Machine checks (R323, R374, R434, R435) -/

/-- The value of CAUSE for a core machine check (R426). -/
def mcCause (c : McCause) : Nat := match c with | .residue => 16 | .accum => 17 | .core => 20

/-- Ends the families that nodes belong to, after a machine check. -/
def checkNodes (s : State) (ids : List Nat) : State :=
  ids.foldl (fun s nid => match s.node? nid with
    | some n => s.endFamilyChecked n
    | none => s) s

/-- Whether what a node has on a core is there: that of a saved context lies in its save area, while displaced waves belong to the
core that they may return to (R318, R440, log entry 22). -/
def onCores (s : State) (nid : Nat) : Bool :=
  match (s.node? nid).bind fun n => s.ctx? n.asid with | some c => c.wd != .saved | none => true

/-- The nodes, once each, with a wave, an array or a Kite ray on a core. -/
def nodesOnCore (s : State) (core : Nat) : List Nat :=
  (((s.waves.filter fun w => w.core == core && onCores s w.node).map (·.node))
    ++ ((s.arrays.filter fun a => a.core == core && onCores s a.holder).map (·.holder))
    ++ ((s.rays.filter fun r => r.place == .kite core).map (·.owner))).dedup

/-- What tasks that keep their effects still have on a core that has stopped goes with it: waves, with their streams, accesses,
results and commands, arrays and scratchpads (R434 step 1). -/
def dropCore (s : State) (core : Nat) : State :=
  let gone (w : Wave) : Bool := w.core == core && onCores s w.node
  let wids := (s.waves.filter gone).map (·.wid)
  let nids := ((s.waves.filter gone).map (·.node)).dedup
  let s := { s with
    waves := s.waves.filter fun w => !gone w
    streams := s.streams.filter fun t => !wids.contains t.wid
    accs := s.accs.filter fun a => !wids.contains a.wid
    lands := s.lands.filter fun l => !wids.contains l.wid
    unitQ := s.unitQ.filter fun u => !wids.contains u.wid
    bcmds := s.bcmds.filter fun c => !wids.contains c.wid
    arrays := s.arrays.filter fun a => !(a.core == core && onCores s a.holder)
    spads := s.spads.filter fun p => !(p.core == core && onCores s p.node) }
  (nids.foldl State.endHolding (s.dropWaiters fun wid => wids.contains wid)).settle

/-- The contexts that had a wave, an array holder, an engine entry or a Kite ray on a core (R434). -/
def ctxsOnCore (s : State) (core : Nat) : List Nat :=
  ((((nodesOnCore s core).filterMap s.node?).map (·.asid))
    ++ ((s.entries.filter fun e => e.core == some core).map (·.asid))).dedup

/-- Appends the machine-check record of a core to a context's fault queue. -/
def coreRecord (core : Nat) (cause : McCause) (s : State) (asid : Nat) : State :=
  s.appendRec { code := kMCHECK, cause := mcCause cause, flags := 8, source := 6, task := 0xFFFFFFFF, asid := asid, info := core } .nothing

/-- R434. -/
def execCoreMachineCheck (core : Nat) (cause : McCause) (s : State) : Host.Outcome State Fault Refusal :=
  if core ≥ Config.cores || s.deadCores.contains core then .next s
  else
    let ids := nodesOnCore s core
    let asids := ctxsOnCore s core
    let s := { s with
      deadCores := core :: s.deadCores
      l1 := s.l1.filter fun x => x.core != core
      ilines := s.ilines.filter fun x => x.core != core }
    .next (asids.foldl (coreRecord core cause) (dropCore (checkNodes s ids) core))

/-- The record of a machine check of one task's node; PARTIAL tells that its family is non-speculative (R424). -/
def nodeRecord (s : State) (n : Node) (r : FaultRec) : State :=
  s.appendRec { r with code := kMCHECK, flags := 8 + (if s.nonSpec n then 2 else 0), task := State.taskId n, asid := n.asid, info := 0xFF } .nothing

/-- A read whose location is lost (R435): its task's node, and what its record tells of the unit that reads (R424). -/
structure Loss where
  node : Nat
  at_ : FaultRec

/-- The loss of a wave instruction's read, or of one that its array or bank command makes (SOURCE 0, 3, 4). -/
def waveLoss (s : State) (source node wid : Nat) (pc : Word64) (addr : Nat) : Loss :=
  { node := node, at_ := { cause := 19, source := source, pc := pc, addr := BitVec.ofNat 64 addr
                           loc := match s.wave? wid with | some w => State.locOf w | none => 0 } }

/-- The address that an engine entry reads next. -/
def engAt (e : EngEntry) : Nat :=
  match e.op with
  | .copy _ src _ _ => src + e.inBuf.length
  | .card a _ => match e.card with | some c => bytesNat c 8 8 | none => a
  | .kept _ c => bytesNat c 8 8
  | .fence _ => 0

/-- Address of line i of n bytes from an address. -/
def lineAt (a n i : Nat) : Nat := let j := i % max 1 (lineSpan a n); if j == 0 then a else (a / 128 + j) * 128

/-- Address of the k-th line of some ranges of bytes, counted round. -/
def lineOf (ranges : List (Nat × Nat)) (k : Nat) : Nat :=
  let r := ranges.getD (k % ranges.length) (0, 0)
  lineAt r.1 r.2 (k / ranges.length)

/-- The buffers that a closing pass reads (R414, R416, R417). -/
def passReads (p : Pass) : List (Nat × Nat) :=
  let px := pdW p.bytes * pdH p.bytes
  (pdVis p.bytes, 8 * pdNs p.bytes * px) ::
    (if pdPrev p.bytes != 0 then [(pdMv p.bytes, 8 * px), (pdPrev p.bytes, 8 * pdNs p.bytes * px)] else [])

/-- The lines that a bank command reads in DRAM at its column. -/
def cmdReads (s : State) (c : BankCmd) : List (Nat × Nat) :=
  let banks := match bankPage s c.asid c.addr .read with
    | .ok pa => match s.pch? (pchOf pa) with | some p => reached p c.addr | none => [c.addr / 512 % 16]
    | .error _ => [c.addr / 512 % 16]
  match c.op with
  | .mac _ _ _ _ _ | .op _ _ _ _ _ _ _ => banks.map fun b => (colVa c.addr b c.pos, 32)
  | _ => []

/-- The read in progress that a name stands for: an access in flight, the next read of a load stream, engine entry, reduction job,
ray, array or bank command or closing pass, or the fetch of a wave. Names are never shared. Which of the lines of a read of many is lost
is open (log entry 2). -/
def lossOf (s : State) (id : Nat) : Option Loss :=
  let k := Config.freeNat s.free
  (((s.accs.find? fun a => a.id == id && a.st == .issued).map fun a =>
      waveLoss s (if a.kind matches .line _ _ then 3 else 0) a.node a.wid a.pc a.addr)
    <|> ((s.streams.find? fun t => t.sid == id && canFetch t).bind fun t => (s.wave? t.wid).map fun w =>
      waveLoss s 0 w.node w.wid w.pc (streamAddr t (t.next + k % min 32 (t.total - t.next))))
    <|> ((s.entries.find? fun e => e.eid == id && !e.performed).map fun e =>
      { node := e.node, at_ := { cause := 19, source := 1, pc := e.pc, addr := BitVec.ofNat 64 (engAt e), slot := e.queue.getD 0 } })
    <|> ((s.jobs.find? fun j => j.jid == id && j.st == .queued).map fun j =>
      let a := lineOf (j.soffs.map fun o => (j.sbase + o * 8192, j.len * jobSize j.ty)) k
      { node := j.node, at_ := { cause := 19, source := 8, pc := j.pc, addr := BitVec.ofNat 64 a, slot := j.stack } })
    <|> (s.rays.findSome? fun r => match r.place with
      | .kite core => if r.rid == id then
          some { node := r.owner, at_ := { cause := 19, source := 2, pc := BitVec.ofNat 64 r.pc, addr := BitVec.ofNat 64 r.node
                                           loc := core % 128, slot := r.slot, ray := r.num } }
        else none
      | _ => none)
    <|> ((s.arrays.findSome? fun a => a.queue.head?.bind fun h => if h.id == id then some (a, h) else none).bind fun (a, h) => match h.op with
      | .lds false img _ base pitch =>
        let n := if img then imgBytes (arrCfg h.cfg) else recBytesB (arrCfg h.cfg)
        some (waveLoss s 3 a.holder h.wid h.pc (lineOf ((List.range 128).map fun i => (base + i * pitch, n)) k))
      | _ => none)
    <|> ((s.bcmds.find? fun c => c.cid == id && !(cmdReads s c).isEmpty).map fun c =>
      waveLoss s 4 c.node c.wid c.pc (lineOf (cmdReads s c) k))
    <|> ((s.passNo id).bind fun p => match p.st with
      | .closing => some { node := p.node, at_ := { cause := 19, source := 5, pc := p.pc, addr := BitVec.ofNat 64 (lineOf (passReads p) k) } }
      | _ => none)
    <|> ((s.wave? id).map fun w => waveLoss s 0 w.node w.wid w.pc w.pc.toNat))

/-- A read whose location is lost never delivers a value (R435): its access goes with the results of its instruction, whose register
stays empty, or its stream, job or command; a ticket's entry ends with FAULT and a pass with status 1, as those do that software ends
(R346, R416). -/
def giveUp (s : State) (id : Nat) : State :=
  match s.accs.find? fun a => a.id == id with
  | some a =>
    let s := { s.dropAcc id with lands := s.lands.filter fun l => l.gid != a.gid }
    if a.kind matches .load _ _ _ then s else lessOutst s a.wid a.items
  | none =>
    let close (e : EngEntry) : EngEntry := { e with stopped := false, performed := true, status := some 1 }
    let s := { s with
      entries := modify (fun e => e.eid == id) close s.entries
      jobs := s.jobs.filter fun j => j.jid != id
      streams := s.streams.filter fun t => t.sid != id }
    let s := match s.arrays.findSome? fun a => a.queue.head?.bind fun h => if h.id == id then some (a, h) else none with
      | some (a, h) => discardCmd s a h
      | none => s
    let s := match s.bcmds.find? fun c => c.cid == id with
      | some c => discardBank s c
      | none => s
    match s.passNo id with
    | some p => failPass p s
    | none => s

/-- A parity rebuild fails: the version is discarded and the task is not rerun; a non-speculative family keeps its effects, and the
read is given up, as is that of a pass, which belongs to no version (R174, R323, R416, R435). -/
def execDataloss (access : Nat) (s : State) : Host.Outcome State Fault Refusal :=
  match lossOf s access with
  | some l => match s.node? l.node with
    | some n =>
      let t := (nodeRecord { s with free := s.free + 1 } n l.at_).endFamily n false false
      .next (if s.nonSpec n || (s.passNo access).isSome then giveUp t access else t)
    | none => .next s
  | none => .next s

/-- Frees a pseudo-channel whose holder takes a machine check or a core fault, with the holder's commands for it: its registers and
queue are lost, and the holder's waves wait for none of them any more (R355, R374). -/
def dropPch (s : State) (num : Nat) : State :=
  let there (c : BankCmd) : Bool := match cmdPchs s c with | some l => l.contains num | none => false
  let mine (c : BankCmd) : Bool := match s.pch? num with | some p => p.holder == c.node | none => false
  (s.bcmds.filter fun c => there c && mine c).foldl discardBank { s with pchs := s.pchs.filter fun p => p.num != num }

/-- A parity error of Abacus registers or a bank queue (R374). -/
def execBankParityError (stack channel pch : Nat) (s : State) : Host.Outcome State Fault Refusal :=
  let num := stack * 64 + channel * 2 + pch % 2
  match s.pch? num with
  | some p => match s.node? p.holder with
    | some n => .next ((nodeRecord (dropPch s num) n { cause := 18, source := 4 }).endFamilyChecked n)
    | none => .next (dropPch s num)
  | none => .next s

/-! ### Channels (R355, R461, R462) -/

/-- A pseudo-channel is retired: it is FREE, and its holder is treated as after a core fault. -/
def retirePch (s : State) (num : Nat) : State :=
  let s' := { s with deadPchs := if s.deadPchs.contains num then s.deadPchs else num :: s.deadPchs }
  match s'.pch? num with
  | some p => checkNodes (dropPch s' num) [p.holder]
  | none => s'

/-- A channel is retired: its group is parked and its share of the reserve is in RECOVERY. Once the reserve is used, a further failure
is served by reconstruction on every access (R461). -/
def execChannelFailure (stack channel : Nat) (s : State) : Host.Outcome State Fault Refusal :=
  if stack ≥ 8 || channel ≥ 32 then .next s
  else
    let g := s.groupOr stack (channel / 16)
    if g.dead.contains channel then .next s
    else
      let unused := g.mode == .reserve || g.mode == .test
      let s := s.setGroup (if unused then
          { g with dead := channel :: g.dead, parked := true, mode := .recovery, tags := [], saved := some (channel % 16) }
        else { g with dead := channel :: g.dead, parked := true, recon := true })
      .next ([0, 1].foldl (fun s i => retirePch s (stack * 64 + channel * 2 + i)) s)

/-- Once no group is parked any more, the register writes that have waited for one are performed (R461). -/
def resumeAll (s : State) : State := if s.plat.groups.any fun g => g.parked then s else resumeRegs s

/-- Traffic to a parked group resumes on the 15-way interleave, with the writes, accesses and fetches that were parked. -/
def execChannelTrafficResume (stack group : Nat) (s : State) : Host.Outcome State Fault Refusal :=
  let g := s.groupOr stack group
  .next (if g.parked then
      let s := ((s.setGroup { g with parked := false }).resumePuts g.holds).resumeWaits
      resumeAll ((s.ctxs.map (·.asid)).foldl (fun s asid => releaseParked s asid fun _ => true) s)
    else s)

/-- The rebuild has ended: every line of the retired channel has its home in the share's rows, which leaves RECOVERY (R462). -/
def execRebuildComplete (stack group : Nat) (s : State) : Host.Outcome State Fault Refusal :=
  let g := s.groupOr stack group
  .next (if g.mode == .recovery && !g.parked then s.setGroup { g with mode := .home, tags := [] } else s)

/-! ### The watchdog, saves and restores (R439 to R441, R465) -/

/-- The WATCHDOG record and the save that follows it. -/
def wdExpire (s : State) (c : Context) : State :=
  let s := s.appendRec { code := kWATCHDOG, flags := 8, source := 7, task := 0xFFFFFFFF, asid := c.asid, info := c.wdogMs * 1000 } .nothing
  startSave s c.asid

def execWatchdogExpiry (asid : Nat) (s : State) : Host.Outcome State Fault Refusal :=
  match s.ctx? asid with
  | some c => .next (if !wdPaused s c && decide (s.ns ≥ c.wdFrom + c.wdogMs * 1000000) then wdExpire s c else s)
  | none => .next s

/-- A part that is too hot stops once no save is in progress. -/
def stopIfHot (s : State) : State :=
  if s.plat.hot && !(s.ctxs.any fun c => c.wd == .saving) then { s with plat := { s.plat with stopped := true } } else s

/-- Whether everything of a context has come to rest: rays are out of the Kites, plain accesses have been acknowledged,
results have landed and pushed entries are stored; atomics not yet performed stay withdrawn, and what a family in HOLD may
not perform before its commit stays held (R440, R324). -/
def saveReady (s : State) (asid : Nat) : Bool :=
  let mine (wid : Nat) : Bool := match s.wave? wid with | some w => w.asid == asid | none => false
  let held (node : Nat) : Bool := match famOfNode s node with | some f => f.st == .hold || decide (s.ns < f.holdTo) | none => false
  !(s.rays.any fun r => r.asid == asid && (match r.place with | .kite _ => true | _ => false))
    && s.accs.all (fun a => a.asid != asid || ((a.kind.isAtomic || a.kind.isRedo) && a.st == .issued)
      || (held a.node && a.st == .issued && (match admission s a with | .wait => true | _ => false)))
    && !(s.lands.any fun l => mine l.wid && landReady s l)
    && !(s.streams.any fun t => mine t.wid && t.write && !t.stopped && !t.entries.isEmpty
      && (match s.wave? t.wid with | some w => !held w.node | none => true))
    && !(s.bcmds.any fun c => c.asid == asid && c.pos != 0)

/-- Every wave of a context is in the save area, whose bytes are open, as the spec gives it no layout (log entry 23). -/
def spillAll (s : State) (asid : Nat) : State :=
  let s := (s.waves.filter fun w => w.asid == asid).foldl (fun s w => rewindStreams s w.wid) (writeSave s asid)
  let out (w : Wave) : Wave := { w with spilled := true, displaced := w.spilled || w.bank != activeBank s w.core w.quad }
  { s with waves := modify (fun w => w.asid == asid) out s.waves }

def execSaveComplete (asid : Nat) (s : State) : Host.Outcome State Fault Refusal :=
  match s.ctx? asid with
  | some c =>
    if c.wd == .saving && decide (s.ns ≤ c.saveFrom + Config.saveNs) && saveReady s asid && !s.anyParked then
      let s := (spillAll s asid).setCtx { c with wd := .saved }
      .next (stopIfHot (s.contextEvent c 16))
    else .next s
  | none => .next s

/-- Everything of a lost context but its accepted work ends; what is accepted is to run again, unless its outcome stands (R330,
R439). -/
def loseContext (s : State) (c : Context) : State :=
  let stay := (s.fams.filter fun f => f.asid == c.asid && famStands s f).map (·.fid)
  let s := replayNodes ((s.fams.filter fun f => f.asid == c.asid && f.st != .direct && !f.committed).foldl (fun s f => s.discardFamily f.fid) s) c.asid
  let s := s.dropWaves fun w => w.asid == c.asid
  let mine (n : Nat) : Bool := match s.node? n with | some x => x.asid == c.asid | none => false
  let s := s.releaseUnits mine
  let gone := (s.nodes.filter fun n => n.asid == c.asid && (n.index.isNone || n.kind == .cont)).map (·.nid)
  let s := s.cancelNodes gone
  { s with
    fams := s.fams.filter fun f => f.asid != c.asid || stay.contains f.fid
    redos := s.redos.filter fun e => e.asid != c.asid || stay.contains e.fam
    accs := s.accs.filter fun a => a.asid != c.asid
    spads := s.spads.filter fun p => !mine p.node }

def execSaveTimeout (asid : Nat) (s : State) : Host.Outcome State Fault Refusal :=
  match s.ctx? asid with
  | some c =>
    if c.wd == .saving && decide (s.ns > c.saveFrom + Config.saveNs) then
      let s := loseContext s c
      let c := (s.ctx? asid).getD c
      .next (stopIfHot ((s.setCtx { c with wd := .lost }).contextEvent c 18))
    else .next s
  | none => .next s

/-- The scratchpad bytes that tasks other than those of some waves hold on a core. -/
def spadOthers (s : State) (ws : List Wave) (core : Nat) : Nat :=
  (s.spads.filter fun p => p.core == core && !ws.any fun w => w.node == p.node).foldl (fun k p => k + p.size) 0

/-- Whether the banks of a saved quadrant are exchanged at its restore: the waves that were active are to stand in the bank that is
active now. -/
def banksTurn (ws : List Wave) (bank : Nat) : Bool :=
  match ws.find? fun w => !w.displaced with | some w => w.bank != bank | none => false

/-- Whether the saved waves of one core, with their arrays and scratchpads, fit a core: in its active banks those that were active when
they were saved; the displaced ones wait for their return still (R318). Another core than their own takes no task that it has something
of, so that each saved core goes to a core of its own (R441). -/
def coreFits (s : State) (ws : List Wave) (src dst : Nat) : Bool :=
  let mine := ws.filter fun w => w.core == src
  let theirs (nid : Nat) : Bool := mine.any fun w => w.node == nid
  let pads := s.spads.filter fun p => p.core == src && mine.any fun w => w.node == p.node
  !s.deadCores.contains dst
    && (src == dst || !((s.waves.any fun w => w.core == dst && theirs w.node) || (s.spads.any fun p => p.core == dst && theirs p.node)
      || s.arrays.any fun a => a.core == dst && theirs a.holder))
    && decide (spadOthers s ws dst + pads.foldl (fun k p => k + p.size) 0 ≤ spadBytes)
    && (List.range Config.quadsPerCore).all fun q =>
      let b := activeBank s dst q
      let saved := mine.filter fun w => w.quad == q
      let there := saved.filter fun w => !w.displaced
      let held := s.arrays.filter fun a => a.core == src && a.quad == q && theirs a.holder
      let goes (a : ArrayBank) : Nat := if banksTurn saved b then 1 - a.bank else a.bank
      decide (there.length + (bankWaves s dst q b).length ≤ Config.slots)
        && decide (there.foldl (fun n x => n + x.allot) 0 ≤ freeRegs s dst q b)
        && (held.all fun a => match s.array? dst q (goes a) with | some x => theirs x.holder | none => true)
        && (src == dst || decide (unitsGranted s dst q + held.foldl (fun n a => n + a.grant) 0 ≤ Config.accUnits))

/-- What the waves of some nodes have on one core goes to another: registers, scratchpads, arrays, and the places that name them. -/
def moveCore (s : State) (ws : List Wave) (src dst : Nat) : State :=
  if src == dst then s
  else
    let mine (nid : Nat) : Bool := ws.any fun w => w.node == nid && w.core == src
    let place (sp : Space) : Space := if sp == .spad src then .spad dst else sp
    { s with
      waves := modify (fun w => mine w.node) (fun w =>
        { w with core := if w.core == src then dst else w.core
                 troupe := w.troupe.map fun r => if r.core == src then { r with core := dst } else r }) s.waves
      spads := modify (fun p => p.core == src && mine p.node) (fun p => { p with core := dst }) s.spads
      arrays := modify (fun a => a.core == src && mine a.holder) (fun a => { a with core := dst }) s.arrays
      nodes := modify (fun n => mine n.nid) (fun n =>
        { n with gangAt := n.gangAt.map fun r => if r.core == src then { r with core := dst } else r }) s.nodes
      accs := modify (fun a => mine a.node) (fun a => { a with core := if a.core == src then dst else a.core, space := place a.space }) s.accs }

/-- The core that a saved core's waves return to: their own where they fit, else another of the die (R441). -/
def restoreCore (s : State) (ws : List Wave) (src : Nat) : Option Nat :=
  let die := dieOf src * Config.coresPerDie
  (src :: (List.range Config.coresPerDie).map fun i => die + i).find? (coreFits s ws src)

/-- Exchanges the banks of what saved waves of a quadrant have there, where the other one is active now. -/
def turnBanks (ws : List Wave) (s : State) (k : Nat × Nat) : State :=
  let saved := ws.filter fun w => (w.core, w.quad) == k
  if banksTurn saved (activeBank s k.1 k.2) then
    { s with
      waves := modify (fun w => saved.any fun x => x.wid == w.wid) (fun w => { w with bank := 1 - w.bank }) s.waves
      arrays := modify (fun a => (a.core, a.quad) == k && saved.any fun w => w.node == a.holder) (fun a => { a with bank := 1 - a.bank }) s.arrays }
  else s

/-- Puts the saved waves that were active back into the active banks of their quadrants; the displaced ones stay in the save area. -/
def restoreWaves (s : State) (ws : List Wave) : State :=
  let s := ((ws.map fun w => (w.core, w.quad)).dedup).foldl (turnBanks ws) s
  (ws.filter fun w => !w.displaced).foldl (fun s w =>
    let b := activeBank s w.core w.quad
    let used := (bankWaves s w.core w.quad b).map (·.slot)
    let slot := if used.contains w.slot then ((List.range Config.slots).find? fun i => !used.contains i).getD w.slot else w.slot
    s.setWave { w with bank := b, slot := slot, spilled := false }) s

/-- Finds a core for the waves of each saved core in turn, none where one of them finds no place. The waves of a benched context stay
in the save area, from where they return later to their cores (R318, R455). -/
def placeCores (benched : Bool) (ids : List Nat) : List Nat → State → Option State
  | [], s => some s
  | c :: cs, s =>
    let ws := s.waves.filter fun w => ids.contains w.wid
    match if benched && !s.deadCores.contains c then some c else restoreCore s ws c with
    | some d =>
      let back := (s.waves.filter fun w => ids.contains w.wid && w.core == c).map (·.wid)
      let s := moveCore s ws c d
      placeCores benched (ids.filter fun i => !back.contains i) cs
        (if benched then s else restoreWaves s (s.waves.filter fun w => back.contains w.wid))
    | none => none

def execRestoreComplete (asid : Nat) (s : State) : Host.Outcome State Fault Refusal :=
  match s.ctx? asid with
  | some c =>
    let ws := s.waves.filter fun w => w.asid == asid && w.spilled
    match if c.restoring && !s.plat.hot && !s.plat.stopped && !s.anyParked then placeCores c.benched (ws.map (·.wid)) (ws.map (·.core)).dedup s else none with
    | some t => .next ((t.setCtx { c with wd := .armed, restoring := false, wdFrom := s.ns }).contextEvent c 17)
    | none => .next s
  | none => .next s

/-- The clock drops by 100 MHz (R465). -/
def execThermalThrottle (s : State) : Host.Outcome State Fault Refusal :=
  .next (if s.plat.clockMHz > 100 then { s with plat := { s.plat with clockMHz := s.plat.clockMHz - 100 } } else s)

/-- Every context is saved as if its watchdog had expired, and the part stops; one whose restore is not complete stays saved. -/
def execThermalShutdown (s : State) : Host.Outcome State Fault Refusal :=
  let stay (c : Context) : Context := { c with restoring := false }
  let s := { s with plat := { s.plat with hot := true }, ctxs := s.ctxs.map stay }
  .next (stopIfHot ((s.ctxs.filter fun c => c.wd == .armed && !c.restoring).foldl wdExpire s))

/-! ### The function reset (R454) -/

/-- A node as the part finds it in HBM: an accepted task that has not retired runs again from its record, a stopped one too;
those whose outcome stands keep their places (R330, R454). -/
def resetNode (s : State) (n : Node) : Node :=
  if outcomeStands s n then { n with settled := n.settled || n.stage == .complete }
  else { State.fresh' n with stage := if n.preds.isEmpty then .ready else .waiting, readyAt := 0, passed := false, restart := true }

/-- A live context after a function reset: a lost one stays lost, and its queues run again. -/
def resetCtx (c : Context) : Context :=
  { c with queues := c.queues.map fun q => { q with stopped := none }, busy := false, heldReplies := [], waiting := []
           wd := if c.wd == .lost then .lost else .armed, wdFrom := 0, saveFrom := 0
           restoring := false, benched := false, benchReported := false, migs := [], moves := [], wrapped := false }

/-- The on-chip state is lost but for what is dirty, which reaches its frame; accepted work starts again. -/
def functionReset (s : State) : State :=
  let s := (s.homes.foldl State.writeBack s).landPorts
  let gone := s.nodes.filter fun n => !(n.index.isSome && n.birth.isNone && n.kind != .cont)
  let s := gone.foldl State.freeNode s
  let keep (n : Node) : Node := resetNode s { n with preds := n.preds.filter fun p => !gone.any fun g => g.nid == p }
  let stand := s.fams.filter (famStands s)
  { s with
    cur := none, curRay := none, ns := 0, cc := 0, homes := [], evicted := [], l1 := [], ilines := [], tlb := [], clusters := []
    moved := [], units := []
    redos := s.redos.filter fun e => stand.any fun f => f.fid == e.fam
    redoLines := [], spads := [], waves := [], quads := [], deadCores := [], comps := [], unitQ := [], streams := []
    accs := [], lands := [], gangMsgs := [], arrays := [], pchs := [], bcmds := [], bankWritten := [], jobs := [], entries := []
    rays := [], appends := [], fams := stand.map fun f => { f with gwct := 0, holdTo := 0 }
    nodes := s.nodes.map keep
    ctxs := s.ctxs.map resetCtx
    plat := { s.plat with posted := 0, cstatBusy := false, regWait := [] } }

/-- R454: owner words of the rays that were live are free again. -/
def execFunctionReset (s : State) : Host.Outcome State Fault Refusal := .next (functionReset (s.freeRays fun _ => true))

end Sys2Proof.Machine
end

