-- ==== Sys2Proof/Machine/ScalarInt.lean ====
section
/-! DEFINITION. Class SIA (R117 to R131). -/

namespace Sys2Proof.Machine

/-- A scalar operation on A and B at the operation's width. -/
def siaOp (i : Instr) (f : Fields) (s : State) (g : Nat → Nat → Nat) : Host.Outcome State Fault Refusal :=
  issue i f s fun c s => .done (c.putScalar s (words f) (g (c.aAt 0) (c.bAt 0)))

/-- A scalar shift: the count is one 32-bit operand (R119, R125). -/
def siaShift (i : Instr) (f : Fields) (s : State) (g : Nat → Nat → Nat → Nat) : Host.Outcome State Fault Refusal :=
  issue i f s fun c s => .done (c.putScalar s (words f) (g (wdBits (wd f)) (c.aAt 0) (c.countAt 0)))

def execSadd (f : Fields) (s : State) : Host.Outcome State Fault Refusal := siaOp (.sadd f) f s (arith f (· + ·))
def execSsub (f : Fields) (s : State) : Host.Outcome State Fault Refusal := siaOp (.ssub f) f s (arith f (· - ·))
def execSmul (f : Fields) (s : State) : Host.Outcome State Fault Refusal := siaOp (.smul f) f s (arith f (· * ·))
def execSmulh (f : Fields) (s : State) : Host.Outcome State Fault Refusal := siaOp (.smulh f) f s (mulHigh (sg f))
def execSand (f : Fields) (s : State) : Host.Outcome State Fault Refusal := siaOp (.sand f) f s (Nat.land)
def execSor (f : Fields) (s : State) : Host.Outcome State Fault Refusal := siaOp (.sor f) f s (Nat.lor)
def execSxor (f : Fields) (s : State) : Host.Outcome State Fault Refusal := siaOp (.sxor f) f s (Nat.xor)
def execSmin (f : Fields) (s : State) : Host.Outcome State Fault Refusal := siaOp (.smin f) f s (intMin f)
def execSmax (f : Fields) (s : State) : Host.Outcome State Fault Refusal := siaOp (.smax f) f s (intMax f)
def execSshl (f : Fields) (s : State) : Host.Outcome State Fault Refusal := siaShift (.sshl f) f s (shlOp)
def execSshr (f : Fields) (s : State) : Host.Outcome State Fault Refusal := siaShift (.sshr f) f s (shrOp)
def execSsra (f : Fields) (s : State) : Host.Outcome State Fault Refusal := siaShift (.ssra f) f s (sraOp)
def execSdiv (f : Fields) (s : State) : Host.Outcome State Fault Refusal := siaOp (.sdiv f) f s (divOp (sg f))
def execSrem (f : Fields) (s : State) : Host.Outcome State Fault Refusal := siaOp (.srem f) f s (remOp (sg f))

/-- R126: 1 or 0 in S and X, all ones or 0 in P. -/
def execScmp (f : Fields) (s : State) : Host.Outcome State Fault Refusal :=
  issue (.scmp f) f s fun c s =>
    let n := wdBits (wd f)
    let r := intCond (f.e 2 0) (elemVal (sg f) n (c.aAt 0)) (elemVal (sg f) n (c.bAt 0))
    let one : Nat := match c.d with | some (.p _) => 0xFFFFFFFF | _ => 1
    .done (c.putScalar s 1 (if r then one else 0))

/-- R127. -/
def execSsel (f : Fields) (s : State) : Host.Outcome State Fault Refusal :=
  issue (.ssel f) f s fun c s => .done (c.putScalar s (words f) (if c.vc.n (wide f) 0 != 0 then c.aAt 0 else c.bAt 0))

/-- R130. -/
def execSli (f : Fields) (s : State) : Host.Outcome State Fault Refusal :=
  issue (.sli f) f s fun c s => .done (c.putScalar s (words f) (immVal f))

def execSmov (f : Fields) (s : State) : Host.Outcome State Fault Refusal :=
  issue (.smov f) f s fun c s => .done (c.putScalar s (words f) (c.aAt 0))

/-- R128. -/
def execSbfe (f : Fields) (s : State) : Host.Outcome State Fault Refusal :=
  issue (.sbfe f) f s fun c s => .done (c.putScalar s (words f) (bfeOp (sg f) (wdBits (wd f)) (f.e 5 0) (f.e 12 6) (c.aAt 0)))

def execSbfi (f : Fields) (s : State) : Host.Outcome State Fault Refusal :=
  issue (.sbfi f) f s fun c s => .done (c.putScalar s (words f) (bfiOp (f.e 5 0) (f.e 12 6) (c.aAt 0) (c.bAt 0)))

/-- R129. -/
def execSclz (f : Fields) (s : State) : Host.Outcome State Fault Refusal :=
  issue (.sclz f) f s fun c s => .done (c.putScalar s 1 (clzOp (wdBits (wd f)) (c.aAt 0)))

def execSpopc (f : Fields) (s : State) : Host.Outcome State Fault Refusal :=
  issue (.spopc f) f s fun c s => .done (c.putScalar s 1 (popOp (wdBits (wd f)) (c.aAt 0)))

/-- R131: the carry goes to all bits of pk; an explicit destination that names pk too keeps the carry. -/
def execSaddx (f : Fields) (s : State) : Host.Outcome State Fault Refusal :=
  issue (.saddx f) f s fun c s =>
    let k := f.e 2 0
    let b := if vr f == 1 then 2 ^ 32 - 1 - c.bAt 0 else c.bAt 0
    let t := c.aAt 0 + b + (if lane (c.w.pr k) 0 then 1 else 0)
    let s := c.putScalar s 1 (t % 2 ^ 32)
    .done (s.setWave ((c.wave s).wp k (if t ≥ 2 ^ 32 then allLanes else 0)))

end Sys2Proof.Machine
end

