-- ==== Sys2Proof/Machine/Sync.lean ====
section
/-! DEFINITION. Class SYN (R222 to R229). -/

namespace Sys2Proof.Machine

/-- A step on a troupe word comes after the wave's earlier scratchpad accesses (R200, R231). -/
def afterSpad (c : Ctx) (s : State) (body : Act) : Act := if spadPending s c.w then .wait else body

/-- The word a `bini` or `join` names, checked as a `.b64` access (R222). -/
def wordAt (c : Ctx) (s : State) : Option TroupeRef :=
  (spTarget s c.w (c.f.m 0 0 == 1) c.va.scalar.toNat 8).map fun t => ⟨t.1, t.2⟩

/-- R223. -/
def execBini (f : Fields) (s : State) : Host.Outcome State Fault Refusal :=
  issue (.bini f) f s fun c s => afterSpad c s <| match wordAt c s with
    | none => .illopnd
    | some r =>
      let t := getTw s c.w.node r
      if t.init && t.members != 0 then .illopnd else .done (setTw s c.w.node r { init := true })

/-- R224. -/
def execJoin (f : Fields) (s : State) : Host.Outcome State Fault Refusal :=
  issue (.join f) f s fun c s => afterSpad c s <| match wordAt c s with
    | none => .illopnd
    | some r =>
      let t := getTw s c.w.node r
      if c.w.troupe.isSome || !t.init || t.gang then .illopnd
      else
        let s := setTw s c.w.node r { t with members := t.members + 1 }
        .done (s.setWave { c.wave s with troupe := some r, latch := false })

/-- R224. -/
def execLeave (f : Fields) (s : State) : Host.Outcome State Fault Refusal :=
  issue (.leave f) f s fun c s => match c.w.troupe with
    | none => .done s
    | some r => afterSpad c s <|
      if (getTw s c.w.node r).gang then .illopnd else .done (troupeLeave s (c.wave s))

/-- Arrives, enters state Barrier and applies the completion test (R225): the last member's own wait ends at once. -/
def arriveWait (c : Ctx) (s : State) (kind : Bool) : Act :=
  match c.w.troupe with
  | none => .done s
  | some r => afterSpad c s <| match troupeArrive s c.w.node r kind with
    | none => .illopnd
    | some (ph, s) =>
      let s := popAll s c.w c.m c.pops
      let w := c.wave s
      let s := s.setWave { retire w with pc := w.pc + 12, st := .barrier (.release ph) }
      .final (afterStep (troupeTest s c.w.node r) c.w.wid)

/-- R225. -/
def execBarr (f : Fields) (s : State) : Host.Outcome State Fault Refusal :=
  issue (.barr f) f s fun c s => arriveWait c s false

/-- R225: arrives and continues with the phase it arrived in. -/
def execBarw (f : Fields) (s : State) : Host.Outcome State Fault Refusal :=
  issue (.barw f) f s fun c s => match c.w.troupe with
    | none => .done (c.putScalar s 1 0)
    | some r => afterSpad c s <| match troupeArrive s c.w.node r false with
      | none => .illopnd
      | some (ph, s) => .done (c.putScalar (troupeTest s c.w.node r) 1 ph)

/-- R225. -/
def execBwait (f : Fields) (s : State) : Host.Outcome State Fault Refusal :=
  issue (.bwait f) f s fun c s => match c.w.troupe with
    | none => .done s
    | some r => afterSpad c s <|
      let a := c.va.scalar.toNat % 65536
      if (getTw s c.w.node r).phase != a then .done s else .rest s (.barrier (.phaseNot a))

/-- R226: state Barrier at the instruction until the count is zero, and then as `barr`. Deferred faults come first
(R296, R371). -/
def execDrain (f : Fields) (s : State) : Host.Outcome State Fault Refusal :=
  issue (.drain f) f s fun c s => withDelivery c s true true <|
    if c.w.outst == 0 then (if f.m 0 0 == 1 then .done s else arriveWait c s false)
    else .final (s.setWave { c.wave s with st := .barrier (.drain (f.m 0 0 == 0)), waitCtr := 0 })

/-- R228. -/
def execGbar (f : Fields) (s : State) : Host.Outcome State Fault Refusal :=
  issue (.gbar f) f s fun c s => if c.node.launch.gang then arriveWait c s true else .illopnd

end Sys2Proof.Machine
end

