-- ==== Sys2Proof/Machine/Dispatch.lean ====
section
/-! DEFINITION. One arm per instruction: the call of its meaning. -/

namespace Sys2Proof.Machine

/-- The meaning of every instruction. -/
def exec (i : Instr) (s : State) : Host.Outcome State Fault Refusal :=
  match i with
  | .nop f => Sys2Proof.Machine.execNop f s
  | .bra f => Sys2Proof.Machine.execBra f s
  | .brs f => Sys2Proof.Machine.execBrs f s
  | .brm f => Sys2Proof.Machine.execBrm f s
  | .call f => Sys2Proof.Machine.execCall f s
  | .ret f => Sys2Proof.Machine.execRet f s
  | .jmpi f => Sys2Proof.Machine.execJmpi f s
  | .loop f => Sys2Proof.Machine.execLoop f s
  | .yield f => Sys2Proof.Machine.execYield f s
  | .park f => Sys2Proof.Machine.execPark f s
  | .halt f => Sys2Proof.Machine.execHalt f s
  | .getid f => Sys2Proof.Machine.execGetid f s
  | .mand f => Sys2Proof.Machine.execMand f s
  | .mor f => Sys2Proof.Machine.execMor f s
  | .mxor f => Sys2Proof.Machine.execMxor f s
  | .mandn f => Sys2Proof.Machine.execMandn f s
  | .mnot f => Sys2Proof.Machine.execMnot f s
  | .mmov f => Sys2Proof.Machine.execMmov f s
  | .mpopc f => Sys2Proof.Machine.execMpopc f s
  | .mfirst f => Sys2Proof.Machine.execMfirst f s
  | .mlane f => Sys2Proof.Machine.execMlane f s
  | .vote f => Sys2Proof.Machine.execVote f s
  | .sadd f => Sys2Proof.Machine.execSadd f s
  | .ssub f => Sys2Proof.Machine.execSsub f s
  | .smul f => Sys2Proof.Machine.execSmul f s
  | .smulh f => Sys2Proof.Machine.execSmulh f s
  | .sdiv f => Sys2Proof.Machine.execSdiv f s
  | .srem f => Sys2Proof.Machine.execSrem f s
  | .sand f => Sys2Proof.Machine.execSand f s
  | .sor f => Sys2Proof.Machine.execSor f s
  | .sxor f => Sys2Proof.Machine.execSxor f s
  | .sshl f => Sys2Proof.Machine.execSshl f s
  | .sshr f => Sys2Proof.Machine.execSshr f s
  | .ssra f => Sys2Proof.Machine.execSsra f s
  | .smin f => Sys2Proof.Machine.execSmin f s
  | .smax f => Sys2Proof.Machine.execSmax f s
  | .scmp f => Sys2Proof.Machine.execScmp f s
  | .ssel f => Sys2Proof.Machine.execSsel f s
  | .sli f => Sys2Proof.Machine.execSli f s
  | .smov f => Sys2Proof.Machine.execSmov f s
  | .sbfe f => Sys2Proof.Machine.execSbfe f s
  | .sbfi f => Sys2Proof.Machine.execSbfi f s
  | .sclz f => Sys2Proof.Machine.execSclz f s
  | .spopc f => Sys2Proof.Machine.execSpopc f s
  | .saddx f => Sys2Proof.Machine.execSaddx f s
  | .vadd f => Sys2Proof.Machine.execVadd f s
  | .vsub f => Sys2Proof.Machine.execVsub f s
  | .vmul f => Sys2Proof.Machine.execVmul f s
  | .vmulh f => Sys2Proof.Machine.execVmulh f s
  | .vmad f => Sys2Proof.Machine.execVmad f s
  | .vand f => Sys2Proof.Machine.execVand f s
  | .vor f => Sys2Proof.Machine.execVor f s
  | .vxor f => Sys2Proof.Machine.execVxor f s
  | .vshl f => Sys2Proof.Machine.execVshl f s
  | .vshr f => Sys2Proof.Machine.execVshr f s
  | .vsra f => Sys2Proof.Machine.execVsra f s
  | .vmin f => Sys2Proof.Machine.execVmin f s
  | .vmax f => Sys2Proof.Machine.execVmax f s
  | .vabs f => Sys2Proof.Machine.execVabs f s
  | .vcmp f => Sys2Proof.Machine.execVcmp f s
  | .vsel f => Sys2Proof.Machine.execVsel f s
  | .vbfe f => Sys2Proof.Machine.execVbfe f s
  | .vbfi f => Sys2Proof.Machine.execVbfi f s
  | .vpopc f => Sys2Proof.Machine.execVpopc f s
  | .vclz f => Sys2Proof.Machine.execVclz f s
  | .vmov f => Sys2Proof.Machine.execVmov f s
  | .vbcast f => Sys2Proof.Machine.execVbcast f s
  | .vaddx f => Sys2Proof.Machine.execVaddx f s
  | .vshfl f => Sys2Proof.Machine.execVshfl f s
  | .vscan f => Sys2Proof.Machine.execVscan f s
  | .dadd f => Sys2Proof.Machine.execDadd f s
  | .dsub f => Sys2Proof.Machine.execDsub f s
  | .dmul f => Sys2Proof.Machine.execDmul f s
  | .dfma f => Sys2Proof.Machine.execDfma f s
  | .dmin f => Sys2Proof.Machine.execDmin f s
  | .dmax f => Sys2Proof.Machine.execDmax f s
  | .dcmp f => Sys2Proof.Machine.execDcmp f s
  | .dclass f => Sys2Proof.Machine.execDclass f s
  | .drcpe f => Sys2Proof.Machine.execDrcpe f s
  | .drsqe f => Sys2Proof.Machine.execDrsqe f s
  | .dldx f => Sys2Proof.Machine.execDldx f s
  | .dfrx f => Sys2Proof.Machine.execDfrx f s
  | .dred f => Sys2Proof.Machine.execDred f s
  | .fadd f => Sys2Proof.Machine.execFadd f s
  | .fsub f => Sys2Proof.Machine.execFsub f s
  | .fmul f => Sys2Proof.Machine.execFmul f s
  | .ffma f => Sys2Proof.Machine.execFfma f s
  | .fmin f => Sys2Proof.Machine.execFmin f s
  | .fmax f => Sys2Proof.Machine.execFmax f s
  | .fcmp f => Sys2Proof.Machine.execFcmp f s
  | .fclass f => Sys2Proof.Machine.execFclass f s
  | .frcp f => Sys2Proof.Machine.execFrcp f s
  | .frsq f => Sys2Proof.Machine.execFrsq f s
  | .fex2 f => Sys2Proof.Machine.execFex2 f s
  | .flg2 f => Sys2Proof.Machine.execFlg2 f s
  | .fsin f => Sys2Proof.Machine.execFsin f s
  | .fcos f => Sys2Proof.Machine.execFcos f s
  | .fdot2 f => Sys2Proof.Machine.execFdot2 f s
  | .fred f => Sys2Proof.Machine.execFred f s
  | .cvt f => Sys2Proof.Machine.execCvt f s
  | .cvs f => Sys2Proof.Machine.execCvs f s
  | .pkd8 f => Sys2Proof.Machine.execPkd8 f s
  | .upd8 f => Sys2Proof.Machine.execUpd8 f s
  | .pkt3 f => Sys2Proof.Machine.execPkt3 f s
  | .upt3 f => Sys2Proof.Machine.execUpt3 f s
  | .mxsc f => Sys2Proof.Machine.execMxsc f s
  | .pkf8 f => Sys2Proof.Machine.execPkf8 f s
  | .upf8 f => Sys2Proof.Machine.execUpf8 f s
  | .ld f => Sys2Proof.Machine.execLd f s
  | .lda f => Sys2Proof.Machine.execLda f s
  | .lds f => Sys2Proof.Machine.execLds f s
  | .prf f => Sys2Proof.Machine.execPrf f s
  | .astr f => Sys2Proof.Machine.execAstr f s
  | .aend f => Sys2Proof.Machine.execAend f s
  | .ldnt f => Sys2Proof.Machine.execLdnt f s
  | .st f => Sys2Proof.Machine.execSt f s
  | .stl f => Sys2Proof.Machine.execStl f s
  | .sts f => Sys2Proof.Machine.execSts f s
  | .astw f => Sys2Proof.Machine.execAstw f s
  | .stnt f => Sys2Proof.Machine.execStnt f s
  | .spl f => Sys2Proof.Machine.execSpl f s
  | .sps f => Sys2Proof.Machine.execSps f s
  | .spcl f => Sys2Proof.Machine.execSpcl f s
  | .spcs f => Sys2Proof.Machine.execSpcs f s
  | .spcp f => Sys2Proof.Machine.execSpcp f s
  | .atom f => Sys2Proof.Machine.execAtom f s
  | .acas f => Sys2Proof.Machine.execAcas f s
  | .atomf f => Sys2Proof.Machine.execAtomf f s
  | .red f => Sys2Proof.Machine.execRed f s
  | .redf f => Sys2Proof.Machine.execRedf f s
  | .redo f => Sys2Proof.Machine.execRedo f s
  | .bini f => Sys2Proof.Machine.execBini f s
  | .barr f => Sys2Proof.Machine.execBarr f s
  | .bwait f => Sys2Proof.Machine.execBwait f s
  | .barw f => Sys2Proof.Machine.execBarw f s
  | .join f => Sys2Proof.Machine.execJoin f s
  | .leave f => Sys2Proof.Machine.execLeave f s
  | .drain f => Sys2Proof.Machine.execDrain f s
  | .gbar f => Sys2Proof.Machine.execGbar f s
  | .fenceAcq f => Sys2Proof.Machine.execFenceAcq f s
  | .fenceRel f => Sys2Proof.Machine.execFenceRel f s
  | .lwait f => Sys2Proof.Machine.execLwait f s
  | .mcfg f => Sys2Proof.Machine.execMcfg f s
  | .mlds f => Sys2Proof.Machine.execMlds f s
  | .mswp f => Sys2Proof.Machine.execMswp f s
  | .mclr f => Sys2Proof.Machine.execMclr f s
  | .mstr f => Sys2Proof.Machine.execMstr f s
  | .mrd f => Sys2Proof.Machine.execMrd f s
  | .mst f => Sys2Proof.Machine.execMst f s
  | .mbnd f => Sys2Proof.Machine.execMbnd f s
  | .tnew f => Sys2Proof.Machine.execTnew f s
  | .tdep f => Sys2Proof.Machine.execTdep f s
  | .tsub f => Sys2Proof.Machine.execTsub f s
  | .talloc f => Sys2Proof.Machine.execTalloc f s
  | .tgrow f => Sys2Proof.Machine.execTgrow f s
  | .tabortNode f => Sys2Proof.Machine.execTabortNode f s
  | .tabortSelf f => Sys2Proof.Machine.execTabortSelf f s
  | .ecpy f => Sys2Proof.Machine.execEcpy f s
  | .egat f => Sys2Proof.Machine.execEgat f s
  | .edcp f => Sys2Proof.Machine.execEdcp f s
  | .efence f => Sys2Proof.Machine.execEfence f s
  | .ewait f => Sys2Proof.Machine.execEwait f s
  | .bkmodeAcq f => Sys2Proof.Machine.execBkmodeAcq f s
  | .bkmodeAll f => Sys2Proof.Machine.execBkmodeAll f s
  | .bkmodeOne f => Sys2Proof.Machine.execBkmodeOne f s
  | .bkmodeRel f => Sys2Proof.Machine.execBkmodeRel f s
  | .bkbc f => Sys2Proof.Machine.execBkbc f s
  | .bkmac f => Sys2Proof.Machine.execBkmac f s
  | .bkop f => Sys2Proof.Machine.execBkop f s
  | .bkrd f => Sys2Proof.Machine.execBkrd f s
  | .bkfnIn f => Sys2Proof.Machine.execBkfnIn f s
  | .bkfnOut f => Sys2Proof.Machine.execBkfnOut f s
  | .bred f => Sys2Proof.Machine.execBred f s
  | .bkst f => Sys2Proof.Machine.execBkst f s
  | .kbind f => Sys2Proof.Machine.execKbind f s
  | .trace f => Sys2Proof.Machine.execTrace f s
  | .tracec f => Sys2Proof.Machine.execTracec f s
  | .cgetLive f => Sys2Proof.Machine.execCgetLive f s
  | .cgetHit f => Sys2Proof.Machine.execCgetHit f s
  | .cend f => Sys2Proof.Machine.execCend f s
  | .tex f => Sys2Proof.Machine.execTex f s
  | .texn f => Sys2Proof.Machine.execTexn f s
  | .texg f => Sys2Proof.Machine.execTexg f s
  | .pemit f => Sys2Proof.Machine.execPemit f s
  | .pemitClose f => Sys2Proof.Machine.execPemitClose f s
  | .aemit f => Sys2Proof.Machine.execAemit f s
  | .vbrd f => Sys2Proof.Machine.execVbrd f s
  | .rpq f => Sys2Proof.Machine.execRpq f s
  | .ccdcDec f => Sys2Proof.Machine.execCcdcDec f s
  | .ccdcEnc f => Sys2Proof.Machine.execCcdcEnc f s
  | .ccfc f => Sys2Proof.Machine.execCcfc f s
  | .trap f => Sys2Proof.Machine.execTrap f s
  | .tret f => Sys2Proof.Machine.execTret f s
  | .srd f => Sys2Proof.Machine.execSrd f s
  | .swr f => Sys2Proof.Machine.execSwr f s
  | .brk f => Sys2Proof.Machine.execBrk f s
  | .ctime f => Sys2Proof.Machine.execCtime f s
  | .hprf f => Sys2Proof.Machine.execHprf f s
  | .hpri f => Sys2Proof.Machine.execHpri f s
  | .hbranch f => Sys2Proof.Machine.execHbranch f s
  | .hintNop w => Sys2Proof.Machine.execHintNop w s
  | .reservedWord w => Sys2Proof.Machine.execReservedWord w s
  | .kiteNld k => Sys2Proof.Machine.execKiteNld k s
  | .kiteNldRoot k => Sys2Proof.Machine.execKiteNldRoot k s
  | .kiteNldChild k => Sys2Proof.Machine.execKiteNldChild k s
  | .kiteBxi k => Sys2Proof.Machine.execKiteBxi k s
  | .kiteTxi k => Sys2Proof.Machine.execKiteTxi k s
  | .kitePush k => Sys2Proof.Machine.execKitePush k s
  | .kitePushTag k => Sys2Proof.Machine.execKitePushTag k s
  | .kitePop k => Sys2Proof.Machine.execKitePop k s
  | .kiteSrt k => Sys2Proof.Machine.execKiteSrt k s
  | .kiteCmp k => Sys2Proof.Machine.execKiteCmp k s
  | .kiteCmpImm k => Sys2Proof.Machine.execKiteCmpImm k s
  | .kiteBr k => Sys2Proof.Machine.execKiteBr k s
  | .kiteBrn k => Sys2Proof.Machine.execKiteBrn k s
  | .kiteJmp k => Sys2Proof.Machine.execKiteJmp k s
  | .kiteJmpReg k => Sys2Proof.Machine.execKiteJmpReg k s
  | .kiteHit k => Sys2Proof.Machine.execKiteHit k s
  | .kiteAcpt k => Sys2Proof.Machine.execKiteAcpt k s
  | .kiteCall k => Sys2Proof.Machine.execKiteCall k s
  | .kiteIxf k => Sys2Proof.Machine.execKiteIxf k s
  | .kiteItl k => Sys2Proof.Machine.execKiteItl k s
  | .kiteMov k => Sys2Proof.Machine.execKiteMov k s
  | .kiteMovImm k => Sys2Proof.Machine.execKiteMovImm k s
  | .kiteMovN k => Sys2Proof.Machine.execKiteMovN k s
  | .kiteMovT k => Sys2Proof.Machine.execKiteMovT k s
  | .kiteAdd k => Sys2Proof.Machine.execKiteAdd k s
  | .kiteAddImm k => Sys2Proof.Machine.execKiteAddImm k s
  | .kiteEnd k => Sys2Proof.Machine.execKiteEnd k s
  | .powerOn ecdsaOk lmsOk version fuses => Sys2Proof.Machine.execPowerOn ecdsaOk lmsOk version fuses s
  | .functionReset => Sys2Proof.Machine.execFunctionReset s
  | .create desc => Sys2Proof.Machine.execCreate desc s
  | .doorbell asid ring index => Sys2Proof.Machine.execDoorbell asid ring index s
  | .replyRelease asid seq => Sys2Proof.Machine.execReplyRelease asid seq s
  | .replyEnd asid seq => Sys2Proof.Machine.execReplyEnd asid seq s
  | .replyStep asid seq => Sys2Proof.Machine.execReplyStep asid seq s
  | .gen asid => Sys2Proof.Machine.execGen asid s
  | .generationRaiseComplete asid => Sys2Proof.Machine.execGenerationRaiseComplete asid s
  | .qctlResume asid queue index => Sys2Proof.Machine.execQctlResume asid queue index s
  | .qctlRerun asid queue => Sys2Proof.Machine.execQctlRerun asid queue s
  | .qctlSkip asid queue => Sys2Proof.Machine.execQctlSkip asid queue s
  | .ctxSave asid => Sys2Proof.Machine.execCtxSave asid s
  | .ctxRestore asid => Sys2Proof.Machine.execCtxRestore asid s
  | .ctxDestroy asid => Sys2Proof.Machine.execCtxDestroy asid s
  | .ctxSlice asid => Sys2Proof.Machine.execCtxSlice asid s
  | .ctxUnslice asid => Sys2Proof.Machine.execCtxUnslice asid s
  | .migrate asid block => Sys2Proof.Machine.execMigrate asid block s
  | .migrationComplete asid => Sys2Proof.Machine.execMigrationComplete asid s
  | .registerWrite bar offset value => Sys2Proof.Machine.execRegisterWrite bar offset value s
  | .hostWrite asid va bytes => Sys2Proof.Machine.execHostWrite asid va bytes s
  | .hostRead asid va len => Sys2Proof.Machine.execHostRead asid va len s
  | .hostAtomic asid va op size arg cmp => Sys2Proof.Machine.execHostAtomic asid va op size arg cmp s
  | .spdmRequest index => Sys2Proof.Machine.execSpdmRequest index s
  | .peerFlit port seq crcOk body => Sys2Proof.Machine.execPeerFlit port seq crcOk body s
  | .switchStepAbort port step => Sys2Proof.Machine.execSwitchStepAbort port step s
  | .linkLaneFailure port => Sys2Proof.Machine.execLinkLaneFailure port s
  | .channelFailure stack channel => Sys2Proof.Machine.execChannelFailure stack channel s
  | .channelTrafficResume stack group => Sys2Proof.Machine.execChannelTrafficResume stack group s
  | .rebuildComplete stack group => Sys2Proof.Machine.execRebuildComplete stack group s
  | .dataloss access => Sys2Proof.Machine.execDataloss access s
  | .coreMachineCheck core cause => Sys2Proof.Machine.execCoreMachineCheck core cause s
  | .bankParityError stack channel pch => Sys2Proof.Machine.execBankParityError stack channel pch s
  | .thermalThrottle => Sys2Proof.Machine.execThermalThrottle s
  | .thermalShutdown => Sys2Proof.Machine.execThermalShutdown s
  | .watchdogExpiry asid => Sys2Proof.Machine.execWatchdogExpiry asid s
  | .saveComplete asid => Sys2Proof.Machine.execSaveComplete asid s
  | .saveTimeout asid => Sys2Proof.Machine.execSaveTimeout asid s
  | .restoreComplete asid => Sys2Proof.Machine.execRestoreComplete asid s
  | .parkTimeout wave => Sys2Proof.Machine.execParkTimeout wave s
  | .waveOverdue wave => Sys2Proof.Machine.execWaveOverdue wave s
  | .l1LeaseExpiry core asid line => Sys2Proof.Machine.execL1LeaseExpiry core asid line s
  | .clusterLineIdle die asid line => Sys2Proof.Machine.execClusterLineIdle die asid line s
  | .redoOverflowMove slice => Sys2Proof.Machine.execRedoOverflowMove slice s
  | .nodePassedOver node => Sys2Proof.Machine.execNodePassedOver node s
  | .longLatencyResult group => Sys2Proof.Machine.execLongLatencyResult group s
  | .acknowledgement access => Sys2Proof.Machine.execAcknowledgement access s
  | .loadAtHome access => Sys2Proof.Machine.execLoadAtHome access s
  | .storeAtHome access => Sys2Proof.Machine.execStoreAtHome access s
  | .atomicAtPlace access => Sys2Proof.Machine.execAtomicAtPlace access s
  | .redoContribution access => Sys2Proof.Machine.execRedoContribution access s
  | .deferredAtomic access => Sys2Proof.Machine.execDeferredAtomic access s
  | .gangForwardArrival task die => Sys2Proof.Machine.execGangForwardArrival task die s
  | .gangReleaseMessage task die => Sys2Proof.Machine.execGangReleaseMessage task die s
  | .streamFetch stream => Sys2Proof.Machine.execStreamFetch stream s
  | .streamStore stream => Sys2Proof.Machine.execStreamStore stream s
  | .haltingEnd wave => Sys2Proof.Machine.execHaltingEnd wave s
  | .shadowBankSwap core quad => Sys2Proof.Machine.execShadowBankSwap core quad s
  | .spill wave => Sys2Proof.Machine.execSpill wave s
  | .shadowBankRearm core quad => Sys2Proof.Machine.execShadowBankRearm core quad s
  | .ringSlotRead asid ring => Sys2Proof.Machine.execRingSlotRead asid ring s
  | .nodeDispatch node => Sys2Proof.Machine.execNodeDispatch node s
  | .wavePlacement node => Sys2Proof.Machine.execWavePlacement node s
  | .holdCommit family => Sys2Proof.Machine.execHoldCommit family s
  | .taskRetirement asid queue => Sys2Proof.Machine.execTaskRetirement asid queue s
  | .engineEntryStart entry => Sys2Proof.Machine.execEngineEntryStart entry s
  | .engineEntryComplete entry => Sys2Proof.Machine.execEngineEntryComplete entry s
  | .planeLoadComplete core quad bank => Sys2Proof.Machine.execPlaneLoadComplete core quad bank s
  | .arrayContributionApply core quad bank => Sys2Proof.Machine.execArrayContributionApply core quad bank s
  | .bankCommandPerform command => Sys2Proof.Machine.execBankCommandPerform command s
  | .bredJobStart job => Sys2Proof.Machine.execBredJobStart job s
  | .bredJobComplete job => Sys2Proof.Machine.execBredJobComplete job s
  | .kiteRayTake core asid ray => Sys2Proof.Machine.execKiteRayTake core asid ray s
  | .raySuspend asid ray => Sys2Proof.Machine.execRaySuspend asid ray s
  | .contGroupClose asid owner cont => Sys2Proof.Machine.execContGroupClose asid owner cont s
  | .binAppend append => Sys2Proof.Machine.execBinAppend append s
  | .passCloseProcess asid desc => Sys2Proof.Machine.execPassCloseProcess asid desc s
  | .leaseClockTick => Sys2Proof.Machine.execLeaseClockTick s
  | .functionalUnitFree core quad unit => Sys2Proof.Machine.execFunctionalUnitFree core quad unit s
  | .arrayCommandStart core quad bank => Sys2Proof.Machine.execArrayCommandStart core quad bank s
  | .recoveryImageLoad ecdsaOk lmsOk version => Sys2Proof.Machine.execRecoveryImageLoad ecdsaOk lmsOk version s
  | .hostLinkTraining speed width => Sys2Proof.Machine.execHostLinkTraining speed width s

end Sys2Proof.Machine
end

