-- ==== Sys2Proof/Machine/Fetch.lean ====
section
/-! DEFINITION. Fetching an instruction's bytes (R25, R175) and the bytes that place an instruction for the next step. -/

namespace Sys2Proof.Machine

/-- What a fetch gives. -/
inductive Fetched where
  | word (w : BitVec 96) (s : State)
  | misaligned
  | fails (cause addr : Nat)

/-- A core's instruction lines with room for another: a full cache drops one (R10, log entry 2). -/
def roomI (s : State) (core : Nat) : State :=
  let ls := s.ilines.filter fun x => x.core == core
  if ls.length ≥ Config.l1iLines then
    match s.choose ls with
    | (some h, s) => { s with ilines := s.ilines.filter fun x => !(x.core == core && x.asid == h.asid && x.line == h.line) }
    | (none, s) => s
  else s

/-- The instruction line a core would use for an address: a current line of its L1, else the committed bytes at the home
under the checks of R171 with X (R170, R175); with the lines it then holds. -/
def fetchLine (s : State) (core asid va : Nat) : Except Nat (List Byte × State) :=
  let line := va / 128
  match s.ilines.find? fun x => x.core == core && x.asid == asid && x.line == line && x.gen == s.genOf asid
      && x.tr.x && !x.tr.g && !x.tr.uncached with
  | some x => .ok (s.copyData asid line x.tr x.data, s)
  | none => match s.laneCheck asid va 1 .fetch with
    | some cause => .error cause
    | none => match s.lookup asid va .fetch with
      | none => .error cNOTMAPPED
      | some t =>
        let base : Trans := { t with pa := t.pa / 128 * 128 }
        let s := s.leaveCluster (some (dieOf core)) asid va
        let data := (List.range 128).map fun i => s.committed asid (line * 128 + i) { base with pa := base.pa + i }
        let s := if s.ilines.any fun x => x.core == core && x.asid == asid && x.line == line then s else roomI s core
        let old := s.ilines.filter fun x => !(x.core == core && x.asid == asid && x.line == line)
        .ok (data, { s with ilines := { core := core, asid := asid, line := line, data := data, gen := s.genOf asid, tr := base } :: old })

/-- The 12 bytes at a wave's PC (R25). -/
def fetch (s : State) (w : Wave) : Fetched :=
  let pc := w.pc.toNat
  if pc % 4 != 0 then .misaligned
  else match fetchLine s w.core w.asid pc with
    | .error c => .fails c pc
    | .ok (d, s) =>
      let o := pc % 128
      if o + 12 ≤ 128 then .word (BitVec.ofNat 96 (leNat ((d.drop o).take 12))) s
      else match fetchLine s w.core w.asid (pc + 128 - o) with
        | .error c => .fails c (pc + 128 - o)
        | .ok (d2, s) => .word (BitVec.ofNat 96 (leNat (d.drop o ++ d2.take (o + 12 - 128)))) s

/-- A fetch that faults parks the wave at the instruction (R105, R172), with `exec` as its fault mask (log entry 22); lanes an earlier
replay left stay unfinished. -/
def fetchFault (s : State) (w : Wave) (cause addr : Nat) : State :=
  s.enterReplay w cause addr w.exec (match w.rp with | some r => r.todo | none => allLanes) (w.rp.bind (·.gid))

/-! ### Placing one instruction (`withFetchWord`) -/

/-- The frames of the placed context: a four-level table and one code page. -/
def placeRoot : Nat := 0x8000
def placeCode : Nat := 0x40000

/-- The page tables that map virtual page 0 to the code frame, writable and executable. -/
def placeTables (m : Memory) : Memory :=
  (((m.setBytes placeRoot (leBytes 8 (0x10000 + 1))).setBytes 0x10000 (leBytes 8 (0x18000 + 1))).setBytes 0x18000
    (leBytes 8 (0x20000 + 1))).setBytes 0x20000 (leBytes 8 (placeCode + 7))

/-- The lines of frames that the walk and the fetch read. -/
def placeFrames : List Nat := [placeRoot, 0x10000, 0x18000, 0x20000, placeCode].map (· / 128)

/-- The wave that fetches the placed instruction: 16 registers, PC 0. -/
def placedWave (s : State) : Wave :=
  { wid := s.nextId + 2, node := s.nextId, asid := 1, v := List.replicate 16 ⟨true, List.replicate 32 0⟩ }

/-- A state in which the next step fetches and runs the 12 bytes given, as the first instruction of a fresh task of
context 1 on core 0, quadrant a. -/
def placeWord (s : State) (bs : List Byte) : State :=
  let c : Context := { asid := 1, root := placeRoot }
  let n : Node := { nid := s.nextId, asid := 1, index := some 0, stage := .running, fam := some (s.nextId + 1), placed := 1
                    launch := { count := 32 } }
  { s with
    turns := [.issue 0 0]
    mem := (placeTables s.mem).setBytes placeCode bs
    ctxs := c :: s.ctxs.filter fun x => x.asid != 1
    homes := s.homes.filter fun x => x.asid != 1 && !placeFrames.contains (x.tr.pa / 128)
    names := s.names.filter fun k => !placeFrames.contains k.1
    parkedPuts := []
    ilines := s.ilines.filter fun x => x.asid != 1
    tlb := s.tlb.filter fun x => x.asid != 1
    nodes := n :: s.nodes
    fams := { fid := s.nextId + 1, owner := s.nextId, asid := 1, st := .direct } :: s.fams
    quads := s.quads.filter fun q => !(q.core == 0 && q.quad == 0)
    waves := placedWave s :: s.waves.filter fun w => !(w.core == 0 && w.quad == 0)
    nextId := s.nextId + 3
    plat := { s.plat with stopped := false, groups := [], work0 := 0, work1 := 0, parityRow := 14, reserveRow := 15 } }

/-- A state in which the next step fetches and runs the 8 bytes given, as the first microinstruction of a ray of
context 1 that the Kite of core 0 holds; its program is that one word. -/
def placeKite (s : State) (bs : List Byte) : State :=
  let t := placeWord s bs
  { t with
    turns := [.kite t.nextId]
    bindings := { asid := 1, slot := 0, prog := 0, root := 0, plen := 1
                  lay := { nodeSize := 64, boxFmt := 1, nBox := 1, boxOff := 0, frameOff := 0, childEnc := 1, childOff := 24
                           cScale := 1, leafFmt := 1, nLeaf := 0, leafOff := 0, instSize := 64, xformOff := 0, rootOff := 0
                           indexOff := 0 } } :: s.bindings.filter fun b => !(b.asid == 1 && b.slot == 0)
    rays := { rid := t.nextId, asid := 1, num := 0, owner := s.nextId, slot := 0, die := 0, place := .kite 0
              origin := [0, 0, 0], tmin := 0, dir := [0, 0, 0], tmax := 0, node := 0, hitT := 0, cont := 0, laneIdx := 0
              mask := 1, live := [] } :: s.rays.filter fun r => r.asid != 1
    nextId := t.nextId + 1 }

end Sys2Proof.Machine
end

