-- ==== Sys2Proof/Machine/Select.lean ====
section
/-! DEFINITION. The issue selector of a quadrant (R95 to R97), an issue cycle, and what a turn of the schedule does. -/

namespace Sys2Proof.Machine

/-- Fetches a wave's next instruction and executes it. -/
def runWave (s : State) (w : Wave) : Host.Outcome State Fault Refusal :=
  match fetch s w with
  | .misaligned => .next (s.takeTrap w (s.waveRec w kILLINST 0 0 0 0 0) w.pc)
  | .fails cause addr => .next (fetchFault s w cause addr)
  | .word b s => exec (decodeWord b) { s with cur := some w.wid }

/-- A state in which a wave waits at its instruction: Blocked (R93), or Barrier at a `drain` (R226). -/
def WSt.held : WSt → Bool
  | .blocked | .barrier (.drain _) => true
  | _ => false

/-! ### Datapath units (R95, R117, R136) -/

/-- The datapath unit of a quadrant that an instruction issues to, with its fields: 0 the divider of `sdiv` and `srem`, 1 the vector
integer unit, 2 the vector floating-point unit of both formats, 3 the function unit of estimates and functions of one operand, and 4
the conversion unit (R117, R136). -/
def datapath (i : Instr) : Option (Fields × Nat) :=
  match opOf i with
  | some (cls, op, f) =>
    if cls == 2 then (if op == 4 || op == 5 then some (f, 0) else none)
    else if cls == 3 then some (f, 1)
    else if cls == 4 then some (f, if op == 8 || op == 9 then 3 else 2)
    else if cls == 5 then some (f, if 8 ≤ op && op ≤ 13 then 3 else 2)
    else if cls == 6 then some (f, 4)
    else none
  | none => none

/-- Cycles for which an issue occupies its datapath unit (R117, R136): 32 for a division, 4 for an estimate or a function of one
operand, 2 for a scan or a reduction and for word pairs. -/
def occupancy (i : Instr) (sh : Shape) : Nat :=
  let wide (p : OW → Bool) : Bool := [sh.d, sh.a, sh.b, sh.c].any fun u => match u with | some u => p u.w | none => false
  match opOf i with
  | some (cls, op, _) =>
    if cls == 2 then 32
    else if cls == 3 then (if op == 24 || wide (fun w => w == .pair) then 2 else 1)
    else if cls == 4 then (if op == 8 || op == 9 then 4 else if op == 12 then 2 else 1)
    else if cls == 5 then (if 8 ≤ op && op ≤ 13 then 4 else if op == 15 then 2 else 1)
    else (if op == 6 || wide (fun w => w == .pair || w.count == 4) then 2 else 1)
  | none => 1

/-- The name of a quadrant's datapath unit. -/
def unitData (core quad u : Nat) : Nat := 20000 + 8 * (core * 4 + quad) + u

/-- The datapath unit that a wave's next instruction takes when it issues now, and for how long. -/
def unitNeed (s : State) (w : Wave) : Option (Nat × Nat) :=
  if stepDue w || (pcMatch s w).isSome then none
  else match fetch s w with
    | .word b _ => match datapath (decodeWord b) with
      | some (f, u) => match prepare (decodeWord b) f w s with
        | .go c => some (unitData w.core w.quad u, occupancy (decodeWord b) c.sh)
        | _ => none
      | none => none
    | _ => none

/-- Whether a wave has to wait for a unit: it is busy, or held for another wave (R95). -/
def unitHeld (s : State) (u wid : Nat) : Bool := unitBusy s u || !unitTurn s u wid

/-- A wave's issue takes the datapath unit that it needs, and its place in the unit's order is free. -/
def takeUnit (s : State) (w : Wave) : State :=
  match unitNeed s w with
  | some (u, n) =>
    let s := unitLeave s u w.wid
    { s with units := if n > 1 then { unit := u, until_ := s.cc + n } :: s.units.filter fun x => x.unit != u else s.units }
  | none => s

/-! ### The selector -/

/-- The resident waves of a quadrant that may be Ready: none of a context that is being saved or is not running, and none whose
task has ended. -/
def candidates (s : State) (core quad : Nat) : List Wave :=
  if s.plat.stopped then []
  else s.waves.filter fun w => w.core == core && w.quad == quad && w.bank == activeBank s core quad
    && (w.st == .ready || w.st.held) && decide (w.startAt ≤ s.ns) && w.pending.isNone && !w.spilled
    && !w.held && !w.ending && (match s.ctx? w.asid with | some c => c.wd == .armed && !c.restoring | none => false)

/-- Marks a candidate Ready or Blocked; a wave Blocked on a unit keeps its place in the unit's order (R95), and one whose next
instruction ends in an unresolved trap is Ready to take it. -/
def markReady (s : State) (w : Wave) : State :=
  match (unitNeed s w).filter fun x => unitHeld s x.1 w.wid with
  | some x => (unitWait s x.1 w.wid).setWave { w with st := .blocked, waitCtr := 0 }
  | none => match runWave s w with
  | .next t => match t.wave? w.wid with
    | some v => if v.st.held && v.pending.isNone && !v.held && !v.ending then ({ s with unitQ := t.unitQ }).setWave { w with st := v.st, waitCtr := 0, bndFrom := v.bndFrom }
                else s.setWave { w with st := .ready }
    | none => s.setWave { w with st := .ready }
  | _ => s.setWave { w with st := .ready }

/-- The priority of a wave's task. -/
def prioOf (s : State) (w : Wave) : Nat := (s.nodeOf w).launch.prio

/-- The order of selection among Ready waves: a is chosen before b (R95). -/
def before (s : State) (a b : Wave) : Bool :=
  let key (w : Wave) : List Nat :=
    [if w.waitCtr ≥ Config.overdue then 0 else 1,
     if w.waitCtr ≥ Config.overdue then 0 else 3 - prioOf s w,
     if w.waitCtr ≥ Config.overdue then 0 else if w.hpri > 0 then 0 else 1,
     w.age, w.ageSub, w.idx, w.slot]
  decide (key a < key b)

/-- The wave the selector chooses. -/
def selectWave (s : State) (core quad : Nat) : Option Wave :=
  ((candidates s core quad).filter fun w => w.st == .ready).foldl (fun best w => match best with
    | none => some w
    | some b => if before s w b then some w else some b) none

/-- Every other Ready wave of the quadrant waits one cycle more (R95). -/
def countWaits (s : State) (core quad wid : Nat) : State :=
  let ids := ((candidates s core quad).filter fun w => w.st == .ready && w.wid != wid).map (·.wid)
  { s with waves := modify (fun w => ids.contains w.wid) (fun w => { w with waitCtr := w.waitCtr + 1 }) s.waves }

/-- One issue cycle of a quadrant. -/
def issueCycle (s : State) (core quad : Nat) : Host.Outcome State Fault Refusal :=
  let s := (candidates s core quad).foldl markReady s
  match selectWave s core quad with
  | none => .next s
  | some w =>
    let s := takeUnit (countWaits s core quad w.wid) w
    let w := { w with startAt := 0 }
    runWave (s.setWave w) w

/-- A turn of a ray in a core's Kite: its next word is fetched and performed (R387, R388); a word that holds no
microinstruction ends the ray with ILLEGAL (R392). -/
def kiteTurn (s : State) (rid : Nat) : Host.Outcome State Fault Refusal :=
  match s.ray? rid with
  | none => .next s
  | some r => match r.place with
    | .kite core =>
      if s.plat.stopped || !ctxRuns s r.asid || s.anyParked || s.deadCores.contains core then .next s
      else match kiteFetch s r with
        | .ended t => .next t
        | .word w t => match decodeKiteWord w with
          | .ok i => exec i { t with curRay := some rid }
          | .error _ => .next (match t.ray? rid with | some r => endRay t r 4 | none => t)
    | _ => .next s

/-- What happens next to an access in flight. -/
def runAccess (s : State) (id : Nat) : Host.Outcome State Fault Refusal :=
  match s.acc? id with
  | none => .next s
  | some a => match a.st with
    | .performed => execAcknowledgement id s
    | .deferred => execDeferredAtomic id s
    | .issued => match a.kind with
      | .load _ _ _ => execLoadAtHome id s
      | .redo _ => execRedoContribution id s
      | .atom _ _ _ => execAtomicAtPlace id s
      | .cas => execAtomicAtPlace id s
      | .atomf _ _ _ => execAtomicAtPlace id s
      | .talloc _ => execAtomicAtPlace id s
      | .host _ => execAtomicAtPlace id s
      | .store _ => execStoreAtHome id s
      | .copy _ => execStoreAtHome id s
      | .line _ _ => execStoreAtHome id s
      | .tile _ _ _ => execStoreAtHome id s

/-- A piece of work is the event it stands for. -/
def runWork (w : Work) (s : State) : Host.Outcome State Fault Refusal :=
  match w with
  | .access id => runAccess s id
  | .stream sid => match s.stream? sid with
    | some t => if t.write then execStreamStore sid s else execStreamFetch sid s
    | none => .next s
  | .gang release node die => if release then execGangReleaseMessage node die s else execGangForwardArrival node die s
  | .landing gid => execLongLatencyResult gid s
  | .arrayStart core quad bank => execArrayCommandStart core quad bank s
  | .arrayPlane core quad bank => execPlaneLoadComplete core quad bank s
  | .arrayApply core quad bank => execArrayContributionApply core quad bank s
  | .bankCmd cid => execBankCommandPerform cid s
  | .jobStart jid => execBredJobStart jid s
  | .jobEnd jid => execBredJobComplete jid s
  | .entryStart eid => execEngineEntryStart eid s
  | .entryEnd eid => execEngineEntryComplete eid s
  | .unitFree core quad unit => execFunctionalUnitFree core quad unit s
  | .park wid => execParkTimeout wid s
  | .halting wid => execHaltingEnd wid s
  | .spill wid => execSpill wid s
  | .redoMove slice => execRedoOverflowMove slice s
  | .clusterIdle die asid line => execClusterLineIdle die asid line s
  | .lease core asid line => execL1LeaseExpiry core asid line s
  | .rayTake core asid num => execKiteRayTake core asid num s
  | .raySuspend asid num => execRaySuspend asid num s
  | .contClose asid owner cont => execContGroupClose asid owner cont s
  | .append id => execBinAppend id s
  | .passClose asid desc => execPassCloseProcess asid desc s
  | .swap core quad => execShadowBankSwap core quad s
  | .rearm core quad => execShadowBankRearm core quad s
  | .passedOver nid => execNodePassedOver nid s
  | .dispatch nid => execNodeDispatch nid s
  | .place nid => execWavePlacement nid s
  | .hold fid => execHoldCommit fid s
  | .ringRead asid ring => execRingSlotRead asid ring s
  | .retire asid queue => execTaskRetirement asid queue s
  | .genDone asid => execGenerationRaiseComplete asid s
  | .migDone asid => execMigrationComplete asid s
  | .saveDone asid => execSaveComplete asid s
  | .saveLate asid => execSaveTimeout asid s
  | .restoreDone asid => execRestoreComplete asid s
  | .watchdog asid => execWatchdogExpiry asid s

/-- One turn of the schedule. -/
def runTurn (t : Turn) (s : State) : Host.Outcome State Fault Refusal :=
  match t with
  | .issue core quad => issueCycle s core quad
  | .kite rid => kiteTurn s rid
  | .event i => exec i s
  | .work w => runWork w s
  | .tick => execLeaseClockTick s

/-! ### What the part does when the schedule names nothing (log entry 3) -/

/-- The work for memory accesses, results, streams, units and waves. -/
def unitWork (s : State) : List Work :=
  List.flatten [
    (s.accs.map fun a => .access a.id),
    (s.lands.map fun l => .landing l.gid),
    (s.streams.map fun t => .stream t.sid),
    (s.arrays.flatMap fun a => [.arrayStart a.core a.quad a.bank, .arrayPlane a.core a.quad a.bank,
        .arrayApply a.core a.quad a.bank]),
    (s.bcmds.map fun c => .bankCmd c.cid),
    (s.jobs.flatMap fun j => [.jobStart j.jid, .jobEnd j.jid]),
    (s.entries.flatMap fun e => [.entryStart e.eid, .entryEnd e.eid]),
    (s.gangMsgs.map fun m => .gang m.release m.node m.die),
    (s.unitQ.flatMap fun u => match s.wave? u.wid with | some w => [.unitFree w.core w.quad u.unit] | none => []),
    (s.waves.flatMap fun w => [.park w.wid, .halting w.wid, .spill w.wid]),
    (s.redos.map fun e => .redoMove (redoSlice s e.asid e.addr)).eraseDups,
    (s.clusters.map fun k => .clusterIdle k.die k.asid k.line),
    (s.l1.map fun l => .lease l.core l.asid l.line)]

/-- The work for rays and passes. -/
def rayWork (s : State) : List Work :=
  List.flatten [
    (s.rays.flatMap fun r => match r.place with
      | .queued => (List.range Config.cores).map fun c => .rayTake c r.asid r.num
      | .kite _ => [.raySuspend r.asid r.num]
      | .ended => [.contClose r.asid r.owner r.cont]
      | .faulted | .inWave _ => []),
    (s.appends.map fun x => .append x.id),
    (s.passes.map fun p => .passClose p.asid p.desc)]

/-- The quadrants that hold waves. -/
def usedQuads (s : State) : List (Nat × Nat) := (s.waves.map fun w => (w.core, w.quad)).eraseDups

/-- The work of the Puppeteer and for contexts. -/
def taskWork (s : State) : List Work :=
  List.flatten [
    ((usedQuads s).map fun (c, q) => .swap c q),
    (s.quads.map fun q => .rearm q.core q.quad),
    (s.nodes.flatMap fun n => match n.stage with
      | .ready => [.passedOver n.nid, .dispatch n.nid]
      | .running => [.place n.nid]
      | .unsubmitted | .waiting | .complete | .stopped => []),
    (s.fams.flatMap fun f => if f.st == .hold then [.hold f.fid] else []),
    (s.ctxs.flatMap fun c =>
      ((List.range c.rings.length).map fun i => .ringRead c.asid i)
      ++ ((List.range 64).map fun q => .retire c.asid q)
      ++ [.genDone c.asid, .migDone c.asid, .saveDone c.asid, .saveLate c.asid, .restoreDone c.asid, .watchdog c.asid])]

/-- A round of turns: all work the part may do by itself, a word of each ray in a Kite, an issue cycle of each quadrant
with waves, and one tick of the lease clock. Work whose conditions do not hold changes nothing. -/
def idleRound (s : State) : List Turn :=
  (unitWork s ++ rayWork s ++ taskWork s).map Turn.work
  ++ (s.rays.flatMap fun r => match r.place with | .kite _ => [Turn.kite r.rid] | _ => [])
  ++ (usedQuads s).map (fun (c, q) => Turn.issue c q)
  ++ [.tick]

/-- The next turn and the schedule after it: a schedule that is empty goes on with a round of the part's own work. -/
def nextTurn (s : State) : Turn × List Turn :=
  match s.turns with
  | t :: ts => (t, ts)
  | [] => match idleRound s with
    | t :: ts => (t, ts)
    | [] => (.tick, [])

end Sys2Proof.Machine
end

