-- ==== Sys2Proof/Machine/Step.lean ====
section
/-! DEFINITION. One step of the machine: the next turn of its schedule, or the turn an idle machine takes. -/

namespace Sys2Proof.Machine

/-- One step (log entry 3). -/
def step (s : State) : Host.Outcome State Fault Refusal := runTurn (nextTurn s).1 { s with turns := (nextTurn s).2 }

/-- A state whose next step fetches and runs the instruction with the bits given: a Kite word where the bits are 64 of
them, a wave instruction otherwise (log entry 6). -/
def State.withFetchWord (s : State) (nbits w : Nat) : State :=
  if nbits == 64 then placeKite s (leBytes 8 w) else placeWord s (leBytes 12 w)

end Sys2Proof.Machine
end

