-- ==== Sys2Proof/Safety.lean ====
section
/-! DEFINITION. What a safe run is: no step stops with a fault or a refusal; and the words in which the claims are stated:
an instruction that is ready, and what its execution answers. -/

namespace Sys2Proof.Machine

/-- A step that answers a next state. -/
def StepSafe (s : State) : Prop := ∃ t, step s = .next t

/-- The states that steps reach from a state. -/
inductive Reach : State → State → Prop where
  | refl (s : State) : Reach s s
  | tail {s t u : State} : Reach s t → step t = .next u → Reach s u

/-- A run is safe when every state it reaches has a next state. -/
def RunSafe (s : State) : Prop := ∀ t, Reach s t → StepSafe t

end Sys2Proof.Machine

namespace Sys2Proof.Claims

open Sys2Proof.Machine

/-- The state in which the selected wave's instruction runs: the selection has been used. -/
def start (s : State) : State := { s with cur := none }

/-- The operands and the mask of instruction i with fields f for the selected wave, where it passes every check of R45 and
no debug stop comes before it (R437, R438); none where a check fails, an operand is not ready or its guard holds it back. -/
def ready (i : Instr) (f : Fields) (s : State) : Option Ctx :=
  match s.cur.bind s.wave? with
  | none => none
  | some w =>
    if stepDue w || (pcMatch (start s) w).isSome then none
    else match prepare i f w (start s) with
      | .go c => some c
      | _ => none

/-- The state after an instruction with an effect: the wave goes on at PC + 12. -/
def ends (c : Ctx) (t : State) : State := finish c t (.done t)

/-- Instruction i, when it is ready and a condition holds, has an effect and its wave goes on at PC + 12. -/
def Completes (i : Fields → Instr) (cond : Ctx → State → Prop) (eff : Ctx → State → State) : Prop :=
  ∀ f s c, ready (i f) f s = some c → cond c (start s) → exec (i f) s = .next (ends c (eff c (start s)))

/-- As `Completes`, and the wave goes on at an address. -/
def Jumps (i : Fields → Instr) (cond : Ctx → State → Prop) (eff : Ctx → State → State) (pc : Ctx → Word64) : Prop :=
  ∀ f s c, ready (i f) f s = some c → cond c (start s) →
    exec (i f) s = .next (finish c (start s) (.jump (eff c (start s)) (pc c)))

/-- As `Completes`, and the wave enters a scheduling state at PC + 12. -/
def Rests (i : Fields → Instr) (cond : Ctx → State → Prop) (st : Ctx → State → WSt) : Prop :=
  ∀ f s c, ready (i f) f s = some c → cond c (start s) →
    exec (i f) s = .next (finish c (start s) (.rest (start s) (st c (start s))))

/-- Instruction i, when it is ready and a condition holds, takes a precise trap. -/
def Traps (i : Fields → Instr) (cond : Ctx → State → Prop) (code : Nat) : Prop :=
  ∀ f s c, ready (i f) f s = some c → cond c (start s) →
    exec (i f) s = .next (finish c (start s) (.trap code 0 0 0 0 0))

/-- Instruction i, when it is ready and a condition holds, leaves its wave Blocked at the instruction and changes nothing
else. -/
def Blocks (i : Fields → Instr) (cond : Ctx → State → Prop) : Prop :=
  ∀ f s c, ready (i f) f s = some c → cond c (start s) →
    exec (i f) s = .next ((start s).setWave { c.w with st := .blocked, waitCtr := 0 })

/-- No condition. -/
abbrev always (_c : Ctx) (_s : State) : Prop := True

/-- The wave writes a scalar destination of n words. -/
def Scalar (i : Fields → Instr) (n : Fields → Nat) (v : Ctx → Nat) : Prop :=
  Completes i always fun c s => c.putScalar s (n c.f) (v c)

/-- Every active lane writes n words of D. -/
def Vector (i : Fields → Instr) (n : Fields → Nat) (v : Ctx → Nat → Nat) : Prop :=
  Completes i always fun c s => c.putVec s (n c.f) c.m (v c)

/-- Every active lane writes n words of D, and the flags of those lanes enter `fpflags`. -/
def Flagged (i : Fields → Instr) (n : Fields → Nat) (g : Ctx → Nat → Nat × Flags) : Prop :=
  Completes i always fun c s => c.putFlagged s (n c.f) (g c)

def one (_f : Fields) : Nat := 1
def two (_f : Fields) : Nat := 2

/-- The value of a system register is read (R429). -/
def Reads (n : Nat) (v : Ctx → Word) : Prop :=
  Completes .srd (fun c _ => c.f.e 9 0 = n) fun c s => c.putScalar s 1 (v c).toNat

/-- No data comparator matches, and every active lane passes its checks of R171. -/
abbrev Clear (c : Ctx) (s : State) (size : Nat) (k : Want) (addr : Nat → Nat) : Prop :=
  dataMatch s c (!k.writes || k != .write) k.writes size addr = none ∧ (laneFaults s c.w.asid c.m size k addr).1 = 0

/-- The state after a vector load has issued its lanes for n words of registers from r on (R38, R178, R179). -/
def loaded (c : Ctx) (s : State) (kind : AccKind) (hits : Bool) (scope : Nat) (r : Nat) : State :=
  let g := groupOf s c.w
  let t := issueLoads g.2 c g.1 c.m (tyF c.f) kind hits scope (memAddr c (tyF c.f))
  openLanding t.1 c.w g.1 (.vec r (tyWords (tyF c.f))) true false t.2

/-- The state after a vector store has issued its lanes (R183, R226). -/
def stored (c : Ctx) (s : State) (release : Bool) (scope : Nat) : State :=
  let g := groupOf s c.w
  addOutst (issueStores g.2 c g.1 c.m (tyF c.f) release scope (memAddr c (tyF c.f))) c.w.wid (maskCount c.m)

/-- No data comparator matches, and every active lane passes the checks of a load, which a copy of its core's L1 may spare it. -/
abbrev LoadClear (c : Ctx) (s : State) (size : Nat) (hits : Bool) (addr : Nat → Nat) : Prop :=
  dataMatch s c true false size addr = none ∧ (lanesFailing c.m addr fun l => loadCause s c.w hits (addr l) size).1 = 0

/-- A vector load whose lanes are clear issues them all. -/
def Loads (i : Fields → Instr) (kind : AccKind) (hits : Bool) (scope : Ctx → Nat) : Prop :=
  ∀ r, Completes i (fun c s => c.d = some (.v r) ∧ LoadClear c s (tySize (tyF c.f)) hits (memAddr c (tyF c.f)))
    fun c s => loaded c s kind hits (scope c) r

/-- A vector store whose lanes are clear issues them all, where the wave's outstanding count has room. -/
def Stores (i : Fields → Instr) (release : Bool) (scope : Ctx → Nat) : Prop :=
  Completes i (fun c s => Clear c s (tySize (tyF c.f)) .write (memAddr c (tyF c.f)) ∧ outstFull c.w (maskCount c.m) = false)
    fun c s => stored c s release (scope c)

/-- The lanes of a scratchpad instruction that are out of range enter the range mask; the others are issued in a group of
their own (R196, R199). -/
def padded (c : Ctx) (s : State) (good : Word) (loc : Bool) (size : Nat) (kind : Nat → AccKind) (data : Nat → Nat)
    (addr : Nat → Nat) : Nat × State :=
  let u := (noteRange s c.w.wid (c.m &&& ~~~good)).fresh
  (u.1, issueSpad u.2 c u.1 good loc size kind data addr)

/-- A scratchpad load issues the lanes in range. -/
def PadLoads (i : Fields → Instr) (loc : Bool) : Prop :=
  ∀ r, Completes i (fun c _ => c.d = some (.v r)) fun c s =>
    let u := padded c s (spLanes s c loc (tySize (tyF c.f)) (spAddr c)) loc (tySize (tyF c.f)) (fun _ => .load false false false)
      (fun _ => tyF c.f) (spAddr c)
    openLanding u.2 c.w u.1 (.vec r (tyWords (tyF c.f))) true false []

/-- A scratchpad store issues the lanes in range. -/
def PadStores (i : Fields → Instr) (loc : Bool) : Prop :=
  Completes i (fun c s => outstFull c.w (maskCount (spLanes s c loc (tySize (tyF c.f)) (spAddr c))) = false) fun c s =>
    let good := spLanes s c loc (tySize (tyF c.f)) (spAddr c)
    addOutst (padded c s good loc (tySize (tyF c.f)) (fun _ => .store false) (storeData c (tyF c.f)) (spAddr c)).2 c.w.wid (maskCount good)

/-- The lanes of an atomic that are performed: all, or those in range of a scratchpad (R199, R211). -/
def atomMask (c : Ctx) (s : State) (wide : Bool) (addr : Nat → Nat) : Word :=
  if c.f.m 5 3 == 1 then spLanes s c (c.f.m 0 0 == 1) (atomSize wide) addr else c.m

/-- What an atomic needs to issue: no determinism trap, clear lanes, and room in the outstanding count (R206, R211, R213). -/
abbrev atomClear (c : Ctx) (s : State) (wide redo : Bool) (addr : Nat → Nat) : Prop :=
  (c.f.m 5 3 = 1 ∨ redo = true ∨ c.det = false)
    ∧ (c.f.m 5 3 = 1 ∨ Clear c s (atomSize wide) (.atomic (c.f.m 5 3 == 4)) addr)
    ∧ outstFull c.w (maskCount (atomMask c s wide addr)) = false

/-- The state after an atomic has issued its lanes; one with a result opens a landing for its registers (R38, R206). -/
def atomed (c : Ctx) (s : State) (kind : AccKind) (wide ret : Bool) (addr : Nat → Nat) : State :=
  let good := atomMask c s wide addr
  let g := groupOf (if c.f.m 5 3 == 1 then noteRange s c.w.wid (c.m &&& ~~~good) else s) c.w
  let u := addOutst (issueAtoms g.2 c g.1 good kind wide addr) c.w.wid (maskCount good)
  match ret, c.d with
  | true, some (.v r) => openLanding u c.w g.1 (.vec r (if wide then 2 else 1)) true false []
  | _, _ => u

/-- An atomic whose lanes are clear issues them. -/
def Atomics (i : Fields → Instr) (kind : Ctx → AccKind) (wide : Ctx → Bool) (ret redo : Bool) (off : Ctx → Int) : Prop :=
  Completes i (fun c s => atomClear c s (wide c) redo (atomAddr c (off c)))
    fun c s => atomed c s (kind c) (wide c) ret (atomAddr c (off c))

/-- No deferred fault of the wave is undelivered, and no release of one has still work to do. -/
abbrev NoDeferred (c : Ctx) (s : State) : Prop :=
  arrayAgain s c.w.wid = false ∧ arrayFault s c.w.wid = none ∧ bankFault s c.w.wid = none

/-- Elements of a float operand's word pair or word, as values (R143). -/
def fpIn (dbl : Bool) (c : Ctx) (v : SrcVal) (l e : Nat) : FV :=
  (fpOf dbl (fmtF c.f)).readIn (ftzF c.f) (elemAt (fpOf dbl (fmtF c.f)) (v.n dbl l) e)

/-- The result and flags of a lane whose elements are each an exact value rounded once in a mode (R143). -/
def fpLane (dbl : Bool) (g : Nat → FV → FV → FV → FV × Flags) (c : Ctx) (l : Nat) : Nat × Flags :=
  let p := fpOf dbl (fmtF c.f)
  let mode := modeOf c.w (rmF c.f)
  packElems p (elemsOf dbl (fmtF c.f)) fun e =>
    let x := g mode (fpIn dbl c c.va l e) (fpIn dbl c c.vb l e) (fpIn dbl c c.vc l e)
    let r := p.round mode (ftzF c.f) x.1
    (r.1, x.2 ||| r.2)

/-- A float operation with one exact value per element. -/
def Float (dbl : Bool) (i : Fields → Instr) (g : Nat → FV → FV → FV → FV × Flags) : Prop :=
  Flagged i (if dbl then two else one) (fpLane dbl g)

/-- A command at the end of an array's queue; the store items of an `mst` take names of their own (R255). -/
def queued (c : Ctx) (s : State) (a : ArrayBank) (cfg : Nat) (op : ArrOp) (extra : Nat := 0) : State :=
  ({ s with nextId := s.nextId + 1 + extra } : State).setArray
    { a with queue := a.queue ++ [{ id := s.nextId, wid := c.w.wid, pc := c.w.pc, cfg := cfg, op := op }] }

/-- The wave's task holds the array of its quadrant and bank, the queue has room, and no deferred fault is undelivered. -/
abbrev Holds (c : Ctx) (s : State) (a : ArrayBank) : Prop := NoDeferred c s ∧ ownArray s c.w = some a ∧ a.queue.length < 8

/-- As `Holds`, under a configuration. -/
abbrev Configured (c : Ctx) (s : State) (a : ArrayBank) (k : Nat) : Prop := Holds c s a ∧ viewCfg a = some k

/-- The checks of `mstr` on the tag, the rows, the accumulators and their openers (R270, R282, R288). -/
abbrev Streams (c : Ctx) (a : ArrayBank) (k : Nat) : Prop :=
  tagOk a (arrCfg k) = true ∧ 1 ≤ c.vb.scalar.toNat ∧ c.vb.scalar.toNat ≤ 128
    ∧ accsOk a (arrCfg k) c.vd.scalar.toNat c.vb.scalar.toNat (c.f.e 12 0) 128 = true
    ∧ (c.det = false ∨ openerClash a (arrCfg k) c.w.wid c.vd.scalar.toNat c.vb.scalar.toNat (c.f.e 12 0) = false)

/-- A landing group whose values another unit brings is not ready when it is opened (R38). -/
def pendingLand (s : State) (gid : Nat) : State :=
  { s with lands := modify (fun l => l.gid == gid) (fun l => { l with ready := false }) s.lands }

/-- An entry at the end of an engine queue, with its ticket register empty (R334, R336). -/
def entered (c : Ctx) (s : State) (r : Nat) (op : EngOp) : State :=
  let t := pendingLand (openLanding { s with nextId := s.nextId + 2 } c.w s.nextId (.vec r 1) false false []) s.nextId
  { t with entries := t.entries ++ [{ eid := s.nextId + 1, wid := some c.w.wid, node := c.w.node, asid := c.w.asid
                                      queue := some (c.f.m 3 0), pc := c.w.pc, gid := some s.nextId, op := op, core := some c.w.core, die := c.f.m 3 0 / 8 }] }

/-- An engine instruction whose queue has room enters it. -/
def Enters (i : Fields → Instr) (op : Ctx → EngOp) : Prop :=
  ∀ r, Completes i (fun c s => c.d = some (.v r)
      ∧ (s.entries.filter fun e => e.asid == c.w.asid && e.queue == some (c.f.m 3 0)).length < 64)
    fun c s => entered c s r (op c)

/-- A bank command at the end of its wave's commands (R358). -/
def commanded (c : Ctx) (s : State) (op : BankOp) : State :=
  let t : State := { s with
    nextId := s.nextId + 1
    bcmds := s.bcmds ++ [{ cid := s.nextId, wid := c.w.wid, node := c.w.node, asid := c.w.asid, core := c.w.core, pc := c.w.pc
                           addr := c.va.scalar64, op := op }] }
  if op.counted then addOutst t c.w.wid 1 else t

/-- The wave has room for another bank command and no bank fault is undelivered. -/
abbrev BankRoom (c : Ctx) (s : State) : Prop :=
  bankFault s c.w.wid = none ∧ (s.bcmds.filter fun x => x.wid == c.w.wid).length < 64 ∧ outstFull c.w 1 = false

/-- `bkmode` answers 3 where A lies in no bank page in service, and otherwise does its operation on the pseudo-channel once
no command on it is left (R354, R359). -/
def BankMode (i : Fields → Instr) (op : Nat) : Prop :=
  (∀ x, Completes i (fun c s => bankFault s c.w.wid = none ∧ s.laneCheck c.w.asid c.va.scalar64 1 .read = none
      ∧ s.lookup c.w.asid c.va.scalar64 .read = some x ∧ (x.bank = false ∨ 2 ^ 39 ≤ x.pa ∨ s.deadPchs.contains (pchOf x.pa) = true))
    fun c s => c.putScalar s 1 3)
  ∧ (∀ x, Completes i (fun c s => bankFault s c.w.wid = none ∧ s.laneCheck c.w.asid c.va.scalar64 1 .read = none
      ∧ s.lookup c.w.asid c.va.scalar64 .read = some x ∧ x.bank = true ∧ x.pa < 2 ^ 39 ∧ s.deadPchs.contains (pchOf x.pa) = false
      ∧ (s.bcmds.any fun y => (y.wid == c.w.wid || !cmdHeld s y) && pchsMeet (cmdPchs s y) (some [pchOf x.pa])) = false
      ∧ (c.det = false ∨ (bkmodeAt s (pchOf x.pa) c.w.node c.w.wid op).1 ≠ 1))
    fun c s => c.putScalar (bkmodeAt s (pchOf x.pa) c.w.node c.w.wid op).2 1 (bkmodeAt s (pchOf x.pa) c.w.node c.w.wid op).1)

/-- The descriptor of n bytes in C is aligned, read and valid (R410). -/
abbrev Described (c : Ctx) (s : State) (n : Nat) (ok : List Byte → Bool) (bs : List Byte) (t : State) : Prop :=
  c.vc.scalar64 % n = 0 ∧ readOwn c s c.vc.scalar64 n = .ok bs t ∧ ok bs = true

/-- The pass descriptor in C is aligned, read at its home and valid (R407, R410). -/
abbrev PassRead (c : Ctx) (s : State) (ds : List Byte) (t : State) : Prop :=
  c.vc.scalar64 % 128 = 0 ∧ s.anyParked = false ∧ mayHit s (c.wave s) c.vc.scalar64 128 = true
    ∧ homeRead s c.w.asid (s.specFam c.w.node) c.vc.scalar64 128 = .ok (ds, t) ∧ passOk ds = true

/-- The lanes of an instruction read what they name without a fault (R410). -/
abbrev Readable (c : Ctx) (s : State) (reads : Nat → List (Nat × Nat)) (val : Nat → List (List Byte) → Nat × Flags) : Prop :=
  ((maskBits c.m).any fun l => readsHeld s c.w (reads l)) = false ∧ (lanesRead c s reads val).bad = 0

/-- The state in which a chosen ray's microinstruction runs: the choice has been used. -/
def kiteStart (s : State) : State := { s with curRay := none }

/-- The turn has chosen a ray with a binding, and the word's fields are legal for it (R389). -/
abbrev KiteReady (i : Instr) (s : State) (r : Ray) (b : Binding) : Prop :=
  s.curRay.bind s.ray? = some r ∧ s.binding? r.asid r.slot = some b ∧ kiteFieldsOk i = true

/-- A microinstruction writes its ray, which goes on at a word of its program (R388). -/
def KiteJumps (i : KFields → Instr) (cond : KFields → Binding → Ray → Prop) (eff : KFields → Binding → Ray → Ray)
    (pc : KFields → Ray → Nat) : Prop :=
  ∀ k s r b, KiteReady (i k) s r b → cond k b r →
    exec (i k) s = .next ((kiteStart s).setRay { eff k b r with pc := pc k r % 65536, fkey := none, count := 0 })

/-- As `KiteJumps`, and the ray goes on at the next word. -/
def KiteGoes (i : KFields → Instr) (cond : KFields → Binding → Ray → Prop) (eff : KFields → Binding → Ray → Ray) : Prop :=
  KiteJumps i cond eff fun _ r => r.pc + 1

/-- A microinstruction ends its ray with a status (R392). -/
def KiteEnds (i : KFields → Instr) (cond : KFields → Binding → Ray → Prop) (eff : KFields → Binding → Ray → Ray) (status : Nat) : Prop :=
  ∀ k s r b, KiteReady (i k) s r b → cond k b r → exec (i k) s = .next (endRay (kiteStart s) (eff k b r) status)

/-- A microinstruction reads a node and goes on with it in the node buffer (R389, R394); an address that is no multiple of 16 ends
its ray with ILLEGAL. -/
def KiteLoads (i : KFields → Instr) (addr : KFields → Binding → Ray → Option Nat) : Prop :=
  (∀ k s r b a bs t, KiteReady (i k) s r b → addr k b r = some a → a % 16 = 0 →
    rayRead (kiteStart s) r (s.specFam r.owner) a b.lay.nodeSize = .ok (bs, t) →
      exec (i k) s = .next (t.setRay { r with node := a, nb := true, buf := bs, pc := (r.pc + 1) % 65536, fkey := none, count := 0 }))
  ∧ KiteEnds i (fun k b r => ∃ a, addr k b r = some a ∧ a % 16 ≠ 0) (fun _ _ r => r) 4

/-- The value of a finite float value, as a fraction. -/
def ratOf : FV → Rat
  | .fin neg m e => (if neg then -1 else 1) * (m : Rat) * (2 : Rat) ^ e
  | _ => 0

/-- The four IEEE formats (R69). -/
def ieee : List Fp := [fp64, fp32, fp16, bf16]

/-- The scalar and mask instructions that write D alone, with the words they write. -/
def scalarOps : List ((Fields → Instr) × (Fields → Nat)) :=
  [(.mand, one), (.mor, one), (.mxor, one), (.mandn, one), (.mnot, one), (.mmov, one), (.mpopc, one), (.mfirst, one)
   , (.sadd, words), (.ssub, words), (.smul, words), (.smulh, words), (.sdiv, words), (.srem, words), (.sand, words), (.sor, words)
   , (.sxor, words), (.sshl, words), (.sshr, words), (.ssra, words), (.smin, words), (.smax, words), (.scmp, one), (.ssel, words)
   , (.sli, words), (.smov, words), (.sbfe, words), (.sbfi, words), (.sclz, one), (.spopc, one)]

/-- The lane integer instructions that write D alone. -/
def laneOps : List ((Fields → Instr) × (Fields → Nat)) :=
  [(.vadd, words), (.vsub, words), (.vmul, words), (.vmulh, words), (.vmad, fun f => if vr f == 2 then 2 else 1), (.vand, words)
   , (.vor, words), (.vxor, words), (.vshl, words), (.vshr, words), (.vsra, words), (.vmin, words), (.vmax, words), (.vabs, words)
   , (.vsel, words), (.vbfe, words), (.vbfi, words), (.vpopc, one), (.vclz, one), (.vmov, words), (.vcmp, one)]

/-- The mask and lane instructions in which lanes read each other's values, and those that combine lanes. -/
def crossOps : List ((Fields → Instr) × (Fields → Nat)) :=
  [(.mlane, one), (.vote, one), (.vbcast, words), (.vshfl, words), (.vscan, words)]

/-- The float and conversion instructions that combine lanes. -/
def crossFloatOps : List ((Fields → Instr) × (Fields → Nat)) :=
  [(.cvs, one), (.mxsc, one), (.dred, two), (.fred, one)]

/-- The additions with carry, which write a predicate beside D. -/
def carryOps : List ((Fields → Instr) × (Fields → Nat)) := [(.saddx, one), (.vaddx, one)]

/-- The float and conversion instructions that write D and `fpflags`. -/
def floatOps : List ((Fields → Instr) × (Fields → Nat)) :=
  [(.dadd, two), (.dsub, two), (.dmul, two), (.dfma, two), (.dmin, two), (.dmax, two), (.drcpe, two), (.drsqe, two), (.dldx, two)
   , (.dfrx, two), (.dcmp, one), (.dclass, one), (.fadd, one), (.fsub, one), (.fmul, one), (.ffma, one), (.fmin, one), (.fmax, one)
   , (.frcp, one), (.frsq, one), (.fex2, one), (.flg2, one), (.fsin, one), (.fcos, one), (.fdot2, one), (.fcmp, one), (.fclass, one)
   , (.cvt, fun f => if (fmtOf (f.e 9 5)).any (·.bits == 64) then 2 else 1), (.pkd8, one), (.pkt3, one), (.upt3, two), (.pkf8, one), (.upd8, fun f => pCount f), (.upf8, fun f => pCount f)]

/-- Two states differ in waves, streams and the name counter alone, and in no wave but one. -/
abbrev OnlyWave (wid : Nat) (s t : State) : Prop :=
  { t with waves := s.waves, streams := s.streams, nextId := s.nextId } = s ∧ ∀ k, k ≠ wid → t.wave? k = s.wave? k

/-- A wave keeps every register but n words of a destination in the lanes of a mask and a carry predicate e, and its other
registers and states but for the flags, the range mask, the outstanding count and the data of its scheduling. -/
abbrev RegsKept (w v : Wave) (d : Option ROp) (n : Nat) (m : Word) (e : Option Nat) : Prop :=
  (∀ r l, l < 32 → (∀ k, d = some (.v k) → r < k ∨ k + n ≤ r ∨ m.getLsbD l = false) → v.vl r l = w.vl r l)
  ∧ (∀ r, v.vfull r = w.vfull r) ∧ v.allot = w.allot
  ∧ (∀ r, (∀ k, d = some (.s k) → r < k ∨ k + n ≤ r) → v.sr r = w.sr r)
  ∧ (∀ r, d ≠ some (.x r) → v.xr r = w.xr r) ∧ (∀ r, d ≠ some (.p r) → e ≠ some r → v.pr r = w.pr r)
  ∧ v.q = w.q ∧ v.fpmode = w.fpmode ∧ v.hnd = w.hnd ∧ v.trapRec = w.trapRec ∧ v.epc = w.epc ∧ v.eexec = w.eexec
  ∧ v.troupe = w.troupe ∧ v.latch = w.latch ∧ v.relMark = w.relMark ∧ v.cont = w.cont

/-- An instruction that acts changes the registers of its destination, a carry predicate e and `fpflags`, which only gains
flags and keeps its value where K; it changes no other wave, and the wave goes on at PC + 12. -/
abbrev WritesOnly (x : (Fields → Instr) × (Fields → Nat)) (e : Fields → Option Nat) (ok : Ctx → Prop) (K : Prop) : Prop :=
  ∀ f s c t, ready (x.1 f) f s = some c → c.w.stepping = false → ok c → exec (x.1 f) s = .next t →
    OnlyWave c.w.wid (start s) t ∧ ∃ v, t.wave? c.w.wid = some v ∧ v.pc = c.w.pc + 12 ∧ v.st = .ready
      ∧ RegsKept c.w v c.d (x.2 f) c.m (e f) ∧ (K → v.fpflags = c.w.fpflags)
      ∧ (∀ b, c.w.fpflags.getLsbD b = true → v.fpflags.getLsbD b = true)

/-- Fields without a guard, hints or FEA and FEB: MOD, the three operand numbers without an index, and EXT (R24, R27). -/
def plain (m d a b e : Nat) : Fields :=
  { mod := BitVec.ofNat 6 m, neg := false, pred := 0, d := ⟨false, BitVec.ofNat 10 d⟩, a := ⟨false, BitVec.ofNat 10 a⟩
    b := ⟨false, BitVec.ofNat 10 b⟩, fea := false, feb := false, ext := BitVec.ofNat 25 e, hint := 0 }

end Sys2Proof.Claims
end

