-- ==== Sys2Proof/Certificates/Slice0/Obligations.lean ====
section
/-! DEFINITION. What is claimed of the machine. -/

open Sys2Proof Sys2Proof.Machine Sys2Proof.Claims

/-! ### Classes CTL and MSK -/

/-- R100 to R106: what the branches, calls and loops do, and that a guarded `bra` branches just when a lane that is active has
the guard, and a `loop` whose guard does not act keeps its counter. -/
def Obligations.ControlTransfersGoWhereTheSpecSays : Prop :=
  Completes .nop always (fun _ s => s)
  ∧ Jumps .bra always (fun _ s => s) (fun c => c.w.pc + BitVec.ofInt 64 (12 * c.f.off))
  ∧ (∀ f s c, ready (.brs f) f s = some c → exec (.brs f) s = .next (finish c (start s)
      (let a := c.va.scalar.toInt
       if (f.m 2 0 = 0 ∧ a = 0) ∨ (f.m 2 0 = 1 ∧ a ≠ 0) ∨ (f.m 2 0 = 2 ∧ a < 0) ∨ (f.m 2 0 ≥ 3 ∧ 0 ≤ a) then
         .jump (start s) (c.w.pc + BitVec.ofInt 64 (12 * f.off)) else .done (start s))))
  ∧ (∀ f s c, ready (.brm f) f s = some c → exec (.brm f) s = .next (finish c (start s)
      (let t := c.va.scalar &&& c.w.exec
       if (f.m 1 0 = 0 ∧ t ≠ 0) ∨ (f.m 1 0 = 1 ∧ t = c.w.exec) ∨ (f.m 1 0 = 2 ∧ t = 0) ∨ (f.m 1 0 = 3 ∧ t ≠ c.w.exec) then
         .jump (start s) (c.w.pc + BitVec.ofInt 64 (12 * f.off)) else .done (start s))))
  ∧ Jumps .call always (fun c s => c.putScalar s 2 (c.w.pc + 12).toNat) (fun c => c.w.pc + BitVec.ofInt 64 (12 * c.f.off))
  ∧ Jumps .ret always (fun _ s => s) (fun c => BitVec.ofNat 64 c.va.scalar64)
  ∧ Jumps .jmpi always (fun _ s => s) (fun c => BitVec.ofNat 64 c.va.scalar64 + BitVec.ofInt 64 c.f.off)
  ∧ (∀ f s c, ready (.loop f) f s = some c → exec (.loop f) s = .next (finish c (start s)
      (let n := counterOf c - 1
       let t := c.putScalar (start s) 1 n.toNat
       if n ≠ 0 then .jump t (c.w.pc + BitVec.ofInt 64 (12 * f.off)) else .done t)))
  ∧ (∀ f s w sh, s.cur.bind s.wave? = some w → stepDue w = false → pcMatch (start s) w = none → shape (.bra f) = some sh →
      shapeOk sh f = true →
      if (f.neg = false ∧ f.pred = 0) ∨ w.exec &&& guardOf w f ≠ 0 then
        ∃ c : Ctx, c.w = w ∧ c.pops = [] ∧ exec (.bra f) s = .next (finish c (start s) (.jump (start s) (w.pc + BitVec.ofInt 64 (12 * f.off))))
      else ∃ c : Ctx, c.w = w ∧ c.pops = [] ∧ exec (.bra f) s = .next (ends c (start s)))
  ∧ (∀ f s w sh, s.cur.bind s.wave? = some w → stepDue w = false → pcMatch (start s) w = none → shape (.loop f) = some sh →
      shapeOk sh f = true → step5 sh f w.allot = none → ¬ ((f.neg = false ∧ f.pred = 0) ∨ w.exec &&& guardOf w f ≠ 0) →
        ∃ c : Ctx, c.w = w ∧ c.pops = [] ∧ exec (.loop f) s = .next (ends c (start s)))

/-- R97, R107, R108, R110: yielding, parking and halting. After a release at the halt (R116) `halt` waits while a store stream, the
matrix queue or a bank unit repeats, or has still to perform, what the wave gave it: that is the model's reading (log entry 14). That it
waits until its wave's accesses to scratchpads let it leave its troupe is the model's too (log entry 20). -/
def Obligations.SchedulingInstructionsChangeTheWaveState : Prop :=
  Completes .yield always (fun c s => s.setWave { c.wave s with age := s.cc, ageSub := 0 })
  ∧ Rests .park (fun c _ => c.f.m 1 0 = 0 ∧ c.f.e 24 0 ≠ 0) (fun c s => .parked .time (some (s.cc + c.f.e 24 0)))
  ∧ Completes .park (fun c _ => c.f.m 1 0 = 0 ∧ c.f.e 24 0 = 0) (fun _ s => s)
  ∧ (∀ r, Completes .park (fun c _ => c.f.m 1 0 = 1 ∧ c.a = some (.v r) ∧ c.w.vfull r = true) (fun _ s => s))
  ∧ (∀ r, Rests .park (fun c _ => c.f.m 1 0 = 1 ∧ c.a = some (.v r) ∧ c.w.vfull r = false)
      (fun c s => .parked (.full r) (if c.f.e 24 0 = 0 then none else some (s.cc + c.f.e 24 0))))
  ∧ Completes .park (fun c _ => c.f.m 1 0 = 2 ∧ c.w.latch = true) (fun c s => s.setWave { c.wave s with latch := false })
  ∧ Completes .park (fun c _ => c.f.m 1 0 = 2 ∧ c.w.latch = false ∧ c.w.troupe = none ∧ c.f.e 24 0 = 0) (fun _ s => s)
  ∧ Rests .park (fun c _ => c.f.m 1 0 = 2 ∧ c.w.latch = false ∧ (c.w.troupe ≠ none ∨ c.f.e 24 0 ≠ 0))
      (fun c s => .parked .troupe (if c.f.e 24 0 = 0 then none else some (s.cc + c.f.e 24 0)))
  ∧ (∀ f s c, ready (.halt f) f s = some c → NoDeferred c (start s) → streamAgain (start s) c.w = false →
      bankAgain (start s) c.w.wid = false → stoppedStream (start s) c.w = none → releasedWork (start s) c.w = false →
      leaveHeld (start s) c.w = false → exec (.halt f) s = .next (haltWave (start s) c.w))
  ∧ Blocks .halt (fun c s => NoDeferred c s ∧ (streamAgain s c.w = true ∨ bankAgain s c.w.wid = true
      ∨ stoppedStream s c.w = none ∧ (releasedWork s c.w = true ∨ leaveHeld s c.w = true)))
  ∧ (∀ s w v, s.wave? w.wid = some v → w.q = List.replicate 8 none → w.troupe = none → w.cont = none →
      ∃ u, (haltWave s w).wave? w.wid = some u ∧ u.st = .halting ∧ u.pc = v.pc ∧ u.q = List.replicate 8 none)

/-- R112 to R115: the whole-mask operations, and the cross-lane ones, which take the determinism trap in a continuation wave
under DET. -/
def Obligations.MaskOperationsWriteTheirMasks : Prop :=
  Scalar .mand one (fun c => (c.va.scalar &&& c.vb.scalar).toNat)
  ∧ Scalar .mor one (fun c => (c.va.scalar ||| c.vb.scalar).toNat)
  ∧ Scalar .mxor one (fun c => (c.va.scalar ^^^ c.vb.scalar).toNat)
  ∧ Scalar .mandn one (fun c => (c.va.scalar &&& ~~~c.vb.scalar).toNat)
  ∧ Scalar .mnot one (fun c => (~~~c.va.scalar).toNat)
  ∧ Scalar .mmov one (fun c => c.va.scalar.toNat)
  ∧ Scalar .mpopc one (fun c => ((List.range 32).filter fun l => c.va.scalar.getLsbD l).length)
  ∧ Scalar .mfirst one (fun c => ((List.range 32).find? fun l => c.va.scalar.getLsbD l).getD 0xFFFFFFFF)
  ∧ Completes .mlane (fun c _ => c.contDet = false) (fun c s => c.putScalar s 1
      (maskOf fun l => c.m.getLsbD l && (c.va.w l).getLsbD (c.vb.scalar.toNat % 32)).toNat)
  ∧ Completes .vote (fun c _ => c.contDet = false) (fun c s => c.putScalar s 1
      (let t := c.va.scalar &&& c.m
       if (c.f.m 1 0 = 0 ∧ t ≠ 0) ∨ (c.f.m 1 0 = 1 ∧ t = c.m) ∨ (c.f.m 1 0 = 2 ∧ (t = 0 ∨ t = c.m))
          ∨ (c.f.m 1 0 = 3 ∧ ∀ l < 32, c.m.getLsbD l → c.va.w l = c.va.w (lowLane c.m)) then
         (match c.d with | some (.p _) => 0xFFFFFFFF | _ => 1)
       else 0))
  ∧ Traps .mlane (fun c _ => c.contDet = true) kDET ∧ Traps .vote (fun c _ => c.contDet = true) kDET

/-- R134, R158: under DET a cross-lane instruction of a continuation wave takes the determinism trap; so do `ctime` and the
instructions that read a place (R111, R328, R432), and `getid.wave` there (R396). -/
def Obligations.DeterminismTraps : Prop :=
  Traps .vbcast (fun c _ => c.contDet = true) kDET ∧ Traps .vshfl (fun c _ => c.contDet = true) kDET
  ∧ Traps .vscan (fun c _ => c.contDet = true) kDET ∧ Traps .dred (fun c _ => c.contDet = true) kDET
  ∧ Traps .fred (fun c _ => c.contDet = true) kDET ∧ Traps .cvs (fun c _ => c.contDet = true) kDET
  ∧ Traps .mxsc (fun c _ => c.contDet = true) kDET ∧ Traps .ctime (fun c _ => c.det = true) kDET
  ∧ Traps .getid (fun c _ => c.f.m 2 0 = 5 ∧ c.det = true) kDET
  ∧ Traps .getid (fun c _ => c.f.m 2 0 = 1 ∧ c.contDet = true) kDET
  ∧ Traps .tgrow (fun c _ => c.det = true ∧ c.va.scalar ≠ 0) kDET
  ∧ Traps .atom (fun c _ => c.f.m 5 3 ≠ 1 ∧ c.det = true) kDET ∧ Traps .acas (fun c _ => c.f.m 5 3 ≠ 1 ∧ c.det = true) kDET
  ∧ Traps .atomf (fun c _ => c.f.m 5 3 ≠ 1 ∧ c.det = true) kDET ∧ Traps .red (fun c _ => c.f.m 5 3 ≠ 1 ∧ c.det = true) kDET
  ∧ Traps .redf (fun c _ => c.f.m 5 3 ≠ 1 ∧ c.det = true) kDET

/-! ### Class SYS and class 31 -/

/-- R111, and R396 for a continuation wave: the lane numbers, and the numbers of a wave, its task, its queue and its place. -/
def Obligations.GetidReadsTheWavesNumbers : Prop :=
  Completes .getid (fun c _ => c.f.m 2 0 = 0 ∧ c.w.cont = none)
    (fun c s => c.putVec s 1 allLanes fun l => (32 * c.w.idx + l) % 2 ^ 32)
  ∧ Completes .getid (fun c _ => c.f.m 2 0 = 0 ∧ c.w.cont ≠ none) (fun c s => c.putVec s 1 allLanes fun l =>
      match c.w.contLanes.find? fun k => k.lane == l with | some k => k.laneIdx.toNat | none => 0xFFFFFFFF)
  ∧ Completes .getid (fun c _ => c.f.m 2 0 = 1 ∧ c.w.cont = none) (fun c s => c.putScalar s 1 (c.w.idx % 2 ^ 32))
  ∧ (∀ n, Completes .getid (fun c _ => c.f.m 2 0 = 1 ∧ c.w.cont = some n ∧ c.det = false) (fun c s => c.putScalar s 1 (n % 2 ^ 32)))
  ∧ Completes .getid (fun c _ => c.f.m 2 0 = 2) (fun c s => c.putScalar s 1 (c.node.launch.count % 2 ^ 32))
  ∧ Completes .getid (fun c _ => c.f.m 2 0 = 3) (fun c s => c.putScalar s 1 (State.taskId c.node))
  ∧ Completes .getid (fun c _ => c.f.m 2 0 = 4) (fun c s => c.putScalar s 1 c.node.queue)
  ∧ Completes .getid (fun c _ => c.f.m 2 0 = 5 ∧ c.det = false) (fun c s => c.putScalar s 1 (State.locOf c.w))

/-- R429: what `srd` reads from each system register; R432: `ctime`. -/
def Obligations.SystemRegistersReadAsTheSpecSays : Prop :=
  Reads 0x000 (fun c => c.w.fpmode)
  ∧ Completes .srd (fun c s => c.f.e 9 0 = 0x001 ∧ flagsPending s c.w = false) (fun c s => c.putScalar s 1 c.w.fpflags.toNat)
  ∧ Blocks .srd (fun c s => c.f.e 9 0 = 0x001 ∧ flagsPending s c.w = true)
  ∧ Reads 0x002 (fun c => BitVec.ofNat 32 ((if c.w.hnd then 1 else 0) + (if c.det then 2 else 0) + (if c.w.cont.isSome then 4 else 0)
      + (if c.node.launch.gang then 8 else 0) + c.node.launch.prio % 4 * 16 + (if c.w.supp then 64 else 0)))
  ∧ Reads 0x010 (fun c => BitVec.ofNat 32 (c.w.trapRec.code % 256 + c.w.trapRec.cause % 256 * 2 ^ 8
      + c.w.trapRec.flags % 256 * 2 ^ 16 + c.w.trapRec.source % 256 * 2 ^ 24))
  ∧ Reads 0x011 (fun c => BitVec.ofNat 32 c.w.trapRec.task)
  ∧ Reads 0x012 (fun c => c.w.epc.extractLsb' 0 32) ∧ Reads 0x013 (fun c => c.w.epc.extractLsb' 32 32)
  ∧ Reads 0x014 (fun c => c.w.trapRec.addr.extractLsb' 0 32) ∧ Reads 0x015 (fun c => c.w.trapRec.addr.extractLsb' 32 32)
  ∧ Reads 0x016 (fun c => c.w.trapRec.mask) ∧ Reads 0x017 (fun c => c.w.eexec)
  ∧ Reads 0x018 (fun c => BitVec.ofNat 32 c.w.trapRec.info) ∧ Reads 0x019 (fun c => BitVec.ofNat 32 (c.w.trapRec.info / 2 ^ 32))
  ∧ Reads 0x01A (fun c => BitVec.ofNat 32 c.w.trapRec.opnd)
  ∧ Completes .ctime (fun c _ => c.det = false) (fun c s => c.putScalar s 2 s.ns)

/-- R429, R433, R439: what `swr` writes. -/
def Obligations.SystemRegistersAreWrittenAsTheSpecSays : Prop :=
  Completes .swr (fun c _ => c.f.e 9 0 = 0x000) (fun c s => s.setWave { c.wave s with
    fpmode := if c.va.scalar.toNat % 8 ≤ 4 then c.va.scalar &&& 7 else 0 })
  ∧ Completes .swr (fun c s => c.f.e 9 0 = 0x001 ∧ flagsPending s (c.wave s) = false)
      (fun c s => s.setWave { c.wave s with fpflags := c.va.scalar &&& 0x7F })
  ∧ (∀ k, Completes .swr (fun c s => c.f.e 9 0 = 0x003 ∧ s.ctx? (c.wave s).asid = some k)
      (fun _ s => s.setCtx { k with wdFrom := s.ns }))
  ∧ Completes .swr (fun c s => c.f.e 9 0 = 0x012 ∧ (c.wave s).hnd = true) (fun c s => s.setWave { c.wave s with
      epc := (c.wave s).epc.extractLsb' 32 32 ++ c.va.scalar })
  ∧ Completes .swr (fun c s => c.f.e 9 0 = 0x013 ∧ (c.wave s).hnd = true) (fun c s => s.setWave { c.wave s with
      epc := c.va.scalar ++ (c.wave s).epc.extractLsb' 0 32 })
  ∧ Completes .swr (fun c s => c.f.e 9 0 = 0x017 ∧ (c.wave s).hnd = true) (fun c s => s.setWave { c.wave s with eexec := c.va.scalar })
  ∧ Traps .swr (fun c s => (c.f.e 9 0 = 0x012 ∨ c.f.e 9 0 = 0x013 ∨ c.f.e 9 0 = 0x017) ∧ (c.wave s).hnd = false) kILLOPND

/-- R432, R433: `trap` takes the trap path, and `tret` returns to the saved PC and mask, or traps outside a handler. -/
def Obligations.TrapsAndTheirReturn : Prop :=
  (∀ f s c, ready (.trap f) f s = some c → exec (.trap f) s = .next (((start s).takeTrap { c.w with supp := false, hpri := c.w.hpri - 1 }
      ((start s).waveRec c.w kTRAP 0 0 0 0 (c.f.e 15 0))) (c.w.pc + 12)))
  ∧ (∀ f s c, ready (.tret f) f s = some c → (c.wave (start s)).hnd = true →
      exec (.tret f) s = .next (finish c (start s)
        (.jump ((start s).setWave { c.wave (start s) with pc := (c.wave (start s)).epc, exec := (c.wave (start s)).eexec, hnd := false })
          (c.wave (start s)).epc)))
  ∧ Traps .tret (fun c s => (c.wave s).hnd = false) kILLOPND

/-- R430: taking a trap outside a handler, in a task that has one, saves the record, the PC and `exec`, makes every lane
active and goes to the handler; nothing else of the machine changes, except that a load whose replay ends so lands the lanes that had
finished: that is the model's choice (log entry 14). The record's FLAGS says whether the family is non-speculative (R424). -/
def Obligations.TakingATrapEntersTheHandler : Prop :=
  ∀ (s : State) (w : Wave) (r : FaultRec) (epc : Word64), w.hnd = false → s.handlerOf w ≠ 0 →
    s.takeTrap w r epc = (match w.rp.bind (·.gid) with
        | some g => { s with lands := modify (fun l => l.gid == g) (fun l => { l with held := false }) s.lands }
        | none => s).setWave
      { w with trapRec := { r with flags := if s.nonSpec (s.nodeOf w) = true then 2 else 0 }
               epc := epc, eexec := w.exec, exec := 0xFFFFFFFF, hnd := true, pc := s.handlerOf w
               st := .ready, rp := none, pending := none, waitCtr := 0, bndFrom := none }

/-- R437: `brk` stops a wave of a context marked for debugging, and otherwise takes the trap path; the wave goes on after
the instruction, which counts against the preference of `hpri` (R50). -/
def Obligations.BreakpointsStopOrTrap : Prop :=
  (∀ f s c k, ready (.brk f) f s = some c → (start s).ctx? (c.wave (start s)).asid = some k → k.debug = true →
    exec (.brk f) s = .next (((start s).setWave
        { c.wave (start s) with st := .debugStop, pc := c.w.pc + 12, waitCtr := 0, supp := false, stepping := false, hpri := c.w.hpri - 1 }).appendRec
      ((start s).waveRec (c.wave (start s)) kBREAK 32 0 c.m 0 (c.f.e 15 0)) (.debug (c.wave (start s)).wid)))
  ∧ (∀ f s c k, ready (.brk f) f s = some c → (start s).ctx? (c.wave (start s)).asid = some k → k.debug = false →
    exec (.brk f) s = .next ((start s).takeTrap
      { c.wave (start s) with waitCtr := 0, supp := false, stepping := false, hpri := c.w.hpri - 1 }
      ((start s).waveRec (c.wave (start s)) kBREAK 32 0 c.m 0 (c.f.e 15 0)) (c.w.pc + 12)))

/-- R47 to R51: a hint goes on at PC + 12 whether it can act or not; only `hpri` leaves a preference. That `hprf` and
`hbranch` change nothing is log entry 8. -/
def Obligations.HintsNeverStop : Prop :=
  (∀ i : Fields → Instr, i = .hprf ∨ i = .hpri ∨ i = .hbranch → ∀ f s w, s.cur.bind s.wave? = some w → stepDue w = false →
    pcMatch (start s) w = none → (∀ c, prepare (i f) f w (start s) ≠ .go c) →
      ∃ c : Ctx, c.w = w ∧ c.pops = [] ∧ exec (i f) s = .next (ends c (start s)))
  ∧ (∀ i : Fields → Instr, i = .hprf ∨ i = .hbranch → ∀ f s c, ready (i f) f s = some c →
      exec (i f) s = .next (ends { c with pops := [] } (start s)))
  ∧ (∀ f s c, ready (.hpri f) f s = some c → exec (.hpri f) s = .next (ends { c with pops := [] }
      ((start s).setWave { c.wave (start s) with hpri := f.e 7 0 + 1 })))
  ∧ (∀ b s w, s.cur.bind s.wave? = some w → stepDue w = false → pcMatch (start s) w = none →
      ∃ c : Ctx, c.w = w ∧ c.pops = [] ∧ exec (.hintNop b) s = .next (ends c (start s)))

/-- R45 steps 1 to 4: a word that names no instruction takes the illegal-instruction fault. -/
def Obligations.ReservedWordsFault : Prop :=
  ∀ b s w, s.cur.bind s.wave? = some w → stepDue w = false → pcMatch (start s) w = none →
    exec (.reservedWord b) s = .next ((start s).takeTrap { w with supp := false } ((start s).waveRec w kILLINST 0 0 0 0 0) w.pc)

/-! ### Classes SIA and VIA -/

/-- R119 to R131: what each scalar integer operation writes; the operations themselves are claimed below. That `saddx` writes its
carry after D, which matters where D names the same predicate, and that the C of `ssel` is read at 64 bits at WD 1, are the
model's readings (log entry 27). -/
def Obligations.ScalarIntegerOperationsWriteTheirResults : Prop :=
  Scalar .sadd words (fun c => arith c.f (· + ·) (c.aAt 0) (c.bAt 0))
  ∧ Scalar .ssub words (fun c => arith c.f (· - ·) (c.aAt 0) (c.bAt 0))
  ∧ Scalar .smul words (fun c => arith c.f (· * ·) (c.aAt 0) (c.bAt 0))
  ∧ Scalar .smulh words (fun c => mulHigh (sg c.f) (c.aAt 0) (c.bAt 0))
  ∧ Scalar .sdiv words (fun c => divOp (sg c.f) (c.aAt 0) (c.bAt 0))
  ∧ Scalar .srem words (fun c => remOp (sg c.f) (c.aAt 0) (c.bAt 0))
  ∧ Scalar .sand words (fun c => c.aAt 0 &&& c.bAt 0)
  ∧ Scalar .sor words (fun c => c.aAt 0 ||| c.bAt 0)
  ∧ Scalar .sxor words (fun c => c.aAt 0 ^^^ c.bAt 0)
  ∧ Scalar .sshl words (fun c => shlOp (wdBits (wd c.f)) (c.aAt 0) (c.countAt 0))
  ∧ Scalar .sshr words (fun c => shrOp (wdBits (wd c.f)) (c.aAt 0) (c.countAt 0))
  ∧ Scalar .ssra words (fun c => sraOp (wdBits (wd c.f)) (c.aAt 0) (c.countAt 0))
  ∧ Scalar .smin words (fun c => intMin c.f (c.aAt 0) (c.bAt 0))
  ∧ Scalar .smax words (fun c => intMax c.f (c.aAt 0) (c.bAt 0))
  ∧ Scalar .scmp one (fun c =>
      if intCond (c.f.e 2 0) (elemVal (sg c.f) (wdBits (wd c.f)) (c.aAt 0)) (elemVal (sg c.f) (wdBits (wd c.f)) (c.bAt 0)) then
        (match c.d with | some (.p _) => 0xFFFFFFFF | _ => 1) else 0)
  ∧ Scalar .ssel words (fun c => if c.vc.n (wide c.f) 0 = 0 then c.bAt 0 else c.aAt 0)
  ∧ Scalar .sli words (fun c => immVal c.f)
  ∧ Scalar .smov words (fun c => c.aAt 0)
  ∧ Scalar .sbfe words (fun c => bfeOp (sg c.f) (wdBits (wd c.f)) (c.f.e 5 0) (c.f.e 12 6) (c.aAt 0))
  ∧ Scalar .sbfi words (fun c => bfiOp (c.f.e 5 0) (c.f.e 12 6) (c.aAt 0) (c.bAt 0))
  ∧ Scalar .sclz one (fun c => clzOp (wdBits (wd c.f)) (c.aAt 0))
  ∧ Scalar .spopc one (fun c => popOp (wdBits (wd c.f)) (c.aAt 0))
  ∧ Completes .saddx always (fun c s =>
      let b := if vr c.f == 1 then 2 ^ 32 - 1 - c.bAt 0 else c.bAt 0
      let t := c.aAt 0 + b + (if lane (c.w.pr (c.f.e 2 0)) 0 then 1 else 0)
      let u := c.putScalar s 1 (t % 2 ^ 32)
      u.setWave ((c.wave u).wp (c.f.e 2 0) (if t ≥ 2 ^ 32 then 0xFFFFFFFF else 0)))

/-- R119 to R133: what each lane integer operation writes in the active lanes. Where the B of `vbcast` is a lane constant, which
has a value for each lane, the lane is the value of lane 0, and where the A of `vbcast` or `vshfl` is one, what is read is its value in
the source lane: both are the model's choices (log entry 34). -/
def Obligations.LaneIntegerOperationsWriteTheirResults : Prop :=
  Vector .vadd words (fun c l => arith c.f (· + ·) (c.aAt l) (c.bAt l))
  ∧ Vector .vsub words (fun c l => arith c.f (· - ·) (c.aAt l) (c.bAt l))
  ∧ Vector .vmul words (fun c l => arith c.f (· * ·) (c.aAt l) (c.bAt l))
  ∧ Vector .vmulh words (fun c l => mulHigh (sg c.f) (c.aAt l) (c.bAt l))
  ∧ Vector .vmad (fun f => if vr f == 2 then 2 else 1) (fun c l => madOp c.f (c.aAt l) (c.bAt l) (c.vc.n (vr c.f == 2) l))
  ∧ Vector .vand words (fun c l => c.aAt l &&& c.bAt l)
  ∧ Vector .vor words (fun c l => c.aAt l ||| c.bAt l)
  ∧ Vector .vxor words (fun c l => c.aAt l ^^^ c.bAt l)
  ∧ Vector .vshl words (fun c l => shlOp (wdBits (wd c.f)) (c.aAt l) (c.countAt l))
  ∧ Vector .vshr words (fun c l => shrOp (wdBits (wd c.f)) (c.aAt l) (c.countAt l))
  ∧ Vector .vsra words (fun c l => sraOp (wdBits (wd c.f)) (c.aAt l) (c.countAt l))
  ∧ Vector .vmin words (fun c l => intMin c.f (c.aAt l) (c.bAt l))
  ∧ Vector .vmax words (fun c l => intMax c.f (c.aAt l) (c.bAt l))
  ∧ Vector .vabs words (fun c l => absOp c.f (c.aAt l))
  ∧ Vector .vsel words (fun c l => if (c.w.pr (c.f.e 2 0)).getLsbD l then c.aAt l else c.bAt l)
  ∧ Vector .vbfe words (fun c l => bfeOp (sg c.f) (wdBits (wd c.f)) (c.f.e 5 0) (c.f.e 12 6) (c.aAt l))
  ∧ Vector .vbfi words (fun c l => bfiOp (c.f.e 5 0) (c.f.e 12 6) (c.aAt l) (c.bAt l))
  ∧ Vector .vpopc one (fun c l => popOp (wdBits (wd c.f)) (c.aAt l))
  ∧ Vector .vclz one (fun c l => clzOp (wdBits (wd c.f)) (c.aAt l))
  ∧ Vector .vmov words (fun c l => c.aAt l)
  ∧ Completes .vcmp always (fun c s => c.putPred s c.m (maskOf fun l =>
      intCond (c.f.e 2 0) (elemVal (sg c.f) (wdBits (wd c.f)) (c.aAt l)) (elemVal (sg c.f) (wdBits (wd c.f)) (c.bAt l))))
  ∧ Completes .vbcast (fun c _ => c.contDet = false) (fun c s => c.putVec s (words c.f) c.m fun _ => c.aAt (c.vb.scalar.toNat % 32))
  ∧ Completes .vshfl (fun c _ => c.contDet = false) (fun c s => c.putVec s (words c.f) c.m fun l =>
      let b := (c.vb.w l).toNat
      c.aAt (match vr c.f with
        | 0 => b % 32
        | 1 => if b ≤ l then l - b else l
        | 2 => if l + b ≤ 31 then l + b else l
        | _ => l ^^^ (b % 32)))
  ∧ Completes .vscan (fun c _ => c.contDet = false) (fun c s => c.putVec s (words c.f) c.m fun l =>
      (scanLane (scanOp c.f) (treeLevels (scanOp c.f) 5 (laneList.map fun k => if c.m.getLsbD k then some (c.aAt k) else none)) l).getD 0)
  ∧ Completes .vaddx always (fun c s =>
      let sum (l : Nat) : Nat := c.aAt l + (if vr c.f == 1 then 2 ^ 32 - 1 - c.bAt l else c.bAt l)
        + (if (c.w.pr (c.f.e 2 0)).getLsbD l then 1 else 0)
      let u := c.putVec s 1 c.m fun l => sum l % 2 ^ 32
      u.setWave ((c.wave u).wp (c.f.e 2 0)
        ((c.w.pr (c.f.e 2 0) &&& ~~~c.m) ||| (maskOf (fun l => decide (sum l ≥ 2 ^ 32)) &&& c.m))))

/-! ### Classes VFD, VFS and CVT -/

/-- R142 to R150, with R89 and R151 for the reductions: what each float operation writes, with the flags of the active lanes. The order
in which `fdot2` adds its products, which decides NV where infinities of opposite signs meet beside a quiet NaN, is the model's choice
(log entry 34). -/
def Obligations.FloatOperationsWriteTheirResults : Prop :=
  (∀ dbl, let i (d s : Fields → Instr) : Fields → Instr := if dbl then d else s
    Float dbl (i .dadd .fadd) (fun mode a b _ => a.add mode b)
    ∧ Float dbl (i .dsub .fsub) (fun mode a b _ => a.add mode b.flip)
    ∧ Float dbl (i .dmul .fmul) (fun _ a b _ => a.mul b)
    ∧ Float dbl (i .dfma .ffma) (fun mode a b c => a.fma mode b c)
    ∧ Flagged (i .dmin .fmin) (if dbl then two else one) (fun c l =>
        packElems (fpOf dbl (fmtF c.f)) (elemsOf dbl (fmtF c.f)) fun e => fpPick (fpOf dbl (fmtF c.f)) (ftzF c.f) false
          (elemAt (fpOf dbl (fmtF c.f)) (c.va.n dbl l) e) (elemAt (fpOf dbl (fmtF c.f)) (c.vb.n dbl l) e))
    ∧ Flagged (i .dmax .fmax) (if dbl then two else one) (fun c l =>
        packElems (fpOf dbl (fmtF c.f)) (elemsOf dbl (fmtF c.f)) fun e => fpPick (fpOf dbl (fmtF c.f)) (ftzF c.f) true
          (elemAt (fpOf dbl (fmtF c.f)) (c.va.n dbl l) e) (elemAt (fpOf dbl (fmtF c.f)) (c.vb.n dbl l) e))
    ∧ Completes (i .dcmp .fcmp) always (fun c s => fpTest dbl c s (c.f.e 4 3) fun l e =>
        (fpIn dbl c c.va l e).cond (c.f.e 2 0) (fpIn dbl c c.vb l e))
    ∧ Completes (i .dclass .fclass) always (fun c s => fpTest dbl c s (c.f.e 11 10) fun l e =>
        let b := elemAt (fpOf dbl (fmtF c.f)) (c.va.n dbl l) e
        ((c.f.e 9 0).testBit ((fpIn dbl c c.va l e).classBit ((fpOf dbl (fmtF c.f)).subnormal b)), 0))
    ∧ Completes (i .dred .fred) (fun c _ => c.contDet = false) (fun c s =>
        let r := fpReduce dbl c
        let n := if dbl then 2 else 1
        c.addFlags (match c.d with | some (.s _) => c.putScalar s n r.1 | _ => c.putVec s n c.m fun _ => r.1) r.2))
  ∧ Float true .drcpe (fun _ a _ _ => rcpEst a) ∧ Float true .drsqe (fun _ a _ _ => rsqEst a)
  ∧ Float false .frcp (fun _ a _ _ => frcpV a) ∧ Float false .frsq (fun _ a _ _ => frsqV a)
  ∧ Float false .fex2 (fun _ a _ _ => fex2V a) ∧ Float false .flg2 (fun _ a _ _ => flg2V a)
  ∧ Float false .fsin (fun _ a _ _ => fsinV a) ∧ Float false .fcos (fun _ a _ _ => fcosV a)
  ∧ Flagged .dldx two (fun c l =>
      let v := fp64.readIn (ftzF c.f) (c.va.d l)
      let r := fp64.round (modeOf c.w (rmF c.f)) (ftzF c.f) (match v with | .fin n m e => .fin n m (e + (c.vb.w l).toInt) | w => w)
      (r.1, r.2 ||| (if v.isSig then fNV else 0)))
  ∧ Flagged .dfrx (fun f => if f.e 0 0 == 0 then 2 else 1) (fun c l =>
      let v := fp64.readIn (ftzF c.f) (c.va.d l)
      (if c.f.e 0 0 == 0 then frxMant v else frxExp v, if v.isSig then fNV else 0))
  ∧ Flagged .fdot2 one (fun c l =>
      let p := fpOf false (fmtF c.f)
      let mode := modeOf c.w (rmF c.f)
      let rd (v : SrcVal) (e : Nat) : FV := p.readIn (ftzF c.f) (elemAt p (v.w l).toNat e)
      let x := (rd c.va 0).mul (rd c.vb 0)
      let y := (rd c.va 1).mul (rd c.vb 1)
      let q := x.1.add mode y.1
      let z := q.1.add mode (fp32.readIn (ftzF c.f) (c.vc.w l).toNat)
      let r := fp32.round mode (ftzF c.f) z.1
      (r.1, x.2 ||| y.2 ||| q.2 ||| z.2 ||| r.2))

/-- R154 to R157, with R87 and R88 for stochastic rounding: what each conversion writes, with the flags of the active lanes. The flags
of `cvs` (NX where bits are discarded, OF with NX where the result overflows) are the model's choice (log entry 22). -/
def Obligations.ConversionsWriteTheirResults : Prop :=
  (∀ src dst, Completes .cvt (fun c _ => fmtOf (c.f.e 4 0) = some src ∧ fmtOf (c.f.e 9 5) = some dst) (fun c s =>
    c.putFlagged s (if dst.bits == 64 then 2 else 1) fun l =>
      cvtElem src dst (modeOf c.w (rmF c.f)) (c.f.m 4 4 == 1) (ftzF c.f) (c.va.n (src.bits == 64) l)))
  ∧ (∀ g, Completes .cvs (fun c _ => fmtOf (c.f.e 9 5) = some g ∧ c.contDet = false) (fun c s =>
      let p := pCount c.f
      let v (e : Nat) : FV := fp32.readIn (ftzF c.f) (c.va.w (e / p) (e % p)).toNat
      let d := (List.range (32 * p)).map fun e => srDiscard g (v e)
      c.putFlagged s 1 fun l => mergeElems g.bits (pPos c.f) p (c.dOld l) fun i =>
        srResult g (ftzF c.f) (v (p * l + i)) (srAway d (p * l + i) (BitVec.ofNat 32 (p * getidVal c 0 ((p * l + i) / p) + (p * l + i) % p)))))
  ∧ Flagged .pkd8 one (fun c l => mergeElems 8 (pPos c.f) (pCount c.f) (c.dOld l) fun i =>
      encodeDyn8 (fp32.readIn (ftzF c.f) (c.va.w l i).toNat))
  ∧ Completes .upd8 always (fun c s => c.putGroup s (pCount c.f) fun i l =>
      ((fp32.round mRNE false (decodeDyn8 (byteAt (c.va.w l).toNat (pPos c.f + i)))).1, 0))
  ∧ Flagged .pkt3 one (fun c l => mergeElems 8 (pPos c.f) 1 (c.dOld l) fun _ => (encodeT3 (c.va.d l), 0))
  ∧ Flagged .upt3 two (fun c l => unpackT3 (byteAt (c.va.w l).toNat (pPos c.f)))
  ∧ Completes .mxsc (fun c _ => c.contDet = false) (fun c s =>
      let r := mxScale (c.f.m 5 4) ((laneList.filter fun l => c.m.getLsbD l).map fun l => fp32.readIn (ftzF c.f) (c.va.w l).toNat)
      c.addFlags (match c.d with | some (.s _) => c.putScalar s 1 r.1 | _ => c.putVec s 1 c.m fun _ => r.1) r.2)
  ∧ Flagged .pkf8 one (fun c l => mergeElems 8 (pPos c.f) (pCount c.f) (c.dOld l) fun i =>
      pkf8Elem (c.f.m 5 4) (modeOf c.w (rmF c.f)) ((c.vb.w l).toNat % 256) (fp32.readIn (ftzF c.f) (c.va.w l i).toNat))
  ∧ Completes .upf8 always (fun c s => c.putGroup s (pCount c.f) fun i l =>
      upf8Elem (c.f.m 5 4) (modeOf c.w (rmF c.f)) ((c.vb.w l).toNat % 256) (ftzF c.f) (byteAt (c.va.w l).toNat (pPos c.f + i)))

/-! ### Classes LD, ST and SPD -/

/-- R178 to R182: a load whose lanes pass their checks issues them all and goes on; `lds` writes its scalar at once or
leaves its wave Blocked until the value lands; `prf` brings the lines of the lanes that could be brought, and tells which, asking for no
translation where the core's own copy holds the line (R14, R170). To which level a line comes that another level holds already, and that a line which the L1 serves leaves the state as it is, are the
model's choices (log entry 8). -/
def Obligations.LoadsIssueTheirLanes : Prop :=
  Loads .ld (.load false true false) true (fun _ => 0)
  ∧ Loads .ldnt (.load false false false) false (fun _ => 0)
  ∧ Loads .lda (.load true true false) false (fun c => c.f.m 5 3)
  ∧ (∀ f s c n, ready (.lds f) f s = some c → c.d = some (.s n) →
      dataMatch (start s) c true false (tySize (tyF f)) (fun _ => scalAddr c) = none →
      loadCause (start s) c.w true (scalAddr c) (tySize (tyF f)) = none →
      exec (.lds f) s = .next (finish c (start s)
        (let u := (start s).fresh
         let t := issueLoads u.2 c u.1 1 (tyF f) (.load false true false) true 0 fun _ => scalAddr c
         match t.2 with
         | [x] => .done (t.1.setWave ((c.wave t.1).wScalar (.s n) (tyWords (tyF f)) x.2))
         | _ => .await (openLanding t.1 c.w u.1 (.scal n (tyWords (tyF f))) true false []) u.1)))
  ∧ Completes .prf (fun c s => dataMatch s c true false 1 (fun l => addr64 ((c.va.d l : Int) + c.f.off)) = none)
      (fun c s =>
        let addr l := addr64 ((c.va.d l : Int) + c.f.off)
        let ok := maskOf fun l => decide (addr l < 2 ^ 53)
          && (s.l1Own c.w.core c.w.asid (addr l) (s.specFam c.w.node)
            || match s.lookup c.w.asid (addr l) .read with | some t => !t.g && !t.uncached | none => false)
        c.putPred ((maskBits (c.m &&& ok)).foldl (fun s l => prefetch c (c.f.m 1 0) (addr l) s) s) c.m ok)
  ∧ (∀ c lvl va s t, s.lookup c.w.asid va .read = some t → (s.l1Serves c.w.core c.w.asid va (s.specFam c.w.node)).isSome = true →
      prefetch c lvl va s = s)
  ∧ (∀ c va s t, s.lookup c.w.asid va .read = some t → s.l1Serves c.w.core c.w.asid va (s.specFam c.w.node) = none →
      s.home? c.w.asid (va / 128) = none → t.home = 0 → t.never = false → t.pa < 2 ^ 39 → s.isParked t.pa = false →
      s.lineLocked c.w.asid va = false → ((prefetch c 1 va s).home? c.w.asid (va / 128)).isSome = true)
  ∧ (∀ c va s, (s.home? c.w.asid (va / 128)).isSome = true → prefetch c 2 va s = s)

/-- R178, R183 to R185, R226: a store whose lanes pass their checks issues them all and counts each as outstanding. -/
def Obligations.StoresIssueTheirLanes : Prop :=
  Stores .st false (fun _ => 0) ∧ Stores .stnt false (fun _ => 1) ∧ Stores .stl true (fun c => c.f.m 5 3)
  ∧ Completes .sts (fun c s => dataMatch s c false true (tySize (tyF c.f)) (fun _ => scalAddr c) = none
        ∧ s.laneCheck c.w.asid (scalAddr c) (tySize (tyF c.f)) .write = none ∧ outstFull c.w 1 = false)
      (fun c s => addOutst (addAccess s.fresh.2
        { id := 0, gid := s.nextId, wid := c.w.wid, node := c.w.node, core := c.w.core, lane := 0, kind := .store false
          space := .glob, asid := c.w.asid, addr := scalAddr c, size := tySize (tyF c.f)
          data := if tyF c.f == 5 then c.vd.d 0 else (c.vd.w 0).toNat
          cached := match s.lookup c.w.asid (scalAddr c) .write with | some t => !t.uncached | none => true
          replayed := c.w.rp.isSome }) c.w.wid 1)

/-- R196 to R199: scratchpad loads, stores and copies issue the lanes in range, and the others enter the range mask. -/
def Obligations.ScratchpadInstructionsIssueTheLanesInRange : Prop :=
  PadLoads .spl true ∧ PadLoads .spcl false ∧ PadStores .sps true ∧ PadStores .spcs false
  ∧ Completes .spcp (fun c s => outstFull c.w (maskCount (copyLanes s c (tySize (tyF c.f)))) = false) (fun c s =>
      let good := copyLanes s c (tySize (tyF c.f))
      addOutst (padded c s good false (tySize (tyF c.f)) (fun l => .copy (c.vb.w l).toNat) (fun _ => 0) (spAddr c)).2
        c.w.wid (maskCount good))

/-- R171, R172: where lanes of a load or store fail their checks, the wave enters Replay with the cause and address of the
lowest failing lane and the mask of the failing lanes, once the other lanes have been issued; the entries that their walks read are
noted (R462). A lane of a load that the core's own copy serves asks for no translation (R14, R170). -/
def Obligations.FailingLanesAreReplayed : Prop :=
  (∀ f s c r, ready (.ld f) f s = some c → c.d = some (.v r) → dataMatch (start s) c true false (tySize (tyF f)) (memAddr c (tyF f)) = none →
    let b := lanesFailing c.m (memAddr c (tyF f)) fun l => loadCause (start s) c.w true (memAddr c (tyF f) l) (tySize (tyF f))
    b.1 ≠ 0 →
      let g := groupOf (start s) c.w
      let t := issueLoads g.2 c g.1 (c.m &&& ~~~b.1) (tyF f) (.load false true false) true 0 (memAddr c (tyF f))
      exec (.ld f) s = .next (finish c (start s)
        (.replay ((openLanding t.1 c.w g.1 (.vec r (tyWords (tyF f))) true true t.2).noteLanes c.w.asid (tySize (tyF f)) b.1
          (memAddr c (tyF f))) b.2.1 b.2.2 b.1 b.1 (some g.1))))
  ∧ (∀ f s c, ready (.st f) f s = some c → dataMatch (start s) c false true (tySize (tyF f)) (memAddr c (tyF f)) = none →
    let b := laneFaults (start s) c.w.asid c.m (tySize (tyF f)) .write (memAddr c (tyF f))
    b.1 ≠ 0 → outstFull c.w (maskCount (c.m &&& ~~~b.1)) = false →
      let g := groupOf (start s) c.w
      exec (.st f) s = .next (finish c (start s)
        (.replay ((addOutst (issueStores g.2 c g.1 (c.m &&& ~~~b.1) (tyF f) false 0 (memAddr c (tyF f))) c.w.wid
          (maskCount (c.m &&& ~~~b.1))).noteLanes c.w.asid (tySize (tyF f)) b.1 (memAddr c (tyF f))) b.2.1 b.2.2 b.1 b.1 (some g.1))))
  ∧ (∀ s asid m size k addr l, l < 32 →
      ((laneFaults s asid m size k addr).1.getLsbD l = true ↔ m.getLsbD l = true ∧ s.laneCheck asid (addr l) size k ≠ none))
  ∧ (∀ m addr why l, l < 32 → ((lanesFailing m addr why).1.getLsbD l = true ↔ m.getLsbD l = true ∧ why l ≠ none))
  ∧ (∀ s w va size, s.l1Own w.core w.asid va (s.specFam w.node) = false → loadCause s w true va size = s.laneCheck w.asid va size .read)
  ∧ (∀ s w va size, s.l1Own w.core w.asid va (s.specFam w.node) = true → mayHit s w va size = true → va < 2 ^ 53 → va % size = 0 →
      loadCause s w true va size = none)

/-! ### Streams, class ATM -/

/-- R187, R191: `astr` and `astw` bind the stream of their descriptor to a free queue, and `aend` frees its queue. -/
def Obligations.StreamsAreBoundAndEnded : Prop :=
  (∀ write qn n, Completes (if write then .astw else .astr) (fun c s => c.d = some (.q qn) ∧ c.b = some (.s n)
      ∧ c.w.q.getD qn none = none ∧ (streamOf c write qn n s.nextId).base % tySize (tyF c.f) = 0
      ∧ ((streamOf c write qn n s.nextId).dims.all fun d => d.2 % (tySize (tyF c.f) : Int) == 0) = true
      ∧ (write = false ∨ (streamOf c write qn n s.nextId).sp = false ∨ c.node.launch.scratch ≠ 0)
      ∧ streamsUsed s c.w < 32 ∧ unitTurn s (unitStreams c.w.core c.w.quad) c.w.wid = true)
    (fun c s =>
      let t := streamOf c write qn n s.nextId
      let u := { unitLeave s (unitStreams c.w.core c.w.quad) c.w.wid with nextId := s.nextId + 1, streams := s.streams ++ [t] }
      u.setWave { c.wave u with q := (c.wave u).q.set qn (some t.sid) }))
  ∧ (∀ qn, Completes .aend (fun c s => c.a = some (.q qn) ∧ arrayAgain s c.w.wid = false ∧ arrayFault s c.w.wid = none
      ∧ (c.w.q.getD qn none).bind s.stream? = none) (fun _ s => s))
  ∧ (∀ qn t, Completes .aend (fun c s => c.a = some (.q qn) ∧ arrayAgain s c.w.wid = false ∧ arrayFault s c.w.wid = none
      ∧ (c.w.q.getD qn none).bind s.stream? = some t ∧ t.again = false ∧ (t.stopped = false ∨ t.entries = []))
    (fun c s =>
      let u := endStream (s.setStream { t with mixed := t.mixed || arrayReads s t.sid }) t.sid
      u.setWave { c.wave u with q := (c.wave u).q.set qn none }))

/-- R205 to R209, R216: the lanes that each atomic issues. -/
def Obligations.AtomicsIssueTheirLanes : Prop :=
  Atomics .atom (fun c => .atom (c.f.e 24 21) (c.f.m 1 1 == 1) true) (fun c => c.f.m 2 2 == 1) true false (fun c => atomOff c.f)
  ∧ Atomics .red (fun c => .atom (c.f.e 24 21) (c.f.m 1 1 == 1) false) (fun c => c.f.m 2 2 == 1) false false (fun c => atomOff c.f)
  ∧ Atomics .acas (fun _ => .cas) (fun c => c.f.m 2 2 == 1) true false (fun _ => 0)
  ∧ Atomics .atomf (fun c => .atomf (c.f.e 24 21) (c.f.m 2 1) true) (fun c => c.f.m 2 1 == 1) true false (fun c => atomOff c.f)
  ∧ Atomics .redf (fun c => .atomf (c.f.e 24 21) (c.f.m 2 1) false) (fun c => c.f.m 2 1 == 1) false false (fun c => atomOff c.f)
  ∧ Atomics .redo (fun c => .redo (c.f.m 2 1 == 1)) (fun c => c.f.m 2 1 == 1) false true (fun c => atomOff c.f)

/-! ### Classes SYN and ORD -/

/-- R223 to R228: what the troupe instructions do once the wave's earlier scratchpad accesses are performed, and the illegal
operands: a word out of range, in use or not initialised, a wave that has joined already, a gang's word, and an arrival of
another kind than the open phase's. That each waits for the wave's earlier scratchpad accesses is log entry 20. -/
def Obligations.TroupeInstructionsActOnTheirWord : Prop :=
  (∀ r, Completes .bini (fun c s => spadPending s c.w = false ∧ wordAt c s = some r
      ∧ ((getTw s c.w.node r).init = false ∨ (getTw s c.w.node r).members = 0))
    (fun c s => setTw s c.w.node r { init := true }))
  ∧ (∀ r, Completes .join (fun c s => spadPending s c.w = false ∧ wordAt c s = some r ∧ c.w.troupe = none
      ∧ (getTw s c.w.node r).init = true ∧ (getTw s c.w.node r).gang = false)
    (fun c s =>
      let u := setTw s c.w.node r { getTw s c.w.node r with members := (getTw s c.w.node r).members + 1 }
      u.setWave { c.wave u with troupe := some r, latch := false }))
  ∧ Completes .leave (fun c _ => c.w.troupe = none) (fun _ s => s)
  ∧ (∀ r, Completes .leave (fun c s => c.w.troupe = some r ∧ spadPending s c.w = false ∧ (getTw s c.w.node r).gang = false)
      (fun c s => troupeLeave s (c.wave s)))
  ∧ Completes .barr (fun c _ => c.w.troupe = none) (fun _ s => s)
  ∧ (∀ r ph u, ∀ f s c, ready (.barr f) f s = some c → c.w.troupe = some r → spadPending (start s) c.w = false →
      troupeArrive (start s) c.w.node r false = some (ph, u) →
      exec (.barr f) s = .next (let v := popAll u c.w c.m c.pops
        afterStep (troupeTest (v.setWave { retire (c.wave v) with pc := (c.wave v).pc + 12, st := .barrier (.release ph) }) c.w.node r) c.w.wid))
  ∧ Completes .barw (fun c _ => c.w.troupe = none) (fun c s => c.putScalar s 1 0)
  ∧ (∀ r ph u, Completes .barw (fun c s => c.w.troupe = some r ∧ spadPending s c.w = false
      ∧ troupeArrive s c.w.node r false = some (ph, u)) (fun c _ => c.putScalar (troupeTest u c.w.node r) 1 ph))
  ∧ Completes .bwait (fun c _ => c.w.troupe = none) (fun _ s => s)
  ∧ (∀ r, Completes .bwait (fun c s => c.w.troupe = some r ∧ spadPending s c.w = false
      ∧ (getTw s c.w.node r).phase ≠ c.va.scalar.toNat % 65536) (fun _ s => s))
  ∧ (∀ r, Rests .bwait (fun c s => c.w.troupe = some r ∧ spadPending s c.w = false
      ∧ (getTw s c.w.node r).phase = c.va.scalar.toNat % 65536) (fun c _ => .barrier (.phaseNot (c.va.scalar.toNat % 65536))))
  ∧ Completes .drain (fun c s => NoDeferred c s ∧ c.w.outst = 0 ∧ (c.f.m 0 0 = 1 ∨ c.w.troupe = none)) (fun _ s => s)
  ∧ (∀ r ph u, ∀ f s c, ready (.drain f) f s = some c → NoDeferred c (start s) → c.w.outst = 0 → f.m 0 0 = 0 →
      c.w.troupe = some r → spadPending (start s) c.w = false → troupeArrive (start s) c.w.node r false = some (ph, u) →
      exec (.drain f) s = .next (let v := popAll u c.w c.m c.pops
        afterStep (troupeTest (v.setWave { retire (c.wave v) with pc := (c.wave v).pc + 12, st := .barrier (.release ph) }) c.w.node r) c.w.wid))
  ∧ (∀ f s c, ready (.drain f) f s = some c → NoDeferred c (start s) → c.w.outst ≠ 0 →
      exec (.drain f) s = .next ((start s).setWave { c.wave (start s) with st := .barrier (.drain (f.m 0 0 == 0)), waitCtr := 0 }))
  ∧ (∀ r ph u, ∀ f s c, ready (.gbar f) f s = some c → c.node.launch.gang = true → c.w.troupe = some r →
      spadPending (start s) c.w = false → troupeArrive (start s) c.w.node r true = some (ph, u) →
      exec (.gbar f) s = .next (let v := popAll u c.w c.m c.pops
        afterStep (troupeTest (v.setWave { retire (c.wave v) with pc := (c.wave v).pc + 12, st := .barrier (.release ph) }) c.w.node r) c.w.wid))
  ∧ Traps .gbar (fun c _ => c.node.launch.gang = false) kILLOPND
  ∧ Traps .bini (fun c s => spadPending s c.w = false ∧ wordAt c s = none) kILLOPND
  ∧ (∀ r, Traps .bini (fun c s => spadPending s c.w = false ∧ wordAt c s = some r
      ∧ (getTw s c.w.node r).init = true ∧ (getTw s c.w.node r).members ≠ 0) kILLOPND)
  ∧ Traps .join (fun c s => spadPending s c.w = false ∧ wordAt c s = none) kILLOPND
  ∧ (∀ r, Traps .join (fun c s => spadPending s c.w = false ∧ wordAt c s = some r
      ∧ (c.w.troupe ≠ none ∨ (getTw s c.w.node r).init = false ∨ (getTw s c.w.node r).gang = true)) kILLOPND)
  ∧ (∀ r, Traps .leave (fun c s => c.w.troupe = some r ∧ spadPending s c.w = false ∧ (getTw s c.w.node r).gang = true) kILLOPND)
  ∧ (∀ i : Fields → Instr, i = .barr ∨ i = .barw → ∀ r, Traps i (fun c s => c.w.troupe = some r ∧ spadPending s c.w = false
      ∧ 0 < (getTw s c.w.node r).arrived ∧ (getTw s c.w.node r).kind = true) kILLOPND)
  ∧ (∀ r, Traps .gbar (fun c s => c.node.launch.gang = true ∧ c.w.troupe = some r ∧ spadPending s c.w = false
      ∧ 0 < (getTw s c.w.node r).arrived ∧ (getTw s c.w.node r).kind = false) kILLOPND)
  ∧ (∀ r, Traps .drain (fun c s => NoDeferred c s ∧ c.w.outst = 0 ∧ c.f.m 0 0 = 0 ∧ c.w.troupe = some r ∧ spadPending s c.w = false
      ∧ 0 < (getTw s c.w.node r).arrived ∧ (getTw s c.w.node r).kind = true) kILLOPND)
  ∧ (∀ i : Fields → Instr, i = .bini ∨ i = .join → Blocks i (fun c s => spadPending s c.w = true))
  ∧ (∀ i : Fields → Instr, i = .leave ∨ i = .barr ∨ i = .barw ∨ i = .bwait →
      Blocks i (fun c s => c.w.troupe ≠ none ∧ spadPending s c.w = true))

/-- R243 to R245: a fence or a wait completes once its conditions hold, and leaves its wave Blocked before. -/
def Obligations.FencesWaitForTheirConditions : Prop :=
  Completes .fenceAcq (fun c s => NoDeferred c s ∧ (s.lands.all fun l => l.wid != c.w.wid || !l.load) = true) (fun _ s => s)
  ∧ Blocks .fenceAcq (fun c s => NoDeferred c s ∧ (s.lands.any fun l => l.wid == c.w.wid && l.load) = true)
  ∧ Completes .fenceRel (fun c s => NoDeferred c s ∧ c.f.m 5 3 ≠ 1 ∧ loadsReturned s c.w.wid = true ∧ c.w.outst = 0
      ∧ c.w.relMark + 2 ≤ s.ns) (fun c s => if c.f.m 5 3 = 4 then s.landPorts else s)
  ∧ Blocks .fenceRel (fun c s => NoDeferred c s ∧ c.f.m 5 3 ≠ 1 ∧ (loadsReturned s c.w.wid = false ∨ c.w.outst ≠ 0 ∨ s.ns < c.w.relMark + 2))
  ∧ Completes .fenceRel (fun c s => NoDeferred c s ∧ c.f.m 5 3 = 1 ∧ loadsReturned s c.w.wid = true ∧ spadOutstanding s c.w = false)
      (fun _ s => s)
  ∧ Blocks .fenceRel (fun c s => NoDeferred c s ∧ c.f.m 5 3 = 1 ∧ (loadsReturned s c.w.wid = false ∨ spadOutstanding s c.w = true))
  ∧ Completes .lwait (fun c s => c.va.scalar64 + 2 ≤ s.ns) (fun _ s => s)
  ∧ Blocks .lwait (fun c s => s.ns < c.va.scalar64 + 2)

/-! ### Classes MXL and MXS -/

/-- R277 to R293: a matrix instruction whose checks pass puts its command, with its operands as read at issue, at the
end of the array's queue; an `mclr` with an anchor on FP32 accumulators takes the illegal-operand trap. The model's readings are in log
entry 13. -/
def Obligations.MatrixInstructionsEnterTheQueue : Prop :=
  (∀ a, Completes .mcfg (fun c s => Holds c s a ∧ cfgOk (if c.f.m 5 5 == 1 then c.f.imm32 else c.va.scalar).toNat = true)
    (fun c s => queued c s a (if c.f.m 5 5 == 1 then c.f.imm32 else c.va.scalar).toNat .cfg))
  ∧ (∀ a k, Completes .mlds (fun c s => Configured c s a k
        ∧ (if c.f.m 0 0 == 1 then c.va.scalar.toNat else c.va.scalar64) % 16 = 0 ∧ c.vb.scalar.toNat % 16 = 0
        ∧ (if c.f.m 1 1 == 1 then imgBytes (arrCfg k) else recBytesB (arrCfg k)) ≤ c.vb.scalar.toNat)
      (fun c s => queued c s a k (.lds (c.f.m 0 0 == 1) (c.f.m 1 1 == 1) (c.f.e 2 0)
        (if c.f.m 0 0 == 1 then c.va.scalar.toNat else c.va.scalar64) c.vb.scalar.toNat)))
  ∧ (∀ a, Completes .mswp (fun c s => Holds c s a) (fun c s => queued c s a ((viewCfg a).getD 0) .swp))
  ∧ (∀ a, Completes .mclr (fun c s => Holds c s a ∧ c.f.m 1 1 = 0
        ∧ (c.f.m 0 0 = 1 ∨ (match viewCfg a with | some k => (arrCfg k).preset | none => false) = false)
        ∧ (c.f.m 0 0 = 0 ∨ (c.va.scalar.toNat % 8 = 0 ∧ c.vb.scalar.toNat % 8 = 0))
        ∧ inGrant a (c.f.m 0 0 == 1) c.va.scalar.toNat c.vb.scalar.toNat = true ∧ c.vb.scalar ≠ 0)
      (fun c s => queued c s a ((viewCfg a).getD 0) (.clr (c.f.m 0 0 == 1) false c.va.scalar.toNat c.vb.scalar.toNat 0)))
  ∧ (∀ a k, Completes .mclr (fun c s => Configured c s a k ∧ c.f.m 1 1 = 1 ∧ c.f.m 0 0 = 0 ∧ (arrCfg k).preset = true
        ∧ -4096 ≤ c.vc.scalar.toInt ∧ c.vc.scalar.toInt ≤ 4095
        ∧ inGrant a false c.va.scalar.toNat c.vb.scalar.toNat = true ∧ c.vb.scalar ≠ 0)
      (fun c s => queued c s a k (.clr false true c.va.scalar.toNat c.vb.scalar.toNat c.vc.scalar.toInt)))
  ∧ Traps .mclr (fun c s => NoDeferred c s ∧ c.f.m 1 1 = 1 ∧ c.f.m 0 0 = 1) kILLOPND
  ∧ (∀ a k, Completes .mstr (fun c s => Configured c s a k ∧ Streams c a k ∧ c.f.m 0 0 = 1
        ∧ (match c.a with | some (.q _) => false | _ => true) = true)
      (fun c s => queued c s a k (.str true c.vd.scalar.toNat c.va.scalar.toNat c.vb.scalar.toNat (c.f.e 12 0) (16 * c.f.e 20 13) none
        (if (arrCfg k).amx then rowQueue s c.w (c.f.e 23 21) [if (arrCfg k).sparse then 5 else 4] else none))))
  ∧ (∀ a k n sid, Completes .mstr (fun c s => Configured c s a k ∧ Streams c a k ∧ c.f.m 0 0 = 0 ∧ c.a = some (.q n)
        ∧ rowQueue s c.w n [4, 5] = some sid ∧ (arrCfg k).amx = false ∧ c.f.e 23 21 = 0)
      (fun c s => queued c s a k (.str false c.vd.scalar.toNat 0 c.vb.scalar.toNat (c.f.e 12 0) (16 * c.f.e 20 13) (some sid) none)))
  ∧ (∀ a k n sid sc, Completes .mstr (fun c s => Configured c s a k ∧ Streams c a k ∧ c.f.m 0 0 = 0 ∧ c.a = some (.q n)
        ∧ rowQueue s c.w n [4, 5] = some sid ∧ (arrCfg k).amx = true
        ∧ rowQueue s c.w (c.f.e 23 21) [if (arrCfg k).sparse then 5 else 4] = some sc)
      (fun c s => queued c s a k (.str false c.vd.scalar.toNat 0 c.vb.scalar.toNat (c.f.e 12 0) (16 * c.f.e 20 13) (some sid) (some sc))))
  ∧ (∀ a k r, Completes .mrd (fun c s => Configured c s a k ∧ c.d = some (.v r)
        ∧ ((arrCfg k).outf ≠ 10 ∨ c.f.m 2 0 = 0)
        ∧ accsOk a (arrCfg k) c.va.scalar.toNat 1 0 (32 * (if outBytes (arrCfg k).outf < 4 then 4 / outBytes (arrCfg k).outf else 1)) = true
        ∧ (outBytes (arrCfg k).outf = 8 → r % 2 = 0) ∧ r + (if outBytes (arrCfg k).outf = 8 then 2 else 1) ≤ c.w.allot
        ∧ c.w.vfull r = true ∧ (outBytes (arrCfg k).outf = 8 → c.w.vfull (r + 1) = true))
      (fun c s =>
        let words := if outBytes (arrCfg k).outf = 8 then 2 else 1
        let t := pendingLand (openLanding { s with nextId := s.nextId + 1 } c.w s.nextId (.vec r words) false false []) s.nextId
        queued c t a k (.rd s.nextId c.va.scalar.toNat (mxMode c))))
  ∧ (∀ a k, Completes .mst (fun c s => Configured c s a k ∧ ((arrCfg k).outf ≠ 10 ∨ c.f.m 2 0 = 0)
        ∧ (c.f.m 3 3 = 0 ∨ (outBytes (arrCfg k).outf < 4 ∧ c.f.m 2 0 = 0))
        ∧ (if c.f.m 4 4 == 1 then c.va.scalar.toNat else c.va.scalar64) % outBytes (arrCfg k).outf = 0
        ∧ c.vd.scalar.toNat % outBytes (arrCfg k).outf = 0
        ∧ accsOk a (arrCfg k) c.vb.scalar.toNat (c.f.e 6 0 + 1) (c.f.e 19 7) 128 = true
        ∧ outstFull c.w (mstLines (if c.f.m 4 4 == 1 then c.va.scalar.toNat else c.va.scalar64) c.vd.scalar.toNat (c.f.e 6 0 + 1)
            (outBytes (arrCfg k).outf)) = false)
      (fun c s =>
        let dst := if c.f.m 4 4 == 1 then c.va.scalar.toNat else c.va.scalar64
        let n := mstLines dst c.vd.scalar.toNat (c.f.e 6 0 + 1) (outBytes (arrCfg k).outf)
        queued c (addOutst s c.w.wid n) a k
          (.st (mxMode c) (c.f.m 3 3 == 1) (c.f.m 4 4 == 1) dst c.vb.scalar.toNat c.vd.scalar.toNat (c.f.e 6 0 + 1) (c.f.e 19 7)) n))
  ∧ (∀ a, Completes .mbnd (fun c s => NoDeferred c s ∧ ownArray s c.w = some a ∧ a.queue = [])
      (fun c s => c.putScalar (s.setArray { a with mbound := 0x80FF0000#32 }) 1 a.mbound.toNat))
  ∧ Traps .mcfg (fun c s => NoDeferred c s ∧ ownArray s c.w = none) kILLOPND
  ∧ Traps .mst (fun c s => NoDeferred c s ∧ ownArray s c.w = none) kILLOPND

/-! ### Classes ENG and BNK -/

/-- R334 to R345: an engine instruction enters its queue with an empty ticket register, and `ewait` reads a full one. -/
def Obligations.EngineInstructionsEnterTheirQueue : Prop :=
  Enters .ecpy (fun c => .copy c.va.scalar64 c.vb.scalar64 c.vc.scalar.toNat (c.f.m 4 4 == 1))
  ∧ Enters .egat (fun c => .card c.va.scalar64 false)
  ∧ Enters .edcp (fun c => .card c.va.scalar64 true)
  ∧ Enters .efence (fun c => .fence (c.f.e 15 0))
  ∧ (∀ r, Completes .ewait (fun c _ => c.a = some (.v r) ∧ c.w.vfull r = true ∧ c.f.m 0 0 = 1)
      (fun c s => c.putScalar s 1 (c.w.vl r 0).toNat))
  ∧ (∀ r, Completes .ewait (fun c _ => c.a = some (.v r) ∧ c.w.vfull r = true ∧ c.f.m 0 0 = 0) (fun _ s => s))
  ∧ (∀ r, Blocks .ewait (fun c _ => c.a = some (.v r) ∧ c.w.vfull r = false))

/-- R354, R359: `bkmode` answers the lease of the pseudo-channel that A names, and what it does to it. -/
def Obligations.BankModesAnswerTheLease : Prop :=
  BankMode .bkmodeAcq 0 ∧ BankMode .bkmodeAll 1 ∧ BankMode .bkmodeOne 2 ∧ BankMode .bkmodeRel 3
  ∧ (∀ s num node wid, s.pch? num = none → bkmodeAt s num node wid 0 = (0, { s with pchs := { num := num, holder := node, acqWave := wid } :: s.pchs }))
  ∧ (∀ s num node wid op, s.pch? num = none → 1 ≤ op → bkmodeAt s num node wid op = (2, s))
  ∧ (∀ s num node wid op p, s.pch? num = some p → p.holder ≠ node → bkmodeAt s num node wid op = (if op = 0 then 1 else 2, s))
  ∧ (∀ s num node wid p, s.pch? num = some p → p.holder = node → bkmodeAt s num node wid 0 = (0, s)
      ∧ bkmodeAt s num node wid 1 = (0, s.setPch { p with all := true }) ∧ bkmodeAt s num node wid 2 = (0, s.setPch { p with all := false })
      ∧ bkmodeAt s num node wid 3 = (0, s.freePch num))

/-- R358 to R366: a bank instruction whose operands lie in their ranges puts its command behind the wave's earlier
ones; a count of 0 does nothing, and a count above its limit or a walk that starts at no column takes the
illegal-operand trap. That the start is checked before a count of 0 is the model's choice, as its other readings are
(log entry 16). A command that fails the checks of its walk keeps its fault (R371), with repeats counted for one
address (R173). The model's readings are in log entry 16. -/
def Obligations.BankInstructionsSendTheirCommands : Prop :=
  Completes .bkbc (fun c s => BankRoom c s)
    (fun c s => commanded c s (.bc (c.f.m 0 0 == 1) (c.f.e 3 0) (c.f.e 7 4) c.m ((List.range 32).map fun l => (c.vb.w l).toNat)))
  ∧ Completes .bkmac (fun c s => BankRoom c s ∧ 1 ≤ c.vb.scalar.toNat ∧ c.vb.scalar.toNat ≤ 4096
        ∧ c.va.scalar64 % 32 = 0)
      (fun c s => commanded c s (.mac (c.f.m 1 0) c.vb.scalar.toNat (c.f.e 2 0) (c.f.e 5 3 + 1) (c.f.e 9 6)))
  ∧ (∀ i : Fields → Instr, i = .bkmac ∨ i = .bkop →
      Completes i (fun c s => bankFault s c.w.wid = none ∧ c.vb.scalar = 0 ∧ c.va.scalar64 % 32 = 0) (fun _ s => s))
  ∧ (∀ i : Fields → Instr, i = .bkfnIn ∨ i = .bkfnOut →
      Completes i (fun c s => bankFault s c.w.wid = none ∧ c.vb.scalar = 0) (fun _ s => s))
  ∧ Traps .bkmac (fun c s => bankFault s c.w.wid = none ∧ (4096 < c.vb.scalar.toNat ∨ c.va.scalar64 % 32 ≠ 0)) kILLOPND
  ∧ Traps .bkop (fun c s => bankFault s c.w.wid = none
      ∧ ((c.f.m 3 3 = 0 ∧ 8 < c.vb.scalar.toNat) ∨ c.va.scalar64 % 32 ≠ 0)) kILLOPND
  ∧ (∀ i : Fields → Instr, i = .bkfnIn ∨ i = .bkfnOut →
      Traps i (fun c s => bankFault s c.w.wid = none ∧ 65536 < c.vb.scalar.toNat) kILLOPND)
  ∧ Completes .bkop (fun c s => BankRoom c s ∧ 1 ≤ c.vb.scalar.toNat
        ∧ (c.f.m 3 3 = 1 ∨ c.vb.scalar.toNat ≤ 8) ∧ c.va.scalar64 % 32 = 0)
      (fun c s => commanded c s (.op (c.f.m 2 0) (c.f.m 3 3 == 1) (c.f.m 5 4) c.vb.scalar.toNat (c.f.e 2 0) (c.f.e 3 3) (c.f.e 7 4)))
  ∧ Completes .bkst (fun c s => BankRoom c s ∧ c.va.scalar64 % 32 = 0) (fun c s => commanded c s (.st (c.f.e 3 0) (c.f.e 5 4)))
  ∧ (∀ r, Completes .bkrd (fun c s => bankFault s c.w.wid = none ∧ (s.bcmds.filter fun x => x.wid == c.w.wid).length < 64
        ∧ c.d = some (.v r)) (fun c s =>
      let t := pendingLand (openLanding { s with nextId := s.nextId + 1 } c.w s.nextId (.vec r (c.f.e 10 8 + 1)) true false []) s.nextId
      commanded c t (.rd s.nextId (c.f.e 3 0) (c.f.e 7 4) (c.f.e 10 8 + 1) c.m)))
  ∧ Completes .bkfnIn (fun c s => BankRoom c s ∧ 1 ≤ c.vb.scalar.toNat ∧ c.vb.scalar.toNat ≤ 65536)
      (fun c s => commanded c s (.fnIn c.vb.scalar.toNat))
  ∧ Completes .bkfnOut (fun c s => BankRoom c s ∧ 1 ≤ c.vb.scalar.toNat ∧ c.vb.scalar.toNat ≤ 65536)
      (fun c s => commanded c s (.fnOut c.vb.scalar.toNat))
  ∧ Completes .bred (fun c s => bankFault s c.w.wid = none ∧ c.va.scalar64 % 64 ≠ 0) (fun c s => c.putScalar s 1 1)
  ∧ (∀ bs u, Completes .bred (fun c s => bankFault s c.w.wid = none ∧ c.va.scalar64 % 64 = 0
        ∧ readOwn c s c.va.scalar64 64 = .ok bs u ∧ blockOk c.va.scalar64 bs = false) (fun c _ => c.putScalar u 1 1))
  ∧ (∀ bs u x, Completes .bred (fun c s => bankFault s c.w.wid = none ∧ c.va.scalar64 % 64 = 0
        ∧ readOwn c s c.va.scalar64 64 = .ok bs u ∧ blockOk c.va.scalar64 bs = true
        ∧ u.laneCheck c.w.asid (bytesNat bs 8 8) 1 .write = none ∧ u.lookup c.w.asid (bytesNat bs 8 8) .write = some x
        ∧ (u.jobs.filter fun j => j.stack == stackOf x.pa).length < 16 ∧ unitTurn u (unitReduce (stackOf x.pa)) c.w.wid = true
        ∧ reservedFor u (fun m => m.kind == .red && redStack u m == stackOf x.pa) = false)
      (fun c _ =>
        let t := unitLeave u (unitReduce (stackOf x.pa)) c.w.wid
        let v : State := { t with nextId := t.nextId + 1
                                  jobs := t.jobs ++ [jobOf bs t.nextId c.w.wid c.w.node c.w.asid c.w.pc (stackOf x.pa)] }
        c.putScalar (match specFamily v c.node with | some fid => v.enterHold fid | none => v) 1 0))
  ∧ (∀ cid s c d, s.bcmds.find? (fun c => c.cid == cid) = some c → awake s c = c → cmdReady s c = true →
      let u : State := { s with bcmds := modify (fun x => x.cid == cid) (fun _ => c) s.bcmds }
      (c.pos = 0 ∨ pagesNow u c ≠ c.pages) → cmdCheck u c = .error d → exec (.bankCommandPerform cid) s = .next (faultCmd u c d))
  ∧ (∀ s c d, (s.wave? c.wid).filter (fun w => w.st == .halting) = none → (faultCmd s c d).bcmds =
      modify (fun x => x.cid == c.cid) (fun x => { x with
        fault := some d, count := if x.fkey = some d.addr then x.count else 0, fkey := some d.addr }) s.bcmds)

/-! ### Classes TSK, RAY and REN -/

/-- R300, R302, R304: `tnew` creates an unsubmitted node from a valid record and answers its handle; a queue that is not
enabled answers QUEUE, a record, card or block that fails its checks RECORD, a gang that the part cannot hold GANG, and a full
store or quota NOSPACE. A slot is free when it is given. That a record at no multiple of 64 answers RECORD too, and that the
tiles of a record that fails are not read, are the model's choices (log entry 33). -/
def Obligations.NodesAreCreated : Prop :=
  (∀ x bs u tb v n t, Completes .tnew (fun c s => s.ctx? c.w.asid = some x ∧ queueEnabled x c.vb.scalar.toNat = true
        ∧ c.va.scalar64 % 64 = 0 ∧ readOwn c s c.va.scalar64 64 = .ok bs u ∧ c.f.m 1 0 = 0 ∧ launchOk bs = true
        ∧ readOwn c u (c.va.scalar64 + 64) (16 * (launchOf bs).tiles) = .ok tb v
        ∧ (((List.range (launchOf bs).tiles).map fun i => (tb.drop (16 * i)).take 16).all tileOk) = true
        ∧ gangFits (launchOf bs) = true
        ∧ addNode v x { childNode c v c.vb.scalar.toNat .krn c.va.scalar64 (launchOf bs) with
            tileDescs := (List.range (launchOf bs).tiles).map fun i => (tb.drop (16 * i)).take 16 } = some (n, t))
      (fun c _ => c.putScalar t 1 (handleOf n)))
  ∧ (∀ x bs u n t, Completes .tnew (fun c s => s.ctx? c.w.asid = some x ∧ queueEnabled x c.vb.scalar.toNat = true
        ∧ c.va.scalar64 % 64 = 0 ∧ readOwn c s c.va.scalar64 64 = .ok bs u ∧ c.f.m 1 0 = 1
        ∧ cardOk c.va.scalar64 bs [1, 2, 3, 4] = true
        ∧ addNode u x { childNode c u c.vb.scalar.toNat .eng c.va.scalar64 { prio := c.node.launch.prio } with card := bs } = some (n, t))
      (fun c _ => c.putScalar t 1 (handleOf n)))
  ∧ (∀ x bs u n t, Completes .tnew (fun c s => s.ctx? c.w.asid = some x ∧ queueEnabled x c.vb.scalar.toNat = true
        ∧ c.va.scalar64 % 64 = 0 ∧ readOwn c s c.va.scalar64 64 = .ok bs u ∧ c.f.m 1 0 = 2 ∧ blockOk c.va.scalar64 bs = true
        ∧ addNode u x { childNode c u c.vb.scalar.toNat .red c.va.scalar64 { prio := c.node.launch.prio } with card := bs } = some (n, t))
      (fun c _ => c.putScalar t 1 (handleOf n)))
  ∧ (∀ x, Completes .tnew (fun c s => s.ctx? c.w.asid = some x ∧ queueEnabled x c.vb.scalar.toNat = false)
      (fun c s => c.putScalar s 1 (2 ^ 31 + 6)))
  ∧ (∀ x, Completes .tnew (fun c s => s.ctx? c.w.asid = some x ∧ queueEnabled x c.vb.scalar.toNat = true ∧ c.va.scalar64 % 64 ≠ 0)
      (fun c s => c.putScalar s 1 (2 ^ 31 + 1)))
  ∧ (∀ x bs u, Completes .tnew (fun c s => s.ctx? c.w.asid = some x ∧ queueEnabled x c.vb.scalar.toNat = true
        ∧ c.va.scalar64 % 64 = 0 ∧ readOwn c s c.va.scalar64 64 = .ok bs u
        ∧ (c.f.m 1 0 = 0 ∧ launchOk bs = false ∨ c.f.m 1 0 = 1 ∧ cardOk c.va.scalar64 bs [1, 2, 3, 4] = false
          ∨ c.f.m 1 0 = 2 ∧ blockOk c.va.scalar64 bs = false)) (fun c _ => c.putScalar u 1 (2 ^ 31 + 1)))
  ∧ (∀ x bs u tb v, Completes .tnew (fun c s => s.ctx? c.w.asid = some x ∧ queueEnabled x c.vb.scalar.toNat = true
        ∧ c.va.scalar64 % 64 = 0 ∧ readOwn c s c.va.scalar64 64 = .ok bs u ∧ c.f.m 1 0 = 0 ∧ launchOk bs = true
        ∧ readOwn c u (c.va.scalar64 + 64) (16 * (launchOf bs).tiles) = .ok tb v)
      (fun c _ =>
        let tiles := (List.range (launchOf bs).tiles).map fun i => (tb.drop (16 * i)).take 16
        let node : Node := { childNode c v c.vb.scalar.toNat .krn c.va.scalar64 (launchOf bs) with tileDescs := tiles }
        if tiles.all tileOk = false then c.putScalar v 1 (2 ^ 31 + 1)
        else if gangFits (launchOf bs) = false then c.putScalar v 1 (2 ^ 31 + 7)
        else match addNode v x node with
          | none => c.putScalar v 1 (2 ^ 31 + 2)
          | some (n, t) => c.putScalar t 1 (handleOf n)))
  ∧ (∀ x bs u, Completes .tnew (fun c s => s.ctx? c.w.asid = some x ∧ queueEnabled x c.vb.scalar.toNat = true
        ∧ c.va.scalar64 % 64 = 0 ∧ readOwn c s c.va.scalar64 64 = .ok bs u
        ∧ (c.f.m 1 0 = 1 ∧ cardOk c.va.scalar64 bs [1, 2, 3, 4] = true
            ∧ addNode u x { childNode c u c.vb.scalar.toNat .eng c.va.scalar64 { prio := c.node.launch.prio } with card := bs } = none
          ∨ c.f.m 1 0 = 2 ∧ blockOk c.va.scalar64 bs = true
            ∧ addNode u x { childNode c u c.vb.scalar.toNat .red c.va.scalar64 { prio := c.node.launch.prio } with card := bs } = none))
      (fun c _ => c.putScalar u 1 (2 ^ 31 + 2)))
  ∧ (∀ s x n, (s.nodes.filter fun m => m.asid == x.asid && m.kind != .cont).length < x.quota →
      (addNode s x n = none ↔ Config.nodeSlots ≤ (usedSlots s (queueDie x n.queue)).length))
  ∧ (∀ s x n, x.quota ≤ (s.nodes.filter fun m => m.asid == x.asid && m.kind != .cont).length → addNode s x n = none)
  ∧ (∀ s x n m t, addNode s x n = some (m, t) → t.nodes = s.nodes ++ [m] ∧ m.slot < Config.nodeSlots
      ∧ (usedSlots s (queueDie x n.queue)).contains m.slot = false ∧ m.die = queueDie x n.queue ∧ m.stage = n.stage
      ∧ m.tag = s.tagOf m.die m.slot)

/-- R305 to R307, R309: `tdep` adds an edge, `tsub` submits a node with the next INDEX of its queue, and `tgrow` adds to a
grant; what they refuse answers a failure word and changes nothing else. -/
def Obligations.NodesAreLinkedSubmittedAndGranted : Prop :=
  (∀ m x p, Completes .tdep (fun c s => ownHandle s c c.va.scalar.toNat = some m ∧ s.ctx? c.w.asid = some x
        ∧ predOf s x c.vb.scalar.toNat = .node p ∧ edgeRefused s c m p = false ∧ edgesOf s m.die < Config.edgeSlots)
      (fun c s => c.putScalar (s.setNode { m with preds := p.nid :: m.preds.filter fun k => k != p.nid }) 1 0))
  ∧ (∀ m x, Completes .tdep (fun c s => ownHandle s c c.va.scalar.toNat = some m ∧ s.ctx? c.w.asid = some x
        ∧ predOf s x c.vb.scalar.toNat = .retired) (fun c s => c.putScalar s 1 0))
  ∧ (∀ m x p, Completes .tdep (fun c s => ownHandle s c c.va.scalar.toNat = some m ∧ s.ctx? c.w.asid = some x
        ∧ predOf s x c.vb.scalar.toNat = .node p ∧ edgeRefused s c m p = true) (fun c s => c.putScalar s 1 (2 ^ 31 + 5)))
  ∧ (∀ m x k, Completes .tdep (fun c s => ownHandle s c c.va.scalar.toNat = some m ∧ s.ctx? c.w.asid = some x
        ∧ predOf s x c.vb.scalar.toNat = .bad k) (fun c s => c.putScalar s 1 (2 ^ 31 + k)))
  ∧ (∀ m x p, Completes .tdep (fun c s => ownHandle s c c.va.scalar.toNat = some m ∧ s.ctx? c.w.asid = some x
        ∧ predOf s x c.vb.scalar.toNat = .node p ∧ edgeRefused s c m p = false ∧ Config.edgeSlots ≤ edgesOf s m.die)
      (fun c s => c.putScalar s 1 (2 ^ 31 + 2)))
  ∧ Completes .tdep (fun c s => ownHandle s c c.va.scalar.toNat = none) (fun c s => c.putScalar s 1 (2 ^ 31 + 3))
  ∧ (∀ m x tq, Completes .tsub (fun c s => ownHandle s c c.va.scalar.toNat = some m ∧ s.ctx? c.w.asid = some x
        ∧ (m.preds.any fun p => (match s.node? p with | some k => k.queue == m.queue && k.stage == .unsubmitted | none => false)) = false
        ∧ (windowOf s x.asid m.queue).length < Config.window ∧ x.queues[m.queue]? = some tq)
      (fun c s =>
        let n := { m with index := some tq.next, stage := if m.preds.isEmpty then .ready else .waiting, readyAt := s.ns }
        let t := (s.setNode n).setCtx { x with queues := x.queues.set m.queue { tq with next := tq.next + 1 } }
        c.putScalar t 1 (State.taskId n)))
  ∧ (∀ m x, Completes .tsub (fun c s => ownHandle s c c.va.scalar.toNat = some m ∧ s.ctx? c.w.asid = some x
        ∧ (m.preds.any fun p => (match s.node? p with | some k => k.queue == m.queue && k.stage == .unsubmitted | none => false)) = false
        ∧ Config.window ≤ (windowOf s x.asid m.queue).length) (fun c s => c.putScalar s 1 (2 ^ 31 + 4)))
  ∧ Completes .tsub (fun c s => ownHandle s c c.va.scalar.toNat = none) (fun c s => c.putScalar s 1 (2 ^ 31 + 3))
  ∧ (∀ a, Completes .tgrow (fun c s => (c.det = false ∨ c.va.scalar = 0) ∧ s.array? c.w.core c.w.quad c.w.bank = some a
        ∧ a.holder = c.w.node ∧ 1 ≤ a.grant ∧ unitsGranted s c.w.core c.w.quad + c.va.scalar.toNat ≤ Config.accUnits)
      (fun c s => c.putScalar (s.setArray { a with grant := a.grant + c.va.scalar.toNat }) 1 (a.grant + c.va.scalar.toNat)))
  ∧ (∀ a, Completes .tgrow (fun c s => (c.det = false ∨ c.va.scalar = 0) ∧ s.array? c.w.core c.w.quad c.w.bank = some a
        ∧ (a.holder ≠ c.w.node ∨ a.grant = 0 ∨ Config.accUnits < unitsGranted s c.w.core c.w.quad + c.va.scalar.toNat))
      (fun c s => c.putScalar s 1 (2 ^ 31 + 8)))
  ∧ Completes .tgrow (fun c s => (c.det = false ∨ c.va.scalar = 0) ∧ s.array? c.w.core c.w.quad c.w.bank = none)
      (fun c s => c.putScalar s 1 (2 ^ 31 + 8))

/-- R308, R310, R328: `talloc` issues one access for the lanes that act, in the order of the waves under DET; `tabort`
removes an unsubmitted node, or ends the issuing task. -/
def Obligations.AllocationAndAbortActOnTheTask : Prop :=
  (∀ r, Completes .talloc (fun c s => c.contDet = false ∧ (c.det = false ∨ tallocTurn s c.w = true) ∧ c.d = some (.v r)
        ∧ dataMatch s c true true 16 (fun _ => c.va.scalar64) = none ∧ c.va.scalar64 % 16 = 0
        ∧ s.laneCheck c.w.asid c.va.scalar64 8 .write = none ∧ outstFull c.w (maskCount c.m) = false)
      (fun c s =>
        let u := addAccess { s with nextId := s.nextId + 1 }
          { id := 0, gid := s.nextId, wid := c.w.wid, node := c.w.node, core := c.w.core, lane := 0
            kind := .talloc ((maskBits c.m).map fun l => (l, (c.vb.w l).toNat)), space := .glob, scope := 3, asid := c.w.asid
            addr := c.va.scalar64, size := 16, data2 := c.w.tallocs
            cached := match s.lookup c.w.asid c.va.scalar64 .write with | some t => !t.uncached | none => true }
        openLanding (reachTalloc (addOutst u c.w.wid (maskCount c.m)) c.w) c.w s.nextId (.vec r 2) true false []))
  ∧ Blocks .talloc (fun c s => c.contDet = false ∧ c.det = true ∧ tallocTurn s c.w = false)
  ∧ Traps .talloc (fun c _ => c.contDet = true) kDET
  ∧ (∀ n, Completes .tabortNode (fun c s => ownHandle s c c.va.scalar.toNat = some n)
      (fun c s => c.putScalar ((s.releaseDependents n.nid).freeNode n) 1 0))
  ∧ Completes .tabortNode (fun c s => ownHandle s c c.va.scalar.toNat = none) (fun c s => c.putScalar s 1 (2 ^ 31 + 3))
  ∧ (∀ f s c, ready (.tabortSelf f) f s = some c → (match (s.nodeOf c.w).fam.bind s.fam? with
        | some g => g.owner != (s.nodeOf c.w).nid || g.st == .direct | none => true) = true → (s.nodeOf c.w).kind ≠ .eng →
      exec (.tabortSelf f) s = .next (haltAll (abortChildren (start s) (s.nodeOf c.w).nid) (s.nodeOf c.w).nid
        |>.setNode { s.nodeOf c.w with status := 2, placed := max (s.nodeOf c.w).placed (s.nodeOf c.w).launch.waves }))
  ∧ (∀ f s c g, ready (.tabortSelf f) f s = some c → (s.nodeOf c.w).fam.bind s.fam? = some g → g.owner = (s.nodeOf c.w).nid →
      g.st ≠ .direct → exec (.tabortSelf f) s = .next
        (let n := s.nodeOf c.w
         let t := (start s).cancelMembers n.nid n.fam
         let t := t.cancelNodes ((t.nodes.filter fun m => m.birth == some g.fid || (m.creator == some n.nid && m.stage == .unsubmitted)).map (·.nid))
         let t := (t.rangeRecs n.nid).foldl (fun t r => t.appendRec r .nothing) t
         ((t.dropWaves fun w => w.node == n.nid).discardFamily g.fid).setNode { n with fam := none, status := 1, stage := .complete }))

/-- R380, R381, R383: `kbind` reads its block and layout and answers a status; `trace` and `tracec` cast the rays of
the acting lanes, and the wave that is left with none halts. The order of the checks of `kbind` is the model's (log
entry 18). -/
def Obligations.RaysAreBoundAndCast : Prop :=
  (∀ x bs u lb v, Completes .kbind (fun c s => readOwn c s c.va.scalar64 64 = .ok bs u ∧ u.ctx? c.w.asid = some x ∧ x.raycap ≠ 0
        ∧ blockRanges bs = true ∧ readOwn c u (bytesNat bs 8 8) 64 = .ok lb v ∧ layoutOk lb = true
        ∧ (v.rays.any fun r => r.asid == c.w.asid && r.slot == c.f.e 3 0 && r.running) = false)
      (fun c _ =>
        let b : Binding := { asid := c.w.asid, slot := c.f.e 3 0, prog := bytesNat bs 0 8, root := bytesNat bs 0x10 8
                             plen := bytesNat bs 0x18 4, lay := layoutOf lb, since := v.nextId }
        let t := { v with bindings := b :: v.bindings.filter fun y => !(y.asid == c.w.asid && y.slot == c.f.e 3 0) }
        c.putScalar (t.partWrite c.w.asid (x.raybase + 64 * c.f.e 3 0) bs) 1 0))
  ∧ (∀ x bs u lb v, Completes .kbind (fun c s => readOwn c s c.va.scalar64 64 = .ok bs u ∧ u.ctx? c.w.asid = some x ∧ x.raycap ≠ 0
        ∧ blockRanges bs = true ∧ readOwn c u (bytesNat bs 8 8) 64 = .ok lb v ∧ layoutOk lb = true ∧ c.det = false
        ∧ (v.rays.any fun r => r.asid == c.w.asid && r.slot == c.f.e 3 0 && r.running) = true)
      (fun c _ => c.putScalar v 1 1))
  ∧ (∀ x bs u, Completes .kbind (fun c s => readOwn c s c.va.scalar64 64 = .ok bs u ∧ u.ctx? c.w.asid = some x
        ∧ (x.raycap = 0 ∨ blockRanges bs = false)) (fun c _ => c.putScalar u 1 2))
  ∧ (∀ i : Fields → Instr, i = .trace ∨ i = .tracec → ∀ f s c x b base, ready (i f) f s = some c →
      let cont := if i f = .trace f then (c.w.pc + 12).toNat else c.vc.scalar64
      (start s).ctx? c.w.asid = some x → (start s).binding? c.w.asid (f.m 3 0) = some b → c.d = some (.v base) → cont % 4 = 0 →
      (∀ k ∈ maskBits c.vb.scalar, base + k < c.w.allot ∧ c.w.vfull (base + k) = true) → storesAcked s c.w.wid s.nextId = true →
      (s.rays.filter fun r => r.asid == c.w.asid).length + maskCount c.m ≤ x.raycap → unitTurn s (unitRays c.w.asid) c.w.wid = true →
        (c.w.exec &&& ~~~c.m ≠ 0 → exec (i f) s = .next (ends c
          (let t := { unitLeave (start s) (unitRays c.w.asid) c.w.wid with nextId := s.nextId + 1 }
           let t := (maskBits c.m).foldl (castRay c x b (BitVec.ofNat 64 cont) base s.nextId) t
           t.setWave { c.wave t with exec := c.w.exec &&& ~~~c.m })))
        ∧ (c.w.exec &&& ~~~c.m = 0 → NoDeferred c (start s) → streamAgain (start s) c.w = false → bankAgain (start s) c.w.wid = false →
          stoppedStream (start s) c.w = none → releasedWork (start s) c.w = false → leaveHeld (start s) c.w = false →
          exec (i f) s = .next
          (let t := { unitLeave (start s) (unitRays c.w.asid) c.w.wid with nextId := s.nextId + 1 }
           let t := popAll ((maskBits c.m).foldl (castRay c x b (BitVec.ofNat 64 cont) base s.nextId) t) c.w c.m c.pops
           haltWave t { c.wave t with exec := 0 })))
  ∧ (∀ c x b cont base ord s l, ∃ r : Ray, (castRay c x b cont base ord s l).rays = s.rays ++ [r] ∧ r.asid = c.w.asid
      ∧ r.owner = rayOwner c.node ∧ r.node = b.root ∧ r.pc = 0 ∧ r.cont = cont ∧ r.mask = c.vb.scalar ∧ r.stack = []
      ∧ r.origin = [(c.va.w l 0).toNat, (c.va.w l 1).toNat, (c.va.w l 2).toNat] ∧ r.tmin = (c.va.w l 3).toNat
      ∧ r.dir = [(c.va.w l 4).toNat, (c.va.w l 5).toNat, (c.va.w l 6).toNat] ∧ r.tmax = (c.va.w l 7).toNat
      ∧ r.live = (maskBits c.vb.scalar).map (fun i => c.w.vl (base + i) l)
      ∧ (r.place = .ended ∧ r.status = 6 ∨ r.place = .queued ∧ rayEmpty r.tmin r.tmax = false))

/-- R397, R398: a continuation wave reads the live values and the hit record of each lane's ray, and gives its records up. Words that
software has written, which takes a page of the ray area without G (R377), are open (log entry 2). -/
def Obligations.ContinuationRecordsAreRead : Prop :=
  (∀ base, Completes .cgetLive (fun c _ => c.d = some (.v base) ∧ mayGet c.w = true
        ∧ ∀ i ∈ maskBits c.vb.scalar, base + i < c.w.allot ∧ c.w.vfull (base + i) = true)
      (fun c s =>
        let bits := maskBits c.vb.scalar
        let x := (maskBits c.m).foldl (laneRecord c fun r => bits.map (liveValue r)) ({ s with nextId := s.nextId + 1 }, [])
        openLanding x.1 c.w s.nextId (.regs (bits.map fun i => base + i)) false false x.2))
  ∧ (∀ base, Completes .cgetHit (fun c _ => c.d = some (.v base) ∧ mayGet c.w = true)
      (fun c s =>
        let x := (maskBits c.m).foldl (laneRecord c fun r => [r.hitT, r.hitPrim, r.hitInst, r.hitUv, r.status])
          ({ s with nextId := s.nextId + 1 }, [])
        openLanding x.1 c.w s.nextId (.vec base 5) false false x.2))
  ∧ (∀ c val s vs l r, laneRay s c.w l = some r → raySpoiled s r = false → laneRecord c val (s, vs) l = (s, vs ++ [(l, packWords (val r))]))
  ∧ Traps .cgetLive (fun c _ => (∃ b, c.d = some (.v b)) ∧ (c.w.cont = none ∨ c.w.cendDone = true)) kILLOPND
  ∧ Traps .cgetHit (fun c _ => (∃ b, c.d = some (.v b)) ∧ (c.w.cont = none ∨ c.w.cendDone = true)) kILLOPND
  ∧ Completes .cend (fun c _ => c.w.cont = none) (fun _ s => s)
  ∧ Completes .cend (fun c _ => c.w.cont ≠ none) (fun c s =>
      let t := s.freeRays fun r => r.place == .inWave c.w.node
      t.setWave { c.wave t with cendDone := true })

/-- R406, R410 to R412, R418: the texture instructions and the reads of a finished pass read their lanes as loads,
whose values land later in D. That all texels of a footprint are read at issue is the model's (log entry 19). -/
def Obligations.SamplingInstructionsReadTheirLanes : Prop :=
  (∀ bs u d, Completes .tex (fun c s => Described c s 32 texOk bs u ∧ c.d = some (.v d) ∧ Readable c u
        (fun l => (laneFootprint c (texOf bs) (c.f.m 0 0 == 1) l).flatMap (·.reads))
        (fun l ds => let x := sampleOf (texOf bs) (laneFootprint c (texOf bs) (c.f.m 0 0 == 1) l) ds
          (packWords ((List.range 4).map fun k => toF32 (unorm (texOf bs).fmt
            (if c.f.m 0 0 == 1 then filterChannel x.1 k else ((x.1.getD 0 (0, [])).2).getD k (ofInt 0)))), x.2)))
      (fun c _ => (landRead c (lanesRead c u
        (fun l => (laneFootprint c (texOf bs) (c.f.m 0 0 == 1) l).flatMap (·.reads))
        (fun l ds => let x := sampleOf (texOf bs) (laneFootprint c (texOf bs) (c.f.m 0 0 == 1) l) ds
          (packWords ((List.range 4).map fun k => toF32 (unorm (texOf bs).fmt
            (if c.f.m 0 0 == 1 then filterChannel x.1 k else ((x.1.getD 0 (0, [])).2).getD k (ofInt 0)))), x.2))) d 4).2))
  ∧ (∀ bs u d, Completes .texg (fun c s => Described c s 32 texOk bs u ∧ c.d = some (.v d) ∧ Readable c u
        (fun l => (laneFootprint c (texOf bs) true l).flatMap (·.reads))
        (fun l ds => let x := sampleOf (texOf bs) (laneFootprint c (texOf bs) true l) ds
          (packWords (x.1.map fun e => toF32 (unorm (texOf bs).fmt (e.2.getD (c.f.m 1 0) (ofInt 0)))), x.2)))
      (fun c _ => (landRead c (lanesRead c u
        (fun l => (laneFootprint c (texOf bs) true l).flatMap (·.reads))
        (fun l ds => let x := sampleOf (texOf bs) (laneFootprint c (texOf bs) true l) ds
          (packWords (x.1.map fun e => toF32 (unorm (texOf bs).fmt (e.2.getD (c.f.m 1 0) (ofInt 0)))), x.2))) d 4).2))
  ∧ (∀ bs u d x m v, Completes .texn (fun c s => Described c s 32 texOk bs u ∧ c.d = some (.v d) ∧ u.ctx? c.w.asid = some x
        ∧ x.mattab ≠ 0 ∧ 3 ≤ (texOf bs).fmt ∧ readOwn c u (x.mattab + 512 * c.f.e 17 12) 512 = .ok m v ∧ materialOk m = true
        ∧ Readable c v (fun l => (laneFootprint c (texOf bs) true l).flatMap (·.reads))
          (fun l ds => let x := sampleOf (texOf bs) (laneFootprint c (texOf bs) true l) ds
            (packWords (material m ((List.range (byteN m 0)).map fun i => (fp16.round mRNE false (filterChannel x.1 i)).1)), x.2)))
      (fun c _ => (landRead c (lanesRead c v (fun l => (laneFootprint c (texOf bs) true l).flatMap (·.reads))
          (fun l ds => let x := sampleOf (texOf bs) (laneFootprint c (texOf bs) true l) ds
            (packWords (material m ((List.range (byteN m 0)).map fun i => (fp16.round mRNE false (filterChannel x.1 i)).1)), x.2))) d 4).2))
  ∧ Traps .tex (fun c _ => c.vc.scalar64 % 32 ≠ 0) kILLOPND ∧ Traps .texg (fun c _ => c.vc.scalar64 % 32 ≠ 0) kILLOPND
  ∧ Traps .texn (fun c _ => c.vc.scalar64 % 32 ≠ 0) kILLOPND
  ∧ (∀ ds u d, let reads c l := match pixelOf ds (Ctx.va c |>.w l) with
                  | some p => [(pdVis ds + (p * pdNs ds + c.f.e 14 12) * 8, 8)] | none => []
      let val := fun (_ : Nat) (bs : List (List Byte)) => match bs with | b :: _ => (leNat b, 0) | [] => (packWords [0, 0xFFFFFFFF], 0)
      Completes .vbrd (fun c s => Described c s 128 passOk ds u ∧ pdState ds = 3 ∧ c.d = some (.v d) ∧ c.f.e 14 12 < pdNs ds
        ∧ Readable c u (reads c) val) (fun c _ => (landRead c (lanesRead c u (reads c) val) d 2).2))
  ∧ (∀ ds u d, let reads c l := match pixelOf ds (Ctx.va c |>.w l) with | some p => [(pdStat ds + 8 * p, 8)] | none => []
      let val := fun (_ : Nat) (bs : List (List Byte)) => match bs with | b :: _ => (leNat b, 0) | [] => (packWords [4, 0xFFFFFFFF], 0)
      Completes .rpq (fun c s => Described c s 128 passOk ds u ∧ pdState ds = 3 ∧ c.d = some (.v d) ∧ pdPrev ds ≠ 0
        ∧ Readable c u (reads c) val) (fun c _ => (landRead c (lanesRead c u (reads c) val) d 2).2))

/-- R413, R414, R416, R418, R420: emission into a pass, its close, the attributes of survivors and the conversion of
colour tiles. The model's readings are in log entry 19; a value that a pass leaves which software has spoiled is a free one
(R1, log entry 2). -/
def Obligations.PassInstructionsEmitAndConvert : Prop :=
  (∀ ds u p k n t q, Completes .pemit (fun c s => PassRead c s ds u ∧ u.livePass c.w.asid c.vc.scalar64 = some p
        ∧ p.st = .opened ∧ p.held = false ∧ p.part = [] ∧ p.asid = c.w.asid ∧ p.desc = c.vc.scalar64
        ∧ emitLanes c p.desc p.bytes (maskBits c.m) 0 0 u = (k, n, .ok t)
        ∧ t.livePass c.w.asid c.vc.scalar64 = some q ∧ q.part = [])
      (fun c _ => let x := passVal (t.setPass q) c.w.asid c.vc.scalar64 4 n.toNat
        c.putPred x.2 c.m (BitVec.ofNat 32 x.1)))
  ∧ (∀ s asid desc n v, (∀ p, s.livePass asid desc = some p → passSpoiled s p = false) →
      passVal s asid desc n v = (v % 2 ^ (8 * n), s))
  ∧ (∀ ds u p, ∀ f s c, ready (.pemit f) f s = some c → PassRead c (start s) ds u → pdState ds < 2 →
      u.livePass c.w.asid c.vc.scalar64 = none → (openPass c u c.vc.scalar64 ds).livePass c.w.asid c.vc.scalar64 = some p →
        exec (.pemit f) s = .next (finish c (start s) (emitInto c (openPass c u c.vc.scalar64 ds) p)))
  ∧ (∀ ds u p, ∀ f s c, ready (.pemit f) f s = some c → PassRead c (start s) ds u →
      u.livePass c.w.asid c.vc.scalar64 = some p → (p.part.any fun x => x.1 == c.w.wid) = true →
        exec (.pemit f) s = .next (finish c (start s) (emitInto c u p)))
  ∧ (∀ ds u, Completes .pemit (fun c s => PassRead c s ds u
        ∧ ((∃ p, u.livePass c.w.asid c.vc.scalar64 = some p ∧ p.st = .closing ∧ (p.part.any fun x => x.1 == c.w.wid) = false)
          ∨ (u.livePass c.w.asid c.vc.scalar64 = none ∧ 2 ≤ pdState ds)))
      (fun c _ => c.putPred (addField u c.w.asid c.vc.scalar64 oLATE (maskCount c.m)) c.m 0))
  ∧ (∀ ds u p, Completes .pemitClose (fun c s => PassRead c s ds u ∧ u.livePass c.w.asid c.vc.scalar64 = some p ∧ p.st = .opened)
      (fun c _ => (putField u c.w.asid c.vc.scalar64 0x4D 1 2).setPass
        { p with st := .closing, closer := some c.w.node, task := State.taskId c.node, pc := c.w.pc, node := c.w.node }))
  ∧ (∀ ds u cb v kb w, let pos c l := survPos (survKeys ds cb kb) ((Ctx.vb c |>.w l).toNat)
      Completes .aemit (fun c s => Described c s 128 passOk ds u ∧ pdState ds = 3 ∧ 4 * (c.f.e 15 12 + 1) ≤ pdStride ds
        ∧ readOwn c u (pdSurv ds) 4 = .ok cb v ∧ readOwn c v (pdSurv ds + 4) (4 * min (leNat cb) (pdSurvCap ds)) = .ok kb w
        ∧ (∀ l ∈ maskBits c.m, ∀ a ∈ attrAddrs ds (c.f.e 15 12 + 1) (pos c l), w.laneCheck c.w.asid a 4 .write = none)
        ∧ outstFull c.w ((maskBits c.m).foldl (fun k l => k + (attrAddrs ds (c.f.e 15 12 + 1) (pos c l)).length) 0) = false)
      (fun c _ =>
        let g := groupOf w c.w
        let t := issueAttrs g.2 c g.1 c.m fun l => attrAddrs ds (c.f.e 15 12 + 1) (pos c l)
        let t := addOutst t c.w.wid ((maskBits c.m).foldl (fun k l => k + (attrAddrs ds (c.f.e 15 12 + 1) (pos c l)).length) 0)
        c.putPred t c.m (maskOf fun l => (pos c l).isSome)))
  ∧ (∀ i : Fields → Instr, ∀ op, (i = .ccdcDec ∧ op = 0 ∨ i = .ccdcEnc ∧ op = 1 ∨ i = .ccfc ∧ op = 2) → ∀ bs u,
      Completes i (fun c s => Described c s 32 texOk bs u ∧ (texOf bs).fmt = 0 ∧ (texOf bs).surf ≠ 0
        ∧ (∀ l ∈ maskBits (tileLanes c (texOf bs)), tileFault u c (texOf bs) l = none)
        ∧ outstFull c.w (maskCount (tileLanes c (texOf bs))) = false)
      (fun c _ =>
        let g := groupOf u c.w
        addOutst (issueTiles g.2 c g.1 (tileLanes c (texOf bs)) (texOf bs) op) c.w.wid (maskCount (tileLanes c (texOf bs)))))
  ∧ (∀ colour m d, m / 64 = 1 → 4 ≤ d.length → convertTile 0 colour m d = some (0, (List.replicate 64 (d.take 4)).flatten))
  ∧ (∀ colour m d, convertTile 2 colour m d = some (0x40, leBytes 4 colour))
  ∧ (∀ m d, m / 64 ≠ 0 → ∀ colour, convertTile 1 colour m d = none) ∧ (∀ m d, m / 64 = 0 → ∀ colour, convertTile 0 colour m d = none)

/-! ### Kite microcode -/

/-- R389 to R391: loading nodes, the box and triangle tests, and the stack of a ray; a node at no multiple of 16, a child that is
not there and a push of one end the ray with ILLEGAL, and a full stack with STACK (R392). Bytes that software has written since the `trace` are open (R401). -/
def Obligations.KiteInstructionsLoadTestAndStack : Prop :=
  KiteLoads .kiteNld (fun _ _ r => some r.node) ∧ KiteLoads .kiteNldRoot (fun _ b _ => some b.root)
  ∧ KiteLoads .kiteNldChild (fun k b r => childAddr b r ((r.reg k.ka).toNat % 16))
  ∧ KiteEnds .kiteNldChild (fun k b r => childAddr b r ((r.reg k.ka).toNat % 16) = none) (fun _ _ r => r) 4
  ∧ (∀ t, KiteGoes .kiteBxi (fun k b r => r.nb = true ∧ b.lay.boxFmt ≠ 0 ∧ (r.reg k.ka).toNat % 16 < b.lay.nBox
        ∧ boxHit b.lay r (boxOf b.lay r.buf ((r.reg k.ka).toNat % 16)) = some t)
      (fun k _ r => { r.put k.kd.toNat (BitVec.ofNat 32 (t / 16 * 16 + (r.reg k.ka).toNat % 16)) with cond := true }))
  ∧ KiteGoes .kiteBxi (fun k b r => r.nb = true ∧ b.lay.boxFmt ≠ 0 ∧ ((r.reg k.ka).toNat % 16 < b.lay.nBox →
        boxHit b.lay r (boxOf b.lay r.buf ((r.reg k.ka).toNat % 16)) = none))
      (fun k _ r => { r.put k.kd.toNat 0xFFFFFFFF with cond := false })
  ∧ KiteEnds .kiteBxi (fun _ b r => r.nb = false ∨ b.lay.boxFmt = 0) (fun _ _ r => r) 4
  ∧ (∀ t uv, let word (b : Binding) (r : Ray) (i j : Nat) : Nat := bytesNat r.buf (b.lay.leafOff + 40 * i + 4 * j) 4
      KiteGoes .kiteTxi (fun k b r => r.nb = true ∧ b.lay.leafFmt = 1 ∧ (r.reg k.ka).toNat % 16 < b.lay.nLeaf
        ∧ triHit b.lay r ((List.range 9).map (word b r ((r.reg k.ka).toNat % 16))) = some (t, uv))
      (fun k b r => { ((r.put k.kd.toNat (BitVec.ofNat 32 t)).put (k.kd.toNat + 1) (BitVec.ofNat 32 uv)).put (k.kd.toNat + 2)
        (BitVec.ofNat 32 (word b r ((r.reg k.ka).toNat % 16) 9)) with cond := true }))
  ∧ KiteGoes .kiteTxi (fun k b r => r.nb = true ∧ b.lay.leafFmt = 1 ∧ ((r.reg k.ka).toNat % 16 < b.lay.nLeaf →
        triHit b.lay r ((List.range 9).map fun j =>
          bytesNat r.buf (b.lay.leafOff + 40 * ((r.reg k.ka).toNat % 16) + 4 * j) 4) = none))
      (fun _ _ r => { r with cond := false })
  ∧ KiteEnds .kiteTxi (fun _ b r => r.nb = false ∨ b.lay.leafFmt ≠ 1) (fun _ _ r => r) 4
  ∧ (∀ a, KiteGoes .kitePush (fun k b r => childAddr b r ((r.reg k.ka).toNat % 16) = some a ∧ r.stack.length < 12)
      (fun _ _ r => { r with stack := r.stack ++ [a % 2 ^ 53] }))
  ∧ (∀ a, KiteEnds .kitePush (fun k b r => childAddr b r ((r.reg k.ka).toNat % 16) = some a ∧ 12 ≤ r.stack.length) (fun _ _ r => r) 3)
  ∧ KiteEnds .kitePush (fun k b r => childAddr b r ((r.reg k.ka).toNat % 16) = none) (fun _ _ r => r) 4
  ∧ KiteGoes .kitePushTag (fun _ _ r => r.stack.length < 12) (fun k _ r => { r with stack := r.stack ++ [k.imm.toNat % 256 * 2 ^ 56] })
  ∧ KiteEnds .kitePushTag (fun _ _ r => 12 ≤ r.stack.length) (fun _ _ r => r) 3
  ∧ (∀ s r fam a n, (∀ bs t, homeRead s r.asid fam a n = .ok (bs, t) → t.writtenSince r.asid a n r.rid = false) →
      rayRead s r fam a n = homeRead s r.asid fam a n)
  ∧ KiteGoes .kitePop (fun _ _ r => r.stack = []) (fun _ _ r => { r with cond := false })
  ∧ (∀ l x, KiteGoes .kitePop (fun _ _ r => r.stack = l ++ [x] ∧ x / 2 ^ 56 % 256 ≠ 0)
      (fun k _ r => { r.put k.kd.toNat (BitVec.ofNat 32 (x / 2 ^ 56 % 256)) with stack := l, cond := true }))
  ∧ (∀ l x, KiteGoes .kitePop (fun _ _ r => r.stack = l ++ [x] ∧ x / 2 ^ 56 % 256 = 0)
      (fun k _ r => { r.put k.kd.toNat 0 with stack := l, cond := true, node := x % 2 ^ 53, nb := false }))

/-- R389, R391, R392: registers, comparison, flow, hits and instances of a ray. A label outside the program is illegal
even where no jump is taken (log entry 18). -/
def Obligations.KiteInstructionsComputeJumpAndAccept : Prop :=
  (∀ k s r b, KiteReady (.kiteSrt k) s r b → ∃ l : List Word, l.Perm ((r.k.drop k.kd.toNat).take k.imm.toNat)
      ∧ l.Pairwise (fun a b => a.toNat ≤ b.toNat)
      ∧ exec (.kiteSrt k) s = .next ((kiteStart s).setRay { r with
          k := r.k.take k.kd.toNat ++ l ++ r.k.drop (k.kd.toNat + k.imm.toNat), pc := (r.pc + 1) % 65536, fkey := none, count := 0 }))
  ∧ KiteGoes .kiteCmp (fun _ _ _ => True) (fun k _ r => { r with cond := kiteCond (k.sub.toNat % 8) (r.reg k.ka) (r.reg k.kb) })
  ∧ KiteGoes .kiteCmpImm (fun _ _ _ => True) (fun k _ r => { r with cond := kiteCond (k.sub.toNat % 8) (r.reg k.ka) k.imm })
  ∧ KiteJumps .kiteBr (fun k b r => k.imm.toNat < b.plen ∧ r.cond = true) (fun _ _ r => r) (fun k _ => k.imm.toNat)
  ∧ KiteGoes .kiteBr (fun k b r => k.imm.toNat < b.plen ∧ r.cond = false) (fun _ _ r => r)
  ∧ KiteJumps .kiteBrn (fun k b r => k.imm.toNat < b.plen ∧ r.cond = false) (fun _ _ r => r) (fun k _ => k.imm.toNat)
  ∧ KiteGoes .kiteBrn (fun k b r => k.imm.toNat < b.plen ∧ r.cond = true) (fun _ _ r => r)
  ∧ KiteJumps .kiteJmp (fun k b _ => k.imm.toNat < b.plen) (fun _ _ r => r) (fun k _ => k.imm.toNat)
  ∧ (∀ i : KFields → Instr, i = .kiteBr ∨ i = .kiteBrn ∨ i = .kiteJmp ∨ i = .kiteCall →
      KiteEnds i (fun k b _ => b.plen ≤ k.imm.toNat) (fun _ _ r => r) 4)
  ∧ KiteEnds .kiteJmpReg (fun k b r => b.plen ≤ (r.reg k.ka).toNat % 65536) (fun _ _ r => r) 4
  ∧ KiteJumps .kiteJmpReg (fun k b r => (r.reg k.ka).toNat % 65536 < b.plen) (fun _ _ r => r) (fun k r => (r.reg k.ka).toNat % 65536)
  ∧ KiteJumps .kiteCall (fun k b _ => k.imm.toNat < b.plen) (fun k _ r => r.put k.kd.toNat (BitVec.ofNat 32 (r.pc + 1)))
      (fun k _ => k.imm.toNat)
  ∧ KiteGoes .kiteAcpt (fun _ _ _ => True) (fun k b r => acceptHit b r k.ka)
  ∧ KiteEnds .kiteHit (fun _ _ _ => True) (fun k b r => acceptHit b r k.ka) 2
  ∧ (∀ b r ka, (acceptHit b r ka).hit = true ∧ (acceptHit b r ka).tmax = (r.k.getD ka.toNat 0).toNat
      ∧ (acceptHit b r ka).hitT = (r.k.getD ka.toNat 0).toNat ∧ (acceptHit b r ka).hitUv = (r.k.getD (ka.toNat + 1) 0).toNat
      ∧ (acceptHit b r ka).hitPrim = (r.k.getD (ka.toNat + 2) 0).toNat ∧ (r.inst = false → (acceptHit b r ka).hitInst = 0xFFFFFFFF))
  ∧ (∀ k s r b bs t, let i := (r.reg k.ka).toNat % 16
      let a := bytesNat r.buf (b.lay.leafOff + 8 * i) 8
      KiteReady (.kiteIxf k) s r b → r.nb = true → r.inst = false → b.lay.leafFmt = 2 → i < b.lay.nLeaf →
      rayRead (kiteStart s) r (s.specFam r.owner) a b.lay.instSize = .ok (bs, t) →
        exec (.kiteIxf k) s = .next (t.setRay { (r.put k.kd.toNat (wordI a 0)).put (k.kd.toNat + 1) (wordI a 1) with
          icopy := bs, inst := true, ipair := k.kd.toNat / 2, node := bytesNat bs b.lay.rootOff 8, nb := false
          pc := (r.pc + 1) % 65536, fkey := none, count := 0 }))
  ∧ KiteEnds .kiteIxf (fun k b r => r.nb = false ∨ r.inst = true ∨ b.lay.leafFmt ≠ 2 ∨ b.lay.nLeaf ≤ (r.reg k.ka).toNat % 16)
      (fun _ _ r => r) 4
  ∧ KiteGoes .kiteItl (fun _ _ _ => True) (fun _ _ r => { r with inst := false })
  ∧ KiteGoes .kiteMov (fun _ _ _ => True) (fun k _ r => r.put k.kd.toNat (r.reg k.ka))
  ∧ KiteGoes .kiteMovImm (fun _ _ _ => True) (fun k _ r => r.put k.kd.toNat k.imm)
  ∧ KiteGoes .kiteMovN (fun k b r => r.nb = true ∧ k.imm.toNat < b.lay.nodeSize)
      (fun k _ r => r.put k.kd.toNat (BitVec.ofNat 32 (bytesNat r.buf k.imm.toNat 4)))
  ∧ KiteEnds .kiteMovN (fun k b r => r.nb = false ∨ b.lay.nodeSize ≤ k.imm.toNat) (fun _ _ r => r) 4
  ∧ KiteGoes .kiteMovT (fun _ _ _ => True) (fun k _ r => r.put k.kd.toNat (BitVec.ofNat 32 (if k.imm = 0 then r.tmin else r.tmax)))
  ∧ KiteGoes .kiteAdd (fun _ _ _ => True) (fun k _ r => r.put k.kd.toNat (r.reg k.ka + r.reg k.kb))
  ∧ KiteGoes .kiteAddImm (fun _ _ _ => True) (fun k _ r => r.put k.kd.toNat (r.reg k.ka + k.imm))
  ∧ KiteEnds .kiteEnd (fun _ _ _ => True) (fun _ _ r => r) 1
  ∧ (∀ i : KFields → Instr, i = .kiteNld ∨ i = .kiteCmp ∨ i = .kiteAcpt ∨ i = .kiteEnd → ∀ k s r, s.curRay.bind s.ray? = some r →
      s.binding? r.asid r.slot ≠ none → kiteFieldsOk (i k) = false → exec (i k) s = .next (endRay (kiteStart s) r 4))

/-! ### The part's own work -/

/-- R180, R183, R202, R210, R216, R218, R324: an access that nothing holds back is performed at its place; an atomic
that meets an open line is deferred; a write that a speculative family may not make puts the family in HOLD. That an
access is an event of its own, performed when the schedule says, is the model's (log entries 3 and 12). -/
def Obligations.AccessesArePerformedAtTheirPlace : Prop :=
  (∀ id s a acq inst z t, s.acc? id = some a → a.kind = .load acq inst z → a.st = .issued → admission s a = .go t →
    exec (.loadAtHome id) s = .next ((twins s a).foldl (performLoad inst t) s))
  ∧ (∀ s a, ∀ x ∈ twins s a, x.gid = a.gid ∧ x.addr = a.addr ∧ x.size = a.size ∧ x.kind = a.kind ∧ x.st = .issued)
  ∧ (∀ inst t s a, performLoad inst t s a = (let r := readAtPlace s a t inst
      { r.2 with
        lands := modify (fun l => l.gid == a.gid) (fun l => { l with vals := l.vals ++ [(a.lane, extend a.data r.1)] }) r.2.lands
        accs := r.2.accs.filter fun x => x.id != a.id }))
  ∧ (∀ id s a acq inst z, s.acc? id = some a → a.kind = .load acq inst z → a.st = .issued → admission s a = .wait →
      exec (.loadAtHome id) s = .next (lockAcc s a))
  ∧ (∀ id s a t, s.acc? id = some a → a.st = .issued → a.kind.isAtomic = false → a.kind.isRedo = false → admission s a = .go t →
      exec (.storeAtHome id) s = .next (performStore s a t))
  ∧ (∀ s a t k rel, a.kind = .store rel → a.space = .spad k →
      performStore s a t = nowPerformed (spWrite s a.node k a.addr a.size a.data) a 0)
  ∧ (∀ s a t rel, a.kind = .store rel → a.space = .glob →
      performStore s a t = nowPerformed (putBytes s a t (leBytes a.size a.data)).1 a (s.gwctOf a.asid a.addr t))
  ∧ (∀ id s a t, s.acc? id = some a → a.st = .issued → a.kind.isAtomic = true → admission s a = .go t →
      exec (.atomicAtPlace id) s = .next
        (if a.space = .glob ∧ (∃ e ∈ s.redos, e.asid = a.asid ∧ e.addr / 128 = a.addr / 128) then deferAtomic s a else performAtomic s a t))
  ∧ (∀ id s a t ts, s.plat.stopped = false → s.acc? id = some a → a.st = .deferred → deferredReady s a = true →
      accTrans s a = some (t :: ts) → ctxAdmits s a = true → (match a.kind with | .host _ => false | _ => true) = true →
        (famAdmits s a t (t :: ts) = .go t → exec (.deferredAtomic id) s = .next (performAtomic s a t))
        ∧ (∀ fid, famAdmits s a t (t :: ts) = .hold fid → exec (.deferredAtomic id) s = .next (s.enterHold fid)))
  ∧ (∀ s a t ts f, famOfNode s a.node = some f → f.st = .hold → a.st = .deferred → holdTrigger s a f ts = false →
      famAdmits s a t ts = .go t)
  ∧ (∀ id s a, s.plat.stopped = true → s.acc? id = some a → exec (.deferredAtomic id) s = .next s)
  ∧ (∀ id s a t ts op, s.plat.stopped = false → s.acc? id = some a → a.st = .deferred → deferredReady s a = true → accTrans s a = some (t :: ts) →
      a.kind = .host op → exec (.deferredAtomic id) s = .next (performHost s a t))
  ∧ (∀ id s a dbl t f, s.acc? id = some a → a.kind = .redo dbl → a.st = .issued → admission s a = .go t → a.fam.bind s.fam? = some f →
      exec (.redoContribution id) s = .next (contribute s a dbl f))
  ∧ (∀ id s a fid, s.acc? id = some a → a.st = .issued → admission s a = .hold fid →
      (a.kind.isAtomic = true → exec (.atomicAtPlace id) s = .next (s.enterHold fid))
      ∧ (a.kind.isAtomic = false → a.kind.isRedo = false → exec (.storeAtHome id) s = .next (s.enterHold fid)))
  ∧ (∀ e v, (RedoEntry.add e v).addr = e.addr ∧ (RedoEntry.add e v).gen = e.gen ∧ (∀ n m x, v = .fin n m x → -(1074 : Int) ≤ x →
      (RedoEntry.add e v).sum = e.sum + (if n then -((m * 2 ^ (x + 1074).toNat : Nat) : Int) else ((m * 2 ^ (x + 1074).toNat : Nat) : Int))))

/-- R38, R173, R181, R203, R220, R226, R237: acknowledgements count the wave's outstanding items down, results land in
their registers, and leases and idle lines end. When each arrives is the model's schedule (log entries 3 and 12). -/
def Obligations.AcknowledgementsAndResultsArrive : Prop :=
  (∀ id s a, s.acc? id = some a → a.st = .performed → contribKept s a.id = false → exec (.acknowledgement id) s = .next (acknowledge s a))
  ∧ (∀ s a w, s.wave? a.wid = some w → a.space ≠ .glob → ∃ u, (acknowledge s a).wave? a.wid = some u ∧ u.outst = w.outst - a.items
      ∧ u.relMark = max w.relMark a.gwct ∧ u.v = w.v ∧ u.s = w.s ∧ u.pc = w.pc ∧ u.exec = w.exec)
  ∧ (∀ gid s l w, s.lands.find? (fun l => l.gid == gid) = some l → landReady s l = true → s.wave? l.wid = some w →
      exec (.longLatencyResult gid) s = .next
        (({ s with lands := s.lands.filter fun x => x.gid != gid } : State).setWave (wakeFull (landWave l w))))
  ∧ (∀ w l r n k i, l.dest = .vec r n → k < 32 → i < n → r + n ≤ w.v.length → (∀ x ∈ w.v, x.lanes.length = 32) →
      (landWave l w).vl (r + i) k = match l.vals.find? fun x => x.1 == k with | some x => wordI x.2 i | none => w.vl (r + i) k)
  ∧ (∀ w l r n, l.dest = .vec r n → ∀ i < n, r + n ≤ w.v.length → (landWave l w).vfull (r + i) = true)
  ∧ (∀ core asid line s, exec (.l1LeaseExpiry core asid line) s = .next { s with
      l1 := s.l1.filter fun x => !(x.core == core && x.asid == asid && x.line == line && decide (x.expiry ≤ s.ns)) })
  ∧ (∀ die asid line s, exec (.clusterLineIdle die asid line) s = .next { s with
      clusters := s.clusters.filter fun k => !(k.die == die && k.asid == asid && k.line == line && decide (k.last + Config.clusterIdle ≤ s.ns)) })
  ∧ (∀ slice s, Config.redoEntries ≤ (bufferEntries s slice).length →
      (s.accs.any fun a => a.kind.isRedo && a.st == .issued && redoSlice s a.asid a.addr == slice
        && decide (a.since + Config.redoWaitCc ≤ s.cc)) = true →
      (s.redos.filter fun e => e.overflow && redoSlice s e.asid e.addr / 32 == slice / 32).length < Config.overflowEntries →
        ∃ e ∈ bufferEntries s slice, (∀ x ∈ bufferEntries s slice, x.fam ≤ e.fam)
          ∧ exec (.redoOverflowMove slice) s = .next { s with
            redos := modify (fun x => x == e) (fun x => { x with overflow := true }) s.redos })

/-- R95, R108, R110, R188 to R191, R201, R229, R316 to R318: stream engines, gang messages, parks, the ends of waves, with the
record of a range mask that is not zero, and the swaps of shadow banks. When each happens is the model's schedule (log entry 3); the
swaps of banks follow log entry 26; that what a store stream repeats after a release is an event of its own, once the wave stands in
an active bank again, is log entry 14 on R201. The model's choices are also, of a spill, that it writes a stretch of the save area of
open length (log entries 23 and 2) and that the wave's load streams are rewound (log entry 14), and of a wave whose task ends, what is
reported of its undelivered faults (log entry 14). -/
def Obligations.StreamsGangsAndWavesAdvance : Prop :=
  (∀ sid s t w, s.stream? sid = some t → s.wave? t.wid = some w → canFetch t = true → s.anyParked = false → ctxRuns s w.asid = true →
      w.spilled = false → fetchHeld s t w = false → (t.entries.any (·.again)) = false → exec (.streamFetch sid) s = .next
        (let r := fetchLanes s t w t.next allLanes { vals := List.replicate 32 0 }
         r.1.setStream { t with next := t.next + 32, entries := t.entries ++ [r.2] }))
  ∧ (∀ sid s t w, s.stream? sid = some t → s.wave? t.wid = some w → t.write = true → t.stopped = false → t.again = false →
      t.entries ≠ [] → s.anyParked = false → exec (.streamStore sid) s = .next (storeEntry s t w))
  ∧ (∀ sid s t w, s.stream? sid = some t → s.wave? t.wid = some w → t.write = true → t.again = true → t.entries ≠ [] →
      s.anyParked = false → exec (.streamStore sid) s = .next
        (if returned s w = true then storeEntry s { t with stopped := false, again := false, count := t.count + 1 } w else s))
  ∧ (∀ task die s r, let m : GangMsg := { node := task, die := die, release := false }
      let u : State := { s with gangMsgs := s.gangMsgs.erase m }
      m ∈ s.gangMsgs → rootWord u task = some r → (getTw u task r).diearr + 1 < (getTw u task r).dies →
        exec (.gangForwardArrival task die) s = .next (setTw u task r { getTw u task r with diearr := (getTw u task r).diearr + 1 }))
  ∧ (∀ task die s r, let m : GangMsg := { node := task, die := die, release := true }
      let u : State := { s with gangMsgs := s.gangMsgs.erase m }
      m ∈ s.gangMsgs → gangWord u task die = some r → exec (.gangReleaseMessage task die) s = .next (troupeRelease u task r))
  ∧ (∀ wid s w why c, s.wave? wid = some w → w.st = .parked why (some c) → c ≤ s.cc →
      exec (.parkTimeout wid) s = .next (s.setWave { w with st := .ready }))
  ∧ (∀ wid s w, s.wave? wid = some w → w.st = .ready → w.waitCtr = 47 → exec (.waveOverdue wid) s = .next (s.setWave { w with waitCtr := 48 }))
  ∧ (∀ wid s w, s.wave? wid = some w → haltOver s w = true → w.range = 0 → ∀ n, s.node? w.node = some n →
      exec (.haltingEnd wid) s = .next (let t := if n.stage = .running then s.setNode { n with halts := orderIdx w :: n.halts } else s
        (State.endHolding { t with waves := t.waves.filter fun x => x.wid != wid, lands := t.lands.filter fun l => l.wid != wid
                                   unitQ := t.unitQ.filter fun u => u.wid != wid } w.node).settle))
  ∧ (∀ wid s w, s.wave? wid = some w → haltOver s w = true → w.range ≠ 0 → ∃ r, r.code = kSPRANGE ∧ r.mask = w.range ∧ r.pc = w.pc
      ∧ r.flags / 8 = 1 ∧ r.source = 0 ∧ let u : State := s.appendRec r .nothing
        exec (.haltingEnd wid) s = .next (let t := match u.node? w.node with
            | some n => if n.stage = Stage.running then u.setNode { n with halts := orderIdx w :: n.halts } else u
            | none => u
          (State.endHolding { t with waves := t.waves.filter fun x => x.wid != wid, lands := t.lands.filter fun l => l.wid != wid
                                     unitQ := t.unitQ.filter fun u => u.wid != wid } w.node).settle))
  ∧ (∀ wid s w, s.wave? wid = some w → w.ending = true → w.st ≠ .halting → let u := reportHeld s w
      (leaveHeld u w = true → exec (.haltingEnd wid) s = .next u)
      ∧ (leaveHeld u w = false → exec (.haltingEnd wid) s = .next (haltWave u ((u.wave? wid).getD w))))
  ∧ (∀ core quad unit s u w, unitFirst s unit = some u → s.wave? u.wid = some w → unitBusy s unit = false → w.core = core → w.quad = quad →
      w.st = .blocked → w.pending = none → exec (.functionalUnitFree core quad unit) s = .next (s.setWave { w with st := .ready }))
  ∧ (∀ s w u n, unitNeed s w = some (u, n) → unitBusy s u = true →
      markReady s w = (unitWait s u w.wid).setWave { w with st := .blocked, waitCtr := 0 })
  ∧ (∀ s w u n, unitNeed s w = some (u, n) → 2 ≤ n → unitBusy (takeUnit s w) u = true)
  ∧ (∀ wid s w, s.wave? wid = some w → spillReady s w = true → s.anyParked = false →
      exec (.spill wid) s = .next ((rewindStreams (writeSave s w.asid) wid).setWave { w with spilled := true }))
  ∧ (∀ core quad s, (isTarget s core quad = true ∨ holdsBenched s core quad = true) → armedAll s (closureOf s (residents s) core quad) = true →
      exec (.shadowBankSwap core quad) s = .next (exchange s (closureOf s (residents s) core quad)))
  ∧ (∀ core quad s qs ws, isTarget s core quad = false → holdsBenched s core quad = false → reserved s (dieOf core) none = false →
      s.anyParked = false → returnSet s core quad = some (qs, ws) →
      exec (.shadowBankSwap core quad) s = .next (restamp (exchange (bringBack s ws) qs) (ws.map (·.wid))))
  ∧ (∀ core quad s, (quadOf s core quad).armed = false → bankWaves s core quad (1 - (quadOf s core quad).active) = [] →
      exec (.shadowBankRearm core quad) s = .next (setQuad s { quadOf s core quad with armed := true }))

/-- R249, R250, R285 to R291, R294, R334 to R338, R344, R358 to R369: an array starts its head command, loads its shadow plane and
applies the rows of a stream; a bank controller performs a command column by column up to its last, with its checks made when the
walk begins and again when a page of it has moved, and one that has faulted waits for its answer; a reduction engine sums a job into DST and writes its flag; an engine
performs an entry, and its ticket lands. The order and grain of the units are the model's reading (log entries 12, 13, 16 and
17). -/
def Obligations.UnitsPerformTheirCommands : Prop :=
  (∀ core quad bank s a h q w, s.array? core quad bank = some a → a.queue = h :: q → s.wave? h.wid = some w → canStart s a h = true →
      let c := arrCfg h.cfg
      let goes (t : State) : Prop := exec (.arrayCommandStart core quad bank) s = .next t
      (h.op = .cfg → goes (popCmd s { a with cfg := some h.cfg }))
      ∧ (h.op = .swp → goes (popCmd s { a with active := a.shadow, shadow := a.active }))
      ∧ (∀ f32 anc first n x, h.op = .clr f32 anc first n x → goes (popCmd s (performClr a f32 anc first n x)))
      ∧ (∀ gid base rm, h.op = .rd gid base rm → goes (popCmd { s with
          lands := modify (fun l => l.gid == gid) (fun l => { l with
            ready := true, vals := (performRd a c base rm).1, flags := (performRd a c base rm).2.1 }) s.lands } (performRd a c base rm).2.2))
      ∧ (∀ sp img j base pitch cols u, h.op = .lds sp img j base pitch → readCols s w c sp img j base pitch = .ok (cols, u) →
          goes (u.setArray { a with queue := { h with started := true } :: q, loading := some { ldsTag c j with cols := cols }, again := false }))
      ∧ (∀ d base x rows rs y z v, h.op = .str d base x rows rs y z v →
          goes (s.setArray { a with queue := { h with started := true } :: q }))
      ∧ (∀ rm sr sp dst base pitch rows rs n u, h.op = .st rm sr sp dst base pitch rows rs →
          sendStores s a h w c rm sr sp dst base pitch rows rs = (n, none, u) → (u.accs.any fun x => x.gid == h.id) = true →
          goes (popCmd u { a with mbound := mboundNext a.mbound ((List.range rows).flatMap fun m =>
            (List.range 128).map fun k => accGet a (accKey c.f32 (base + m * rs + k))) })))
  ∧ (∀ core quad bank s a p, s.array? core quad bank = some a → a.loading = some p →
      ∃ t b, exec (.planeLoadComplete core quad bank) s = .next t ∧ t.array? core quad bank = some b ∧ b.shadow = p ∧ b.loading = none
        ∧ b.queue = a.queue.drop 1 ∧ b.active = a.active ∧ b.accs = a.accs ∧ t.waves = s.waves ∧ t.mem = s.mem)
  ∧ (∀ core quad bank s a b, s.array? core quad bank = some a → b.core = core → b.quad = quad → b.bank = bank →
      (popCmd s b).array? core quad bank = some { b with queue := b.queue.drop 1, loading := none, fault := none, again := false, count := 0, fkey := none }
      ∧ (popCmd s b).waves = s.waves ∧ (popCmd s b).mem = s.mem ∧ (popCmd s b).accs = s.accs)
  ∧ (∀ core quad bank s a h q w d base x rows rs y z v, s.array? core quad bank = some a → a.queue = h :: q → s.wave? h.wid = some w →
      h.op = .str d base x rows rs y z v → h.started = true → a.fault = none → a.bank = activeBank s core quad → ctxRuns s w.asid = true →
      w.spilled = false → s.anyParked = false → s.deadCores.contains core = false →
      let c := arrCfg h.cfg
      let a' : ArrayBank := { a with again := false }
      let goes (t : State) : Prop := exec (.arrayContributionApply core quad bank) s = .next t
      let next (u : State) (b : ArrayBank) (h : ArrCmd) : State :=
        if h.row + 1 < rows then u.setArray { b with queue := { h with row := h.row + 1 } :: q }
        else if h.pass < (if c.tri then c.s - 1 - a.active.j else c.s - 1) then
          u.setArray { b with queue := { h with row := 0, pass := h.pass + 1 } :: q }
        else popCmd u b
      (h.pass ≠ 0 → goes (next s (applyRow a' c h base rs (h.segs.getD h.row {})) h))
      ∧ (∀ bs sc g u, h.pass = 0 → nextRow s w c h = .row bs sc g u →
          let g' : ArrCmd := { g with segs := g.segs ++ [segOf c.s c.af (blockK c) c.amx id (fun _ => false) bs sc] }
          goes (next (noteTern u w.wid (hasTern c.af (blockK c) bs)) (applyRow a' c g' base rs (g'.segs.getD g.row {})) g'))
      ∧ (∀ g u, h.pass = 0 → nextRow s w c h = .wait g u → goes (u.setArray { a with queue := g :: q })))
  ∧ (∀ cid s c pages, s.bcmds.find? (fun c => c.cid == cid) = some c → awake s c = c → cmdReady s c = true →
      (c.op.needsDirect = true → cmdFam s c.node = none) →
      let u : State := { s with bcmds := modify (fun x => x.cid == cid) (fun _ => c) s.bcmds }
      (c.pos = 0 ∨ pagesNow u c ≠ c.pages → cmdCheck u c = .ok pages) → (c.pos ≠ 0 ∧ pagesNow u c = c.pages → pages = c.pages) →
      (c.op.columns ≤ c.pos + 1 → c.op.counted = false → exec (.bankCommandPerform cid) s = .next { performCmd u c pages c.pos with
        bcmds := (performCmd u c pages c.pos).bcmds.filter fun x => x.cid != cid })
      ∧ (c.op.columns ≤ c.pos + 1 → c.op.counted = true → exec (.bankCommandPerform cid) s = .next (lessOutst { performCmd u c pages c.pos with
        bcmds := (performCmd u c pages c.pos).bcmds.filter fun x => x.cid != cid } c.wid 1))
      ∧ (c.pos + 1 < c.op.columns → exec (.bankCommandPerform cid) s = .next { performCmd u c pages c.pos with
        bcmds := modify (fun x => x.cid == cid) (fun x => { x with pos := c.pos + 1, pages := pages }) (performCmd u c pages c.pos).bcmds }))
  ∧ (∀ cid s c d, s.bcmds.find? (fun c => c.cid == cid) = some c → c.fault = some d → d.again = false →
      exec (.bankCommandPerform cid) s = .next s)
  ∧ (∀ jid s j, s.jobs.find? (fun j => j.jid == jid) = some j → jobReady s j = true → j.st = .queued →
      let sums := jobSums s j
      (jobCheck s j = .place → exec (.bredJobStart jid) s = .next { s with
        jobs := modify (fun x => x.jid == jid) (fun x => { x with st := .flagging 2 0 s.ns, stopped := false }) s.jobs })
      ∧ (jobCheck s j = .ok → jobMeets j = false →
          exec (.bredJobStart jid) s = .next (jobWrite j sums.1 sums.2.1 (jobPieces j 0) 0 0 sums.2.2))
      ∧ (∀ a n t, s.mem.wf = true → jobCheck s j = .ok → jobMeets j = false → jobPieces j 0 = [(a, n)] → sums.2.2.laneCheck j.asid a 1 .write = none →
          sums.2.2.lookup j.asid a .write = some t → t.pa < 2 ^ 39 → s.isOwn t.pa = false → ∃ u gw, exec (.bredJobStart jid) s = .next u
            ∧ u.mem.getBytes t.pa (sums.1.take n).length = sums.1.take n
            ∧ u.jobs = modify (fun x => x.jid == jid) (fun x => { x with st := .flagging 0 sums.2.1 gw, stopped := false }) s.jobs
            ∧ sums.2.2.gwctOf j.asid a t ≤ gw))
  ∧ (∀ jid s j status flags gw t, s.jobs.find? (fun j => j.jid == jid) = some j → j.st = .flagging status flags gw → j.stopped = false →
      gw + 2 ≤ s.ns → s.anyParked = false → s.laneCheck j.asid j.flag 8 .write = none → s.lookup j.asid j.flag .write = some t →
      j.byNode = false → exec (.bredJobComplete jid) s = .next
        (let u := (if t.home = 3 then s else (s.leaveCluster none j.asid j.flag).ensureLine j.asid j.flag t).writeCommitted j.asid j.flag t
           (leBytes 8 (flagWord status flags))
         ({ u with jobs := u.jobs.filter fun x => x.jid != jid } : State).settle))
  ∧ (∀ jid s j status flags gw, s.jobs.find? (fun j => j.jid == jid) = some j → j.st = .flagging status flags gw → j.stopped = false →
      gw + 2 ≤ s.ns → s.anyParked = false → exec (.bredJobComplete jid) s = .next (endJob s j status flags))
  ∧ (∀ eid s e, s.entries.find? (fun e => e.eid == eid) = some e → engReady s e = true →
      (∀ mask, e.op = .fence mask → exec (.engineEntryStart eid) s = .next { s with
        entries := modify (fun x => x.eid == eid) (fun _ => { e with started := true, performed := true, status := some 0 }) s.entries })
      ∧ (∀ dst src len nt x y, e.op = .copy dst src len nt →
          engReadPieces 1 (linePieces (src + e.inBuf.length) (len - e.inBuf.length))
            { s := s, e := { e with started := true }, nt := nt } = x → x.stop = .going →
          engFlush dst { x with e := { x.e with out := x.e.inBuf } } = y → y.stop = .going →
          exec (.engineEntryStart eid) s = .next { y.s with
            entries := modify (fun x => x.eid == y.e.eid) (fun _ => { y.e with status := some 0, performed := true }) y.s.entries })
      ∧ (∀ addr lz, e.op = .card addr lz → e.card = none → addr % 64 ≠ 0 → exec (.engineEntryStart eid) s = .next { s with
          entries := modify (fun x => x.eid == eid) (fun _ => { e with started := true, performed := true, status := some 5 }) s.entries })
      ∧ exec (.engineEntryStart eid) s = .next (engKeep (engRun { s := s, e := { e with started := true } })))
  ∧ (∀ eid s e g, s.entries.find? (fun e => e.eid == eid) = some e → e.performed = true → e.gwct + 2 ≤ s.ns → e.gid = some g →
      e.queue.isSome = true → exec (.engineEntryComplete eid) s = .next ({ s with
        entries := s.entries.filter fun x => x.eid != eid
        lands := modify (fun l => l.gid == g) (fun l => { l with
          ready := true, vals := laneList.map fun k => (k, ticketWord e) }) s.lands } : State).settle)
  ∧ (∀ eid s e n, s.entries.find? (fun e => e.eid == eid) = some e → e.performed = true → e.gwct + 2 ≤ s.ns → e.gid = none →
      e.queue = none → s.node? e.node = some n → let u : State := { s with entries := s.entries.filter fun x => x.eid != eid }
      (n.stage = .running → exec (.engineEntryComplete eid) s = .next (u.setNode { n with
          stage := .complete, status := if e.status = some 0 then 0 else 4 }).settle)
      ∧ (n.stage ≠ .running → exec (.engineEntryComplete eid) s = .next u.settle))
  ∧ (∀ e, ticketWord e % 2 ^ 8 = e.status.getD 0 % 2 ^ 8 ∧ ticketWord e / 2 ^ 8 % 2 ^ 4 = e.queue.getD 0 % 2 ^ 4
      ∧ ticketWord e / 2 ^ 12 = (match e.op with | .fence _ => 0 | _ => e.written) % 2 ^ 20)
  ∧ (∀ status flags, status < 256 → flags < 128 → flagWord status flags % 2 ^ 8 = 1 ∧ flagWord status flags / 2 ^ 8 % 2 ^ 8 = status
      ∧ flagWord status flags / 2 ^ 16 = flags)

/-- R311 to R314, R321 to R323, R325, R451, R452, R454: a Puppeteer reads ring slots, dispatches, places waves,
commits and retires: a retirement appends the record of R322, frees the node and releases its dependents. The model's
choices: the stepwise retirement and the serving order (log entries 3 and 30); that a family which commits in HOLD is
DIRECT at once, while the writes that it has held wait until `holdTo` (log entry 15); that ring bases are physical
addresses, read as they stand in memory (log entry 23); and that a ring is read further once every task that a
function reset has left was dispatched again (log entry 21). The stepwise retirement and the serving order follow log
entries 3 and 30. -/
def Obligations.PuppeteersRunTheTaskGraph : Prop :=
  (∀ asid q s c r, s.ctx? asid = some c → c.rings[q]? = some r → queueEnabled c q = true → r.overrun = false →
      (r.door + 2 ^ 32 - r.next) % 2 ^ 32 ≠ 0 → (r.door + 2 ^ 32 - r.next) % 2 ^ 32 < 2 ^ 31 → ctxRuns s asid = true → mustRerun s asid = false →
      s.anyParked = false → exec (.ringSlotRead asid q) s = .next
        (let p := physBytes s (r.base + 128 * (r.next % r.slots)) 128
         let u := touchSource (physTouch s (r.base + 128 * (r.next % r.slots)) 128) c p
         if leNat (p.take 4) ≠ r.next then u.setCtx { c with rings := c.rings.set q { r with overrun := true } }
         else (acceptPacket u c q r p).getD u))
  ∧ (∀ asid q s, mustRerun s asid = true → exec (.ringSlotRead asid q) s = .next s)
  ∧ (∀ nid s n, s.node? nid = some n → mayDispatch s n = true → canServe s n = true → firstServed s n = true →
      exec (.nodeDispatch nid) s = .next (dispatchNode s n))
  ∧ (∀ nid s n, s.node? nid = some n → (mayDispatch s n = false ∨ canServe s n = false ∨ firstServed s n = false) →
      exec (.nodeDispatch nid) s = .next s)
  ∧ (∀ nid s n core quad, s.node? nid = some n → n.kind = .krn → n.stage = .running → n.launch.gang = false → n.placed < n.launch.waves →
      ctxPlaces s n.asid = true → reserved s n.die (some n.nid) = false → bestQuad s n n.die = some (core, quad) →
      exec (.wavePlacement nid) s = .next (placeWave s n core quad))
  ∧ (∀ s n core quad, ∃ w : Wave, (placeWave s n core quad).waves = s.waves ++ [w] ∧ w.node = n.nid ∧ w.idx = n.placed
      ∧ w.core = core ∧ w.quad = quad ∧ w.pc = n.launch.entry ∧ w.s.length = 64 ∧ w.s.getD 0 0 = n.launch.args.extractLsb' 0 32
      ∧ w.s.getD 1 0 = n.launch.args.extractLsb' 32 32 ∧ w.allot = 16 * n.launch.regs
      ∧ (n.kind ≠ .cont → ∀ l < 32, w.exec.getLsbD l = decide (32 * n.placed + l < n.launch.count)))
  ∧ (∀ nid s n, s.node? nid = some n → mayDispatch s n = true → n.readyAt + Config.passedOverNs ≤ s.ns →
      exec (.nodePassedOver nid) s = .next (s.setNode { n with passed := true }))
  ∧ (∀ fid s f o, s.fam? fid = some f → s.node? f.owner = some o → f.st = .hold → isOldest s o = true → queueStopped s o.asid o.queue = false →
      ctxRuns s o.asid = true → s.anyParked = false → exec (.holdCommit fid) s = .next (goDirect (commitFam s f) f.fid))
  ∧ (∀ s f, (goDirect (commitFam s f) f.fid).mem = (commitFam s f).mem ∧ ∀ g ∈ (goDirect (commitFam s f) f.fid).fams, g.fid = f.fid →
      g.st = .direct ∧ g.writes = [] ∧ g.committed = true ∧ s.ns + 2 ≤ g.holdTo)
  ∧ (∀ fid s f, s.fam? fid = some f → f.st ≠ .hold → exec (.holdCommit fid) s = .next s)
  ∧ (∀ asid q s n c, oldestNode s.settle asid q = some n → s.settle.ctx? asid = some c → n.stage = .complete →
      queueStopped s.settle asid q = false → ctxRuns s.settle asid = true → s.settle.anyParked = false →
      (s.settle.waves.any fun w => w.node == n.nid) = false → versionWork s.settle n = true → exec (.taskRetirement asid q) s = .next (settleVersion s.settle n))
  ∧ (∀ asid q s n c, oldestNode s.settle asid q = some n → s.settle.ctx? asid = some c → n.stage = .complete →
      queueStopped s.settle asid q = false → ctxRuns s.settle asid = true → s.settle.anyParked = false →
      (s.settle.waves.any fun w => w.node == n.nid) = false → versionWork s.settle n = false → versionSettled s.settle n = true → s.settle.evRoom c = true → exec (.taskRetirement asid q) s = .next (retireNode s.settle n))
  ∧ (∀ s n, (∀ m ∈ (retireNode s n).nodes, m.nid ≠ n.nid ∧ ¬ n.nid ∈ m.preds)
      ∧ (∀ m ∈ s.nodes, m.nid ≠ n.nid → m.stage = .waiting → (∀ p ∈ m.preds, p = n.nid) →
          ∃ d ∈ (retireNode s n).nodes, d.nid = m.nid ∧ d.stage = .ready ∧ d.readyAt = s.ns)
      ∧ (∀ f ∈ (retireNode s n).fams, f.owner ≠ n.nid)
      ∧ (s.rays = [] → let r := State.eventBytes (State.taskId n) n.status (n.redoFlags % 128) (recordKind n) s.ns n.source n.checked
          (retireNode s n).mem = (s.appendEv n.asid r).mem ∧ (retireNode s n).homes = (s.appendEv n.asid r).homes))
  ∧ (∀ task status flags kind time source reruns, let r := State.eventBytes task status flags kind time source reruns
      r.length = 32 ∧ bytesNat r 0 4 = task % 2 ^ 32 ∧ bytesNat r 4 2 = status % 2 ^ 16 ∧ bytesNat r 6 1 = flags % 2 ^ 8
        ∧ bytesNat r 7 1 = kind % 2 ^ 8 ∧ bytesNat r 8 8 = time % 2 ^ 64 ∧ bytesNat r 0x10 8 = source % 2 ^ 64
        ∧ bytesNat r 0x18 2 = reruns % 2 ^ 16 ∧ bytesNat r 0x1A 6 = 0)

/-- R387, R394 to R396, R414, R416: Kites take and give up rays, continuation groups close, bins take their triangles
and passes close, the on-chip copies of the lines of their buffers leaving the chip before the flag (R250). That a ray
goes on with open values where software has written its records is log entry 2 on R1 and R377; the model's other
readings are in log entries 18 and 19. The model's readings are in log entries 18 and 19. -/
def Obligations.RaysAndPassesAdvance : Prop :=
  (∀ core asid num s r, s.rayNum? asid num = some r → mayTake s r core = true → (kiteLoad s core).length < 256 →
      let x := recordOf s r
      exec (.kiteRayTake core asid num) s = .next
        (({ x.2 with nextId := x.2.nextId + 1 } : State).setRay { x.1 with place := .kite core, age := x.2.nextId }))
  ∧ (∀ s r, raySpoiled s r = false → recordOf s r = (r, s))
  ∧ (∀ asid num s r core, s.rayNum? asid num = some r → r.place = .kite core → mustSuspend s r core = true →
      exec (.raySuspend asid num) s = .next (let r' := { r with place := .queued, anyDie := true, reload := true }
        saveRay (s.setRay r') r'))
  ∧ (∀ asid owner cont s o, s.node? owner = some o → readyGroup s asid owner cont ≠ [] → groupDue s asid owner (readyGroup s asid owner cont) = true →
      exec (.contGroupClose asid owner cont) s = .next (closeGroup s o cont (readyGroup s asid owner cont)))
  ∧ (∀ s asid owner cont r, r ∈ readyGroup s asid owner cont ↔ r ∈ s.rays ∧ r.asid = asid ∧ r.owner = owner ∧ r.place = .ended ∧ r.cont = cont)
  ∧ (∀ id s x p, s.appends.find? (fun x => x.id == id) = some x → s.livePass x.asid x.desc = some p → p.held = false → s.anyParked = false →
      binLen p x.tile < pdBinCap p.bytes → exec (.binAppend id) s = .next (passDone p.since (appendBin x s)))
  ∧ (∀ asid desc s p t gw status, s.closedPass asid desc = some p → s.anyParked = false → p.st = .closing → passBinned p s = true →
      closePass p s = .ok (t, gw, status) → exec (.passCloseProcess asid desc) s = .next
        (let x := dropBuffers p t
         x.2.setPass { p with st := .flagging status (max (max gw x.1) x.2.ns), count := 0 }))
  ∧ (∀ asid desc s p status gw t, s.closedPass asid desc = some p → s.anyParked = false → p.st = .flagging status gw → gw + 2 ≤ s.ns →
      flagPass p status s = .ok t → exec (.passCloseProcess asid desc) s = .next t.settle)
  ∧ (∀ p status s t, flagPass p status s = .ok t → ∀ q ∈ t.passes, q.since ≠ p.since)

/-! ### The host and the platform -/

/-- R251, R428, R440, R444 to R447, R449, R450, R453, R455, R457: a write of a register of BAR0 does what
the register is for, once firmware runs; a context is created, destroyed, saved, restored, benched and resumed, its
queues are controlled, its generation is raised and its pages migrate. The model's choices, of log entry 23: registers
are ignored before firmware runs and after a shutdown, and at an offset that is no multiple of 8; BUSY of CSTAT reads 1 up
to the next tick; a part that is to stop ignores CREATE; and an atomic that a save withdraws is performed again after the
restore. That CREATE and MIGRATE wait while a parity group is parked (R461) is log entry 25; that CREATE makes the context with
an open status where WORK0 or WORK1 is not zero, which R445 has it refuse, and no multiple of 8 MiB or outside HBM, is log entry 33. -/
def Obligations.HostRegistersControlContexts : Prop :=
  (∀ s, s.plat.fwRunning = true → s.plat.stopped = false →
    ((s.plat.groups.any fun g => g.parked) = false → s.plat.hot = false → ∀ a, exec (.create a) s = .next (createContext s a))
    ∧ ((s.plat.groups.any fun g => g.parked) = false → s.plat.hot = true → ∀ a, exec (.create a) s = .next s)
    ∧ ((s.plat.groups.any fun g => g.parked) = true → ∀ a, exec (.create a) s = .next { s with
        plat := { s.plat with regWait := s.plat.regWait ++ [(0, a)], cstatBusy := true } })
    ∧ (∀ asid seq, exec (.replyRelease asid seq) s = .next (replyTo s (asid % 4096) (seq % 2 ^ 32) 0)
        ∧ exec (.replyEnd asid seq) s = .next (replyTo s (asid % 4096) (seq % 2 ^ 32) 1)
        ∧ exec (.replyStep asid seq) s = .next (replyTo s (asid % 4096) (seq % 2 ^ 32) 2))
    ∧ (∀ asid, exec (.gen asid) s = .next (raiseGen s (asid % 4096)))
    ∧ (∀ asid q i, exec (.qctlResume asid q i) s = .next (queueResume s (asid % 4096) (q % 64) (i % 2 ^ 32)))
    ∧ (∀ asid q, exec (.qctlRerun asid q) s = .next (queueRerun s (asid % 4096) (q % 64))
        ∧ exec (.qctlSkip asid q) s = .next (queueSkip s (asid % 4096) (q % 64)))
    ∧ (∀ asid, exec (.ctxSave asid) s = .next (startSave s (asid % 4096)) ∧ exec (.ctxRestore asid) s = .next (startRestore s (asid % 4096))
        ∧ exec (.ctxDestroy asid) s = .next (destroyContext s (asid % 4096)) ∧ exec (.ctxSlice asid) s = .next (startSlice s (asid % 4096))
        ∧ exec (.ctxUnslice asid) s = .next (endSlice s (asid % 4096)))
    ∧ ((s.plat.groups.any fun g => g.parked) = false → ∀ asid b, exec (.migrate asid b) s = .next (startMigrate s (asid % 4096) b))
    ∧ (∀ asid ring i, s.plat.posted + 2 ≤ s.ns →
        exec (.doorbell asid ring i) s = .next (ringDoorbell s (asid % 4096) (ring % 64) (i % 2 ^ 32)))
    ∧ (∀ v, exec (.registerWrite 0 0x10 v) s = .next { s with plat := { s.plat with work0 := v.toNat } }
        ∧ exec (.registerWrite 0 0x18 v) s = .next { s with plat := { s.plat with work1 := v.toNat } }))
  ∧ (∀ s off v, s.plat.fwRunning = false ∨ s.plat.stopped = true →
      exec (.registerWrite 0 off v) s = .next s ∧ exec (.create off) s = .next s)
  ∧ (∀ s bar off v, off % 8 ≠ 0 → exec (.registerWrite bar off v) s = .next s)
  ∧ (∀ s addr, let d := physBytes s addr 128
      let asid := bytesNat d 0 2 % 4096
      let valid : Bool := s.plat.work0 != 0 && s.plat.work1 != 0 && addr % 128 == 0 && decide (addr + 128 ≤ 2 ^ 39) && descOk d
        && (List.range 64).all fun q => bytesNat d 0x18 8 / 2 ^ q % 2 == 0 || ringOk (physBytes s (bytesNat d 0x10 8 + 16 * q) 16)
      let u := physTouch (physTouch s addr 128) (bytesNat d 0x10 8) 1024
      (valid = false → createContext s addr = { u with plat := { u.plat with cstat := 0x10 + asid * 2 ^ 16, cstatBusy := true } })
      ∧ (∀ c, valid = true → s.ctx? asid = some c → c.wd ≠ .lost →
          createContext s addr = { u with plat := { u.plat with cstat := 0x20 + asid * 2 ^ 16, cstatBusy := true } })
      ∧ (valid = true → s.ctx? asid = none → ∃ c, (createContext s addr).ctx? asid = some c ∧ c = contextOf s addr d
          ∧ (workOk s = true → (createContext s addr).plat.cstat = asid * 2 ^ 16) ∧ (createContext s addr).genOf asid = 0
          ∧ (createContext s addr).plat.startup = false ∧ (createContext s addr).nodes = s.nodes)
      ∧ (∀ o, valid = true → s.ctx? asid = some o → o.wd = .lost → ∃ c, (createContext s addr).ctx? asid = some c
          ∧ c.wd = .armed ∧ c.queues = o.queues ∧ (∀ (q : Nat) (r p : Ring), c.rings[q]? = some r → o.rings[q]? = some p → r.next = p.next ∧ r.door = p.door)
          ∧ (createContext s addr).nodes = modify (fun n => n.asid == asid && n.index.isSome && n.stage != .stopped) (replayNode s) s.nodes))
  ∧ (∀ s n, (outcomeStands s n = true → (replayNode s n).stage = n.stage ∧ (replayNode s n).status = n.status)
      ∧ (outcomeStands s n = false → ((replayNode s n).stage = .ready ∨ (replayNode s n).stage = .waiting) ∧ (replayNode s n).status = 0
          ∧ (replayNode s n).fam = none ∧ (replayNode s n).placed = 0))
  ∧ (∀ s asid c r q i, s.ctx? asid = some c → c.rings[q]? = some r → queueResume s asid q i =
      if r.overrun = true then s.setCtx { c with rings := c.rings.set q { r with overrun := false, next := i % 2 ^ 32 } } else s)
  ∧ (∀ s asid q n c t, stoppedNode s asid q = some n → s.ctx? asid = some c → c.queues[q]? = some t →
      (∀ m ∈ s.nodes, m.asid = asid → m.queue = q → m.stage = .stopped → m.nid = n.nid) →
        queueRerun s asid q = (s.setNode { State.fresh' n with readyAt := s.ns }).setCtx { c with queues := c.queues.set q { t with stopped := none } }
        ∧ queueSkip s asid q = (s.setNode { n with stage := .complete }).setCtx { c with queues := c.queues.set q { t with stopped := none } })
  ∧ (∀ s asid q, stoppedNode s asid q = none → queueRerun s asid q = s ∧ queueSkip s asid q = s)
  ∧ (∀ s asid c, s.ctx? asid = some c → startRestore s asid =
      if c.wd = .saved ∧ s.plat.hot = false then s.setCtx { c with restoring := true, saveFrom := s.ns } else s)
  ∧ (∀ s asid c, s.ctx? asid = some c →
      (c.benched = true → startSlice s asid = s)
      ∧ (c.benched = false → (s.waves.any fun w => w.asid == asid && resident s w) = true →
          startSlice s asid = s.setCtx { c with benched := true, benchReported := false })
      ∧ (c.benched = false → (s.waves.any fun w => w.asid == asid && resident s w) = false → startSlice s asid =
          let b : Context := { c with benched := true, benchReported := true }
          ((s.setCtx { c with benched := true, benchReported := false }).setCtx b).contextEvent b 19)
      ∧ (c.benched = false → endSlice s asid = s)
      ∧ (c.benched = true → endSlice s asid =
          let b : Context := { c with benched := false, benchReported := false }
          (s.setCtx b).contextEvent b 20))
  ∧ (∀ s asid b c, s.ctx? asid = some c → let d := physBytes s b 32
      startMigrate s asid b = if bytesNat d 0 2 = asid then (physTouch s b 32).setCtx { c with migs := c.migs ++
        [{ block := b, va := bytesNat d 8 8 / 8192 * 8192, leaf := bytesNat d 0x10 8, compl := bytesNat d 0x18 8, 
           started := c.migs.isEmpty && c.moves.isEmpty }] }
        else physTouch s b 32)
  ∧ (∀ s c m rest, c.migs = m :: rest → s.ctx? c.asid = some c → (∃ t n k, s.translate c.asid m.va = some t
        ∧ State.leaf m.leaf 13 m.va = some n ∧ leafSlot s c.root m.va = some k) → ∃ d, (finishMigrate s c m rest).ctx? c.asid = some d
      ∧ d.gen = (c.gen + 1) % 2 ^ 20 ∧ d.busy = true ∧ d.migs.length = rest.length ∧ d.moves = c.moves ++ [m.compl]
      ∧ ∀ e ∈ (finishMigrate s c m rest).tlb, e.asid ≠ c.asid ∨ e.page ≠ m.va / 8192)
  ∧ (∀ s asid va new i t k, s.mem.wf = true → s.locate asid (va + 128 * i) = some t → k < 128 → new.pa / 8192 * 8192 + 128 * i + 128 ≤ 2 ^ 39 →
      s.isOwn (new.pa / 8192 * 8192 + 128 * i) = false → s.isParked (new.pa / 8192 * 8192 + 128 * i) = false → (copyLine s asid va new i).mem.get (new.pa / 8192 * 8192 + 128 * i + k)
        = s.committed asid (va + 128 * i + k) { t with pa := t.pa + k })
  ∧ (∀ s asid c, s.ctx? asid = some c → c.busy = false → raiseGen s asid = s.setCtx { c with
      gen := (c.gen + 1) % 2 ^ 20, busy := true, wrapped := c.wrapped || decide ((c.gen + 1) % 2 ^ 20 = 0) })
  ∧ (∀ s asid, exec (.generationRaiseComplete asid) s = .next (if s.plat.stopped = true then s else finishGen s asid))
  ∧ (∀ s asid c m rest, s.ctx? asid = some c → c.migs = m :: rest → m.started = false → c.moves = [] →
      ∃ d, (startNext s asid).ctx? asid = some d ∧ d.migs = { m with started := true } :: rest)
  ∧ (∀ s asid c, s.ctx? asid = some c → c.moves ≠ [] → startNext s asid = s)
  ∧ (∀ s asid c, s.ctx? asid = some c → c.busy = true → c.heldReplies = [] → c.moves = [] →
      (∀ t ∈ (finishGen s asid).tlb, t.asid ≠ asid ∨ t.gen = c.gen)
        ∧ (c.wrapped = true → (∀ h ∈ (finishGen s asid).homes, h.asid ≠ asid) ∧ (∀ x ∈ (finishGen s asid).l1, x.asid ≠ asid)
            ∧ ∀ x ∈ (finishGen s asid).ilines, x.asid ≠ asid))
  ∧ (∀ s asid c m rest, s.ctx? asid = some c → c.migs = m :: rest → exec (.migrationComplete asid) s = .next
      (if m.started = false ∨ s.plat.stopped = true ∨ (s.plat.groups.any fun g => g.parked) = true then s else finishMigrate s c m rest))
  ∧ (∀ s asid c r q i, s.ctx? asid = some c → c.rings[q]? = some r →
      ringDoorbell s asid q i = s.setCtx { c with rings := c.rings.set q { r with door := i % 2 ^ 32 } })
  ∧ (∀ s asid c, s.ctx? asid = some c → c.wd = .armed → startSave s asid =
      ({ s with
          accs := modify (fun a => a.asid == asid && (a.st == AccSt.deferred || a.st == .issued)
              && (match a.kind with | .atom _ _ _ | .cas | .atomf _ _ _ | .talloc _ | .redo _ => true | _ => false))
            (fun a => { a with st := .issued, replayed := true, withdrawn := true }) s.accs } : State).setCtx { c with wd := .saving, saveFrom := s.ns })
  ∧ (∀ s asid, (destroyContext s asid).ctx? asid = none)
  ∧ (∀ s asid c, s.ctx? asid = some c → (destroyContext s asid).genOf asid = (c.gen + 1) % 2 ^ 20)
  ∧ (∀ s asid seq action c, s.ctx? asid = some c → (c.heldReplies.any fun x => x.1 == seq) = true → replyTo s asid seq action = s)

/-- R163, R202, R236, R251, R436, R458 to R460, R463: the host reads, writes and performs atomics at the homes, and writes the comparators, which read as they were written; links take
and repeat flits, contributions and lanes; firmware is loaded and measured. Measurements are free values (log entry 2). The
model's choices: which addresses are virtual, and that a link trains to the highest rate and width within those of the event (log
entry 23; R443 leaves the fall-back to PCIe 7.0); that the host's accesses wait while any parity group is parked (log entry 25), and
that a part which has stopped takes none (log entry 23, on R465). -/
def Obligations.HostAccessesAndLinks : Prop :=
  (∀ asid va bs s, s.plat.stopped = false → s.anyParked = false → exec (.hostWrite asid va bs) s = .next (let w := homeWrite s asid none va bs
    ({ w.s.noteWrite asid va w.done false with plat := { w.s.plat with posted := max w.s.plat.posted w.gwct } } : State).flushRings asid))
  ∧ (∀ asid va bs s, (s.plat.stopped = true ∨ s.anyParked = true) → exec (.hostWrite asid va bs) s = .next s)
  ∧ (∀ s off v, exec (.registerWrite 2 (8 * off) v) s = .next (if s.plat.stopped = true then s else debugWrite s (8 * off) v.toNat))
  ∧ (∀ s core idx v, core < 128 → idx < 12 → debugRead (debugWrite s (4096 * core + 16 * idx) v) (4096 * core + 16 * idx) = v % 2 ^ 64
      ∧ debugRead (debugWrite s (4096 * core + 16 * idx + 8) v) (4096 * core + 16 * idx + 8)
        = v % 2 ^ 20 + v / 2 ^ 32 % 2 ^ 32 * 2 ^ 32)
  ∧ (∀ asid va n s bs t, s.plat.stopped = false → s.anyParked = false → homeRead s asid none va n = .ok (bs, t) →
      exec (.hostRead asid va n) s = .next { t with plat := { t.plat with hostData := bs } })
  ∧ (∀ asid va op arg cmp s t, s.plat.stopped = false → s.anyParked = false → s.laneCheck asid va 8 (.atomic true) = none →
      s.lookup asid va (.atomic true) = some t → isOpen s asid (va / 128) = false → exec (.hostAtomic asid va op 8 arg cmp) s = .next
        (let v := atHome { s with nextId := s.nextId + 1 } asid va t
         let old := v.readVal asid none va t 8
         let new := match op with | .fetchAdd => (old + arg.toNat) % 2 ^ 64 | .swap => arg.toNat | .cas => arg.toNat
         let u := if op = .cas ∧ old ≠ cmp.toNat then v else (v.writeCommitted asid va t (leBytes 8 new)).noteWrite asid va 8 false
         { u with accs := u.accs.filter (fun x => x.id != s.nextId), plat := { u.plat with hostData := leBytes 8 old } }))
  ∧ (∀ i s, let v := Config.measure i s.plat.fwVersion s.plat.fuses
      exec (.spdmRequest i) s = .next { s with plat := { s.plat with
        measured := s.plat.measured ++ [{ index := i, value := v, ecdsa := Config.signature 0 v, lms := Config.signature 1 v }] } })
  ∧ (∀ speed width s, 25 ≤ speed → 1 ≤ width → ∃ v w, v ∈ linkSpeeds ∧ v ≤ speed ∧ (∀ x ∈ linkSpeeds, x ≤ speed → x ≤ v)
      ∧ w ∈ linkWidths ∧ w ≤ width ∧ (∀ x ∈ linkWidths, x ≤ width → x ≤ w)
      ∧ exec (.hostLinkTraining speed width) s = .next { s with plat := { s.plat with linkSpeed := v, linkWidth := w } })
  ∧ (∀ e l v s, s.plat.recovery = true → exec (.recoveryImageLoad e l v) s = .next
      (if e = true ∧ l = true ∧ s.plat.fuses ≤ v then { s with plat := { s.plat with fwRunning := true, recovery := false, fwVersion := v } } else s))
  ∧ (∀ port seq ok body s, port < 16 → (ok = false ∨ seq ≠ (portOf s port).nextSeq) →
      exec (.peerFlit port seq ok body) s = .next (setPort s { portOf s port with replays := (portOf s port).replays + 1 }))
  ∧ (∀ port s, port < 16 → exec (.peerFlit port (portOf s port).nextSeq true .data) s = .next (setPort s { portOf s port with
      nextSeq := (portOf s port).nextSeq + 1, acked := (portOf s port).acked + 1 }))
  ∧ (∀ port s, port < 16 → exec (.peerFlit port (portOf s port).nextSeq true (.stepAck (portOf s port).step)) s = .next (setPort s { portOf s port with
      nextSeq := (portOf s port).nextSeq + 1, acked := (portOf s port).acked + 1, step := (portOf s port).step + 1
      kept := (portOf s port).kept.filter fun c => c.step != (portOf s port).step }))
  ∧ (∀ port step s, port < 16 → exec (.switchStepAbort port step) s = .next (setPort s { portOf s port with
      kept := modify (fun c => c.step == step) (fun c => { c with sent := c.sent + 1 }) (portOf s port).kept }))
  ∧ (∀ port s, port < 16 → exec (.linkLaneFailure port) s = .next (setPort { s with
        portWrites := modify (fun w => peerOf s w.pa == some port) (fun w => { w with sent := w.sent + 1 }) s.portWrites } { portOf s port with
      lanes := (portOf s port).lanes - 1, retrains := (portOf s port).retrains + 1, replays := (portOf s port).replays + 1
      kept := (portOf s port).kept.map fun c => { c with sent := c.sent + 1 } }))

/-- R323, R355, R374, R434, R435, R439 to R441, R461, R462, R465: what failures, watchdogs, saves and heat do. The
records' fields the spec leaves open follow log entry 22, saves log entry 23 and parked groups log entry 25; that a lost read of a
non-speculative family is given up, with the results of its instruction, that a ticket's entry then ends with FAULT and a pass with
status 1, and which line of a read of many is lost, are log entries 22 and 2. -/
def Obligations.FailuresAndSavesActOnContexts : Prop :=
  (∀ id s l n, lossOf s id = some l → s.node? l.node = some n →
    let t := (nodeRecord { s with free := s.free + 1 } n l.at_).endFamily n false false
    (s.nonSpec n = false → s.passNo id = none → exec (.dataloss id) s = .next t)
    ∧ (s.nonSpec n = true ∨ s.passNo id ≠ none → exec (.dataloss id) s = .next (giveUp t id)))
  ∧ (∀ s id a, s.acc? id = some a → ∀ l ∈ (giveUp s id).lands, l.gid ≠ a.gid)
  ∧ (∀ s id, (∀ a ∈ (giveUp s id).accs, a.id ≠ id) ∧ ((s.accs.any fun a => a.id == id) = false →
      (∀ j ∈ (giveUp s id).jobs, j.jid ≠ id) ∧ (∀ t ∈ (giveUp s id).streams, t.sid ≠ id) ∧ (∀ c ∈ (giveUp s id).bcmds, c.cid ≠ id)
        ∧ ∀ e ∈ (giveUp s id).entries, e.eid = id → e.performed = true ∧ e.status = some 1))
  ∧ (∀ id s a, s.acc? id = some a → a.st = .issued → ∃ l, lossOf s id = some l ∧ l.node = a.node ∧ l.at_.cause = 19
      ∧ l.at_.addr = BitVec.ofNat 64 a.addr ∧ l.at_.pc = a.pc)
  ∧ (∀ core cause s, core < 128 → s.deadCores.contains core = false → ∃ t, exec (.coreMachineCheck core cause) s = .next t
      ∧ t.deadCores = core :: s.deadCores ∧ (∀ x ∈ t.l1, x.core ≠ core) ∧ (∀ x ∈ t.ilines, x.core ≠ core))
  ∧ (∀ core cause s, s.deadCores.contains core = true → exec (.coreMachineCheck core cause) s = .next s)
  ∧ (∀ s core, (∀ w ∈ (dropCore s core).waves, w.core ≠ core ∨ onCores s w.node = false)
      ∧ (∀ a ∈ (dropCore s core).arrays, a.core ≠ core ∨ onCores s a.holder = false)
      ∧ (∀ x ∈ (dropCore s core).accs, ∀ w, s.wave? x.wid = some w → w.core ≠ core ∨ onCores s w.node = false))
  ∧ (∀ core cause s, core < 128 → s.deadCores.contains core = false → exec (.coreMachineCheck core cause) s = .next
      (let t : State := { s with
        deadCores := core :: s.deadCores, l1 := s.l1.filter fun x => x.core != core, ilines := s.ilines.filter fun x => x.core != core }
       (ctxsOnCore s core).foldl (coreRecord core cause) (dropCore (checkNodes t (nodesOnCore s core)) core)))
  ∧ (∀ stack ch i s p n, s.pch? (stack * 64 + ch * 2 + i % 2) = some p → s.node? p.holder = some n →
      exec (.bankParityError stack ch i) s = .next
        ((nodeRecord (dropPch s (stack * 64 + ch * 2 + i % 2)) n { cause := 18, source := 4 }).endFamilyChecked n))
  ∧ (∀ stack ch s, stack < 8 → ch < 32 → (s.groupOr stack (ch / 16)).dead.contains ch = false →
      exec (.channelFailure stack ch) s = .next
        (let g := s.groupOr stack (ch / 16)
         let t := s.setGroup (if g.mode = .reserve ∨ g.mode = .test then
             { g with dead := ch :: g.dead, parked := true, mode := .recovery, tags := [], saved := some (ch % 16) }
           else { g with dead := ch :: g.dead, parked := true, recon := true })
         retirePch (retirePch t (stack * 64 + ch * 2)) (stack * 64 + ch * 2 + 1)))
  ∧ (∀ stack g s, (s.groupOr stack g).parked = true → exec (.channelTrafficResume stack g) s = .next
      (let u := ((s.setGroup { s.groupOr stack g with parked := false }).resumePuts (s.groupOr stack g).holds).resumeWaits
       let t := (s.ctxs.map (·.asid)).foldl (fun t asid => releaseParked t asid fun _ => true) u
       if (t.plat.groups.any fun g => g.parked) = true then t else resumeRegs t))
  ∧ (∀ stack g s, (s.groupOr stack g).parked = false → exec (.channelTrafficResume stack g) s = .next s)
  ∧ (∀ stack g s, (s.groupOr stack g).mode = .recovery → (s.groupOr stack g).parked = false →
      exec (.rebuildComplete stack g) s = .next (s.setGroup { s.groupOr stack g with mode := .home, tags := [] }))
  ∧ (∀ asid s c, s.ctx? asid = some c → wdPaused s c = false → c.wdFrom + c.wdogMs * 1000000 ≤ s.ns →
      exec (.watchdogExpiry asid) s = .next (startSave (s.appendRec { code := kWATCHDOG, flags := 8, source := 7, task := 0xFFFFFFFF
                                                                      asid := c.asid, info := c.wdogMs * 1000 } .nothing) c.asid))
  ∧ (∀ asid s c, s.ctx? asid = some c → c.wd = .saving → s.ns ≤ c.saveFrom + 2000000 → saveReady s asid = true → s.anyParked = false →
      exec (.saveComplete asid) s = .next (stopIfHot (((spillAll s asid).setCtx { c with wd := .saved }).contextEvent c 16)))
  ∧ (∀ asid s c, s.ctx? asid = some c → c.wd = .saving → c.saveFrom + 2000000 < s.ns →
      exec (.saveTimeout asid) s = .next (stopIfHot (((loseContext s c).setCtx { ((loseContext s c).ctx? asid).getD c with wd := .lost }).contextEvent
        (((loseContext s c).ctx? asid).getD c) 18)))
  ∧ (∀ asid s c t, s.ctx? asid = some c → c.restoring = true → s.plat.hot = false → s.plat.stopped = false → s.anyParked = false →
      placeCores c.benched ((s.waves.filter fun w => w.asid == asid && w.spilled).map (·.wid))
        ((s.waves.filter fun w => w.asid == asid && w.spilled).map (·.core)).dedup s = some t → exec (.restoreComplete asid) s = .next
        ((t.setCtx { c with wd := .armed, restoring := false, wdFrom := s.ns }).contextEvent c 17))
  ∧ (∀ s ws src, coreFits s ws src src = true → restoreCore s ws src = some src)
  ∧ (∀ s ws src dst, restoreCore s ws src = some dst → coreFits s ws src dst = true ∧ s.deadCores.contains dst = false)
  ∧ (∀ s, 100 < s.plat.clockMHz → exec .thermalThrottle s = .next { s with plat := { s.plat with clockMHz := s.plat.clockMHz - 100 } })
  ∧ (∀ s, exec .thermalShutdown s = .next
      (let cs := s.ctxs.map fun c => { c with restoring := false }
       stopIfHot ((cs.filter fun c => c.wd == .armed).foldl wdExpire { s with plat := { s.plat with hot := true }, ctxs := cs })))

/-- R234, R244, R251, R319, R439, R454, R463: the clock tick, with which the watchdogs that pause go on pausing; POWER_ON starts the
machine from reset and starts the image only where both signatures and the version pass; a function reset loses the on-chip state
and keeps contexts and accepted tasks; posted writes land in their order. The model's choices: what memory holds over POWER_ON
(log entry 1), how much of the platform a function reset keeps (log entry 21), how the core cycles follow the clock and what else
a tick does (log entry 3), that the tick ends BUSY of CSTAT (log entry 23), and that no tick passes while a gang has first
instructions to issue in the present one (log entry 30, on R319). -/
def Obligations.PowerResetAndTime : Prop :=
  (∀ e l v fuses s, ∃ t, exec (.powerOn e l v fuses) s = .next t
    ∧ (t.plat.fwRunning = true ↔ e = true ∧ l = true ∧ fuses ≤ v) ∧ t.plat.recovery = !t.plat.fwRunning ∧ t.plat.fuses = fuses
    ∧ t.waves = [] ∧ t.ctxs = [] ∧ t.nodes = [] ∧ t.homes = [] ∧ t.l1 = [] ∧ t.accs = [] ∧ t.rays = [] ∧ t.ns = 0 ∧ t.mem = s.mem)
  ∧ (∀ s, ∃ t, exec .functionReset s = .next t ∧ t.waves = [] ∧ t.accs = [] ∧ t.l1 = [] ∧ t.tlb = [] ∧ t.homes = [] ∧ t.rays = []
      ∧ (∀ f ∈ t.fams, ∃ g ∈ s.fams, f = { g with gwct := 0, holdTo := 0 }) ∧ t.arrays = [] ∧ t.ns = 0 ∧ t.portWrites = [] ∧ t.ctxs.map (·.asid) = s.ctxs.map (·.asid)
      ∧ (∀ n ∈ t.nodes, n.index.isSome ∧ n.kind ≠ .cont ∧ (n.rejected = true ∨ n.stage ≠ .running))
      ∧ t.plat.posted = 0 ∧ t.plat.cstatBusy = false ∧ t.plat.fwRunning = s.plat.fwRunning ∧ t.plat.hostData = s.plat.hostData)
  ∧ (∀ s, gangDue s = true → exec .leaseClockTick s = .next s)
  ∧ (∀ s, gangDue s = false → ∃ t, exec .leaseClockTick s = .next t ∧ t.ns = s.ns + 1
      ∧ t.cc = s.cc + ((s.ns + 1) * s.plat.clockMHz / 1000 - s.ns * s.plat.clockMHz / 1000))
  ∧ (∀ s, gangDue s = false → s.portWrites = [] → s.partWaits = [] → s.plat.regWait = [] →
      (∀ c ∈ s.ctxs, c.fqWait = [] ∧ c.evWait = [] ∧ c.migs = [] ∧ (c.benched = false ∨ c.benchReported = true)) →
      exec .leaseClockTick s = .next { s with
      ns := s.ns + 1
      cc := s.cc + ((s.ns + 1) * s.plat.clockMHz / 1000 - s.ns * s.plat.clockMHz / 1000)
      ctxs := s.ctxs.map fun c => if wdPaused s c then { c with wdFrom := c.wdFrom + 1 } else c
      plat := { s.plat with cstatBusy := false } })
  ∧ (∀ s : State, s.landPorts.portWrites = [] ∧ s.landPorts.mem = s.portWrites.foldl (fun m p => m.setBytes p.pa p.bytes) s.mem)

/-! ### Reset, steps and words -/

/-- What reset leaves: no wave, task, context, ray, access or held line; no line resident, the clock at zero, nothing started
and memory with nothing listed, which is its canonical form. The spec gives few of these; the rest are the model's choices
(log entries 1 and 10). -/
def Obligations.ResetLeavesTheMachineIdle : Prop :=
  State.reset.ns = 0 ∧ State.reset.waves = [] ∧ State.reset.nodes = [] ∧ State.reset.ctxs = [] ∧ State.reset.fams = []
  ∧ State.reset.rays = [] ∧ State.reset.accs = [] ∧ State.reset.homes = [] ∧ State.reset.l1 = [] ∧ State.reset.tlb = []
  ∧ State.reset.arrays = [] ∧ State.reset.pchs = [] ∧ State.reset.streams = [] ∧ State.reset.entries = []
  ∧ State.reset.portWrites = [] ∧ State.reset.units = [] ∧ State.reset.passes = [] ∧ State.reset.gens = []
  ∧ State.reset.plat.fwRunning = false ∧ State.reset.plat.startup = true ∧ State.reset.plat.clockMHz = 1400 ∧ State.reset.mem.wf = true
  ∧ ∀ a, State.reset.mem.get a = unlisted

/-- The list of memory cells keeps its canonical form over every step: the invariant is the model's own (log entry 1). -/
def Obligations.EveryStepKeepsMemoryCanonical : Prop := ∀ s t, s.mem.wf = true → step s = .next t → t.mem.wf = true

/-- R25, R93, R95, R388: an issue turn fetches and executes the instruction of the wave that the selector chooses, a
Kite turn that of its ray, an event turn is its event and a tick is a tick. The bytes at the PC are those of its frame
where no line of it is held on chip. The list of turns is the model's own schedule (log entry 3). -/
def Obligations.AStepRunsTheDecodedInstruction : Prop :=
  (∀ s core quad ts w b u, s.turns = .issue core quad :: ts →
    let m := (candidates { s with turns := ts } core quad).foldl markReady { s with turns := ts }
    let v : Wave := { w with startAt := 0 }
    selectWave m core quad = some w → fetch ((takeUnit (countWaits m core quad w.wid) w).setWave v) v = .word b u →
      step s = exec (decodeWord b) { u with cur := some w.wid })
  ∧ (∀ s core quad ts, s.turns = .issue core quad :: ts →
      selectWave ((candidates { s with turns := ts } core quad).foldl markReady { s with turns := ts }) core quad = none →
        step s = .next ((candidates { s with turns := ts } core quad).foldl markReady { s with turns := ts }))
  ∧ (∀ s rid ts r core b t i, s.turns = .kite rid :: ts → s.ray? rid = some r → r.place = .kite core → s.plat.stopped = false →
      ctxRuns s r.asid = true → s.anyParked = false → s.deadCores.contains core = false → kiteFetch { s with turns := ts } r = .word b t → decodeKiteWord b = .ok i →
        step s = exec i { t with curRay := some rid })
  ∧ (∀ s i ts, s.turns = .event i :: ts → step s = exec i { s with turns := ts })
  ∧ (∀ s ts, s.turns = .tick :: ts → step s = exec .leaseClockTick { s with turns := ts })
  ∧ (∀ bs : List Byte, bs.length = 12 → decode bs = .ok (decodeWord (BitVec.ofNat 96 (leNat bs)), []))
  ∧ (∀ s w t, s.ilines = [] → s.homes = [] → s.portWrites = [] → s.parkedPuts = [] → s.names = [] → w.pc.toNat % 4 = 0 → w.pc.toNat % 128 ≤ 116 → s.laneCheck w.asid w.pc.toNat 1 .fetch = none →
      s.lookup w.asid w.pc.toNat .fetch = some t → t.pa < 2 ^ 39 → s.opened w.asid w.pc.toNat = false →
      (∀ k < 128, s.isOwn (t.pa / 128 * 128 + k) = false) → ∃ u, fetch s w = .word
        (BitVec.ofNat 96 (leNat ((List.range 12).map fun i => s.mem.get (t.pa / 128 * 128 + w.pc.toNat % 128 + i)))) u ∧ u.mem = s.mem)

/-- Every instruction executes from every state in which its wave or ray is chosen, and every step of the schedule
that is no instruction given as an event answers a next state: nothing ends a run. That time and other agents advance
by listed turns is the model's (log entry 3). -/
def Obligations.EveryInstructionAnswersAState : Prop :=
  (∀ i s, (isWaveInstr i = true → (s.cur.bind s.wave?).isSome = true) → (isKiteInstr i = true → (s.curRay.bind s.ray?).isSome = true) →
    ∃ t, exec i s = .next t)
  ∧ (∀ i s, isWaveInstr i = true → s.cur.bind s.wave? = none → exec i s = .fault .noWave)
  ∧ (∀ i s, isKiteInstr i = true → s.curRay.bind s.ray? = none → exec i s = .fault .noRay)
  ∧ (∀ s, (∀ i ts, s.turns = .event i :: ts → isWaveInstr i = false ∧ isKiteInstr i = false) → ∃ t, step s = .next t)

/-- R24, R44: decoding the bytes of a well-formed instruction gives it back, with every field at every value. -/
def Obligations.DecodingAnEncodedWordGivesItBack : Prop :=
  ∀ i, isWaveInstr i = true → wellFormed i = true →
    (∃ w, encodeWord i = some w ∧ decodeWord w = i) ∧ (encode i).length = 12 ∧ ∀ rest, decode (encode i ++ rest) = .ok (i, rest)

/-- R24, R44, R388, R389: every 96-bit word is the word of the instruction that it decodes to, which is well formed; a
Kite microinstruction that is well formed decodes from its word, and no other word decodes to it. -/
def Obligations.WordsAndInstructionsCorrespond : Prop :=
  (∀ w, encodeWord (decodeWord w) = some w ∧ wellFormed (decodeWord w) = true)
  ∧ (∀ i, isKiteInstr i = true → wellFormed i = true → ∃ w, encodeKiteWord i = some w ∧ decodeKiteWord w = .ok i)
  ∧ (∀ w i, decodeKiteWord w = .ok i → encodeKiteWord i = some w ∧ wellFormed i = true ∧ isKiteInstr i = true)
  ∧ (∀ bs, bs.length < 12 → decode bs = .error .tooShort) ∧ (∀ bs, bs.length < 8 → decodeKite bs = .error .tooShort)

/-- The words and bytes that the spec writes out for its examples decode to the instructions that it gives them, with the
fields it names. -/
def Obligations.WorkedWordsDecode : Prop :=
  decodeWord 0x102004088100000100000000 = .sadd (plain 0x20 516 516 0 0x10000)
  ∧ decodeWord 0x28C2001002405000000B0000 = .ffma (plain 2 8 9 10 11)
  ∧ decodeWord 0x380400080280000000100000 = .ld (plain 4 4 10 0 16)
  ∧ decodeWord 0x385D00148080000000000000 = .lda (plain 0x1D 10 514 0 0)
  ∧ decodeWord 0x501800080280300000000000 = .atom (plain 0x18 4 10 6 0)
  ∧ decodeWord 0x601900000000000000000000 = .fenceRel (plain 0x19 0 0 0 0)
  ∧ decodeWord 0x604000008500000000000000 = .lwait (plain 0 0 532 0 0)
  ∧ decodeWord 0x700004109650480000800000 = .mstr (plain 0 520 601 521 0x80)
  ∧ decodeWord 0x684100008310700000000000 = .mlds (plain 1 0 524 526 0)
  ∧ decodeWord 0x7880040A8100000000000000 = .tsub (plain 0 517 516 0 0)
  ∧ decodeWord 0x8003005082906000020E0000 = .ecpy (plain 3 40 522 524 526)
  ∧ decodeWord 0x808000288780000000000000 = .edcp (plain 0 20 542 0 0)
  ∧ decodeWord 0x8101043E0500000000000000 = .ewait (plain 1 543 20 0 0)
  ∧ decodeWord 0x88800000821A000000180000 = .bkmac (plain 0 0 520 832 0x18)
  ∧ decodeWord 0x8840000082004000004A0000 = .bkbc (plain 0 0 520 8 0x4A)
  ∧ decodeWord 0x894000008218200000000000 = .bkfnIn (plain 0 0 520 772 0)
  ∧ decodeWord 0x890000388200000007010000 = .bkrd (plain 0 28 520 0 0x701)
  ∧ decodeWord 0x898004148000000000000000 = .bred (plain 0 522 512 0 0)
  ∧ decodeWord 0x904200500210600000000000 = .trace (plain 2 40 8 524 0)
  ∧ decodeWord 0x9801002802000000020C0000 = .tex (plain 1 20 8 0 524)
  ∧ decodeWord 0xA00000000000000000070000 = .trap (plain 0 0 0 0 7)
  ∧ decodeWord 0xA08004080000000000120000 = .srd (plain 0 516 0 0 0x12)
  ∧ decodeWord 0xA04000000000000000000000 = .tret (plain 0 0 0 0 0)
  ∧ decodeWord 0x00C200009200000000030000 = .brm (plain 2 0 584 0 3)
  ∧ decodeWord 0x0280B0000000000000000800 = .halt { plain 0 0 0 0 0 with neg := true, pred := 3, hint := 8 }
  ∧ decodeWord 0xF80100010300000000402000 = .hprf { plain 1 0 0 0 0x40 with a := ⟨true, 12⟩, hint := 0x20 }
  ∧ decode [0x00, 0x08, 0, 0, 0, 0, 0, 0, 0, 0xB0, 0x80, 0x02] = .ok (.halt { plain 0 0 0 0 0 with neg := true, pred := 3, hint := 8 }, [])
  ∧ decodeKiteWord 0x0040800000000000 = .ok (.kiteNldChild { kd := 0, ka := 2, kb := 0, sub := 2, imm := 0 })
  ∧ decodeKite [0, 0, 0, 0, 0, 0, 0x20, 0x0A] = .ok (.kiteBxi { kd := 2, ka := 1, kb := 0, sub := 0, imm := 0 })
  ∧ decodeKiteWord 0x30620000FFFFFFFF = .ok (.kiteCmpImm { kd := 0, ka := 3, kb := 0, sub := 8, imm := 0xFFFFFFFF })
  ∧ decodeKiteWord 0xFFFFFFFFFFFFFFFF = .error .kiteIllegal

/-- R37: the guard mask, and what each guard rule does with it. -/
def Obligations.GuardsSelectWhatActs : Prop :=
  (∀ w f, guardOf w f = if f.neg = true then ~~~(w.pr f.pred.toNat) else w.pr f.pred.toNat)
  ∧ (∀ w f, f.pred = 0 → guardOf w f = if f.neg = true then 0 else 0xFFFFFFFF)
  ∧ (∀ i f s c, ready i f s = some c → c.w.rp = none → c.m = c.w.exec &&& guardOf c.w f)
  ∧ (∀ f m, acts .lane f m = some (decide (m ≠ 0)))
  ∧ (∀ f m, acts .wave f m = some (decide ((f.neg = false ∧ f.pred = 0) ∨ m ≠ 0)))
  ∧ (∀ f m, acts .full f m = if m = 0 then some false else if m = 0xFFFFFFFF then some true else none)
  ∧ (∀ i cls op f s w sh, opOf i = some (cls, op, f) → cls ≠ 31 → s.cur.bind s.wave? = some w → stepDue w = false →
      pcMatch (start s) w = none → shape i = some sh → shapeOk sh f = true → step5 sh f w.allot = none → sh.rule = .full →
      w.exec &&& guardOf w f ≠ 0 → w.exec &&& guardOf w f ≠ 0xFFFFFFFF → exec i s = .next ((start s).takeTrap { w with supp := false }
        ((start s).waveRec w kCONVERGE 0 0 0 0 (w.exec &&& guardOf w f).toNat) w.pc))
  ∧ (∀ i f w s, prepare i f w s = .skip ↔ ∃ sh, shape i = some sh ∧ shapeOk sh f = true ∧ step5 sh f w.allot = none
      ∧ acts sh.rule f (w.exec &&& guardOf w f) = some false)
  ∧ (∀ i cls op f s w, opOf i = some (cls, op, f) → i ≠ .talloc f → s.cur.bind s.wave? = some w → stepDue w = false →
      pcMatch (start s) w = none → prepare i f w (start s) = .skip →
        ∃ c : Ctx, c.w = w ∧ c.pops = [] ∧ exec i s = .next (ends c (start s)))
  ∧ (∀ f s w, s.cur.bind s.wave? = some w → stepDue w = false → pcMatch (start s) w = none → prepare (.talloc f) f w (start s) = .skip →
      ((start s).nodeOf w).launch.det = false → ∃ c : Ctx, c.w = w ∧ c.pops = [] ∧ exec (.talloc f) s = .next (ends c (start s)))
  ∧ (∀ (c : Ctx) s n (m : Word) g r l, c.d = some (.v r) → l < 32 → m.getLsbD l = false → ∀ w, s.wave? c.w.wid = some w →
      ∃ v, (c.putVec s n m g).wave? c.w.wid = some v ∧ ∀ k, v.vl k l = w.vl k l)
  ∧ (∀ (c : Ctx) s v (m : Word) r l, c.d = some (.p r) → l < 32 → m.getLsbD l = false → ∀ w, s.wave? c.w.wid = some w →
      ∃ u, (c.putPred s m v).wave? c.w.wid = some u ∧ ∀ k, (u.pr k).getLsbD l = (w.pr k).getLsbD l)

/-- R39, R40, R45, R430, R431: the checks of an instruction come in the order given, one of them decides, and each trap
goes to the handler or ends the task; an empty source waits or traps, and a full destination waits for nothing. R381, R397: the
live set of `trace`, `tracec` and `cget.live` is held to the allotment; that the trap names its last register is the model's
choice (log entry 32). -/
def Obligations.ChecksComeInTheOrderGiven : Prop :=
  (∀ i cls op f s w sh, opOf i = some (cls, op, f) → cls ≠ 31 → s.cur.bind s.wave? = some w → stepDue w = false →
      pcMatch (start s) w = none → shape i = some sh →
    let traps (code opnd info : Nat) : Prop := exec i s = .next ((start s).takeTrap { w with supp := false }
      ((start s).waveRec w code 0 0 0 opnd info) w.pc)
    let m := w.exec &&& guardOf w f
    (shapeOk sh f = false → traps 1 0 0)
    ∧ (∀ k o, shapeOk sh f = true → step5 sh f w.allot = some (k, o) → traps k o 0)
    ∧ (shapeOk sh f = true → step5 sh f w.allot = none → acts sh.rule f m = none → traps 5 0 m.toNat)
    ∧ (∀ k o, shapeOk sh f = true → step5 sh f w.allot = none → acts sh.rule f m = some true → step7 sh f w = some (k, o) → traps k o 0)
    ∧ (∀ base r u k, (i = .trace f ∨ i = .tracec f ∨ i = .cgetLive f) → shapeOk sh f = true → step5 sh f w.allot = none →
        acts sh.rule f m = some true → step7 sh f w = none → resolved w 0 sh.d f.d = some (.v base) → sh.imm = false →
        resolved w 2 sh.b f.b = some r → sh.b = some u → (maskBits (SrcVal.w (readOp w u r) 0)).getLast? = some k → w.allot ≤ base + k →
          traps 3 ((base + k) % 1024) 0))
  ∧ (∀ s w place u n fe qs, regsFull w u (.v n) = true → (match readSrc s w place u (.v n) fe qs with | .ok v q => v = readOp w u (.v n) ∧ q = qs | _ => False))
  ∧ (∀ s w place u n qs, regsFull w u (.v n) = false → (match readSrc s w place u (.v n) false qs with | .wait => True | _ => False)
      ∧ (match readSrc s w place u (.v n) true qs with | .trap k _ => k = 4 | _ => False))
  ∧ (∀ s w m u n, (match destCheck s w m u (.v n) with | none => regsFull w u (.v n) = true | some .wait => regsFull w u (.v n) = false | _ => False))
  ∧ (∀ (s : State) (w : Wave) (r : FaultRec) (epc : Word64), (w.hnd = true ∨ s.handlerOf w = 0) → ∃ fl,
      s.takeTrap w r epc = (if s.nonSpec (s.nodeOf w) then [] else s.rangeRecs w.node).foldl (fun s r => s.appendRec r .nothing)
        ((s.setWave { w with st := .blocked, waitCtr := 0, held := true }).appendRec { r with flags := fl } (.ends w.wid))
      ∧ fl % 8 / 4 = (if w.hnd then 1 else 0) ∧ fl % 4 / 2 = (if s.nonSpec (s.nodeOf w) then 1 else 0))
  ∧ (∀ (s : State) wid w, s.wave? wid = some w → w.held = true → s.endTrapped (.ends wid) = s.endFamilyTrapped (s.nodeOf w))
  ∧ (∀ c t w, t.wave? c.w.wid = some w → c.pops = [] → w.stepping = false → ends c t = t.setWave { w with
      pc := w.pc + 12, st := .ready, waitCtr := 0, hpri := w.hpri - 1, rp := none, supp := false, pending := none, bndFrom := none })

/-! ### What the operations compute -/

/-- R122, R123, R125, R129 and part of R128: element-wise arithmetic that wraps or saturates, division with its corners, shifts, bit
fields and counts. -/
def Obligations.IntegerOperationsComputeTheirValues : Prop :=
  (∀ f g a b i, i < wdCount (wd f) → let n := wdBits (wd f)
    arith f g a b / 2 ^ (n * i) % 2 ^ n = wrap n (let v := g (elemVal (sg f) n (a / 2 ^ (n * i) % 2 ^ n)) (elemVal (sg f) n (b / 2 ^ (n * i) % 2 ^ n))
      if vr f = 1 then clamp (sg f) n v else v))
  ∧ (∀ sg n t, 1 ≤ n → let lo : Int := if sg then -(2 ^ (n - 1)) else 0
      let hi : Int := if sg then 2 ^ (n - 1) - 1 else 2 ^ n - 1
      (lo ≤ t → t ≤ hi → clamp sg n t = t) ∧ (t < lo → clamp sg n t = lo) ∧ (hi < t → clamp sg n t = hi))
  ∧ (∀ a b, a < 2 ^ 32 → b < 2 ^ 32 → b ≠ 0 → divOp false a b * b + remOp false a b = a ∧ remOp false a b < b)
  ∧ (∀ a b, a < 2 ^ 32 → b < 2 ^ 32 → b ≠ 0 → ¬ (a = 2 ^ 31 ∧ b = 2 ^ 32 - 1) →
      sext 32 (divOp true a b) = (sext 32 a).tdiv (sext 32 b) ∧ sext 32 (remOp true a b) = (sext 32 a).tmod (sext 32 b))
  ∧ (divOp true (2 ^ 31) (2 ^ 32 - 1) = 2 ^ 31 ∧ remOp true (2 ^ 31) (2 ^ 32 - 1) = 0)
  ∧ (∀ sg a, a < 2 ^ 32 → remOp sg a 0 = a ∧ divOp sg a 0 = if sg = true ∧ 2 ^ 31 ≤ a then 1 else 0xFFFFFFFF)
  ∧ (∀ n a c, a < 2 ^ n → shlOp n a c = a * 2 ^ c % 2 ^ n ∧ shrOp n a c = a / 2 ^ c ∧ sraOp n a c = wrap n (sext n a / 2 ^ c)
      ∧ (n ≤ c → shlOp n a c = 0 ∧ shrOp n a c = 0 ∧ (1 ≤ n → sraOp n a c = if 2 ^ (n - 1) ≤ a then 2 ^ n - 1 else 0)))
  ∧ (∀ n a, a < 2 ^ n → clzOp n a ≤ n ∧ a < 2 ^ (n - clzOp n a) ∧ (a ≠ 0 → 2 ^ (n - 1 - clzOp n a) ≤ a) ∧ (a = 0 → clzOp n a = n))
  ∧ (∀ n a b, popOp n 0 = 0 ∧ (a < 2 ^ n → b ≤ 1 → popOp (n + 1) (2 * a + b) = popOp n a + b))
  ∧ (∀ o w a b i, o + w ≤ 64 → (bfiOp o w a b).testBit i = if o ≤ i ∧ i < o + w then a.testBit (i - o) else b.testBit i)
  ∧ (∀ n o w a i, o + w ≤ n → (bfeOp false n o w a).testBit i = (decide (i < w) && a.testBit (o + i)))
  ∧ (∀ n o w a, o + w ≤ n → bfeOp true n o w a = if w = 0 then 0 else wrap n (sext w (a / 2 ^ o % 2 ^ w)))
  ∧ (∀ i : Fields → Instr, ∀ g, (i = .sshl ∧ g = shlOp) ∨ (i = .sshr ∧ g = shrOp) ∨ (i = .ssra ∧ g = sraOp) →
      Scalar i words fun c => g (wdBits (wd c.f)) (c.aAt 0) (if im c.f then c.f.imm32 else c.vb.w 0).toNat)
  ∧ (∀ i : Fields → Instr, ∀ g, (i = .vshl ∧ g = shlOp) ∨ (i = .vshr ∧ g = shrOp) ∨ (i = .vsra ∧ g = sraOp) →
      Vector i words fun c l => g (wdBits (wd c.f)) (c.aAt l) (if im c.f then c.f.imm32 else c.vb.w l).toNat)
  ∧ Scalar .sdiv words (fun c => divOp (sg c.f) (c.aAt 0) (c.bAt 0)) ∧ Scalar .srem words (fun c => remOp (sg c.f) (c.aAt 0) (c.bAt 0))
  ∧ Scalar .sclz one (fun c => clzOp (wdBits (wd c.f)) (c.aAt 0)) ∧ Scalar .spopc one (fun c => popOp (wdBits (wd c.f)) (c.aAt 0))
  ∧ Vector .vclz one (fun c l => clzOp (wdBits (wd c.f)) (c.aAt l)) ∧ Vector .vpopc one (fun c l => popOp (wdBits (wd c.f)) (c.aAt l))

/-- R69, R70, R76, R77, R79 to R82, R144: codes round to themselves, an inexact value rounds to the neighbour that its mode names, and
sums and products are exact before their one rounding; encoding the value of a DYN8 code gives the code back. -/
def Obligations.FloatValuesRoundOnce : Prop :=
  (∀ p ∈ ieee, ∀ mode b, b < 2 ^ p.width → (p.decode b).isNan = false → p.round mode false (p.decode b) = (b, 0))
  ∧ (∀ p ∈ ieee, ∀ mode ftz sig, p.round mode ftz (.nan sig) = (p.nan, 0))
  ∧ (∀ mode neg m k, let r := rndShift mode neg m k
      (r.2 = false ↔ m % 2 ^ k = 0) ∧ (r.2 = false → r.1 * 2 ^ k = m)
      ∧ (mode = 1 → r.1 * 2 ^ k ≤ m ∧ m < (r.1 + 1) * 2 ^ k)
      ∧ ((mode = 2 ∧ neg = false ∨ mode = 3 ∧ neg = true) → m ≤ r.1 * 2 ^ k ∧ r.1 * 2 ^ k < m + 2 ^ k)
      ∧ ((mode = 2 ∧ neg = true ∨ mode = 3 ∧ neg = false) → r.1 * 2 ^ k ≤ m ∧ m < (r.1 + 1) * 2 ^ k)
      ∧ ((mode = 0 ∨ mode = 4) → 2 * (r.1 * 2 ^ k) ≤ 2 * m + 2 ^ k ∧ 2 * m ≤ 2 * (r.1 * 2 ^ k) + 2 ^ k)
      ∧ (mode = 0 → 2 * (m % 2 ^ k) = 2 ^ k → r.1 % 2 = 0) ∧ (mode = 4 → 2 * (m % 2 ^ k) = 2 ^ k → r.1 = m / 2 ^ k + 1))
  ∧ (∀ mode x m e y n g, ratOf ((FV.fin x m e).add mode (.fin y n g)).1 = ratOf (.fin x m e) + ratOf (.fin y n g)
      ∧ ((FV.fin x m e).add mode (.fin y n g)).2 = 0)
  ∧ (∀ x m e y n g, ratOf ((FV.fin x m e).mul (.fin y n g)).1 = ratOf (.fin x m e) * ratOf (.fin y n g)
      ∧ ((FV.fin x m e).mul (.fin y n g)).2 = 0)
  ∧ (∀ mode x m e y n g z k h, ratOf ((FV.fin x m e).fma mode (.fin y n g) (.fin z k h)).1
      = ratOf (.fin x m e) * ratOf (.fin y n g) + ratOf (.fin z k h))
  ∧ (∀ mode a b, a.isNan = true ∨ b.isNan = true → (FV.add mode a b).1.isNan = true ∧ (FV.mul a b).1.isNan = true)
  ∧ (∀ mode m e, m ≠ 0 → (FV.add mode (.fin false m e) (.fin true m e)).1 = .fin (mode == 3) 0 0)
  ∧ (∀ b, b < 256 → (encodeDyn8 (decodeDyn8 b)).1 = b)

/-! ### Frames -/

/-- R37, R38, R86, R131: the scalar, mask, lane integer, float and conversion instructions that act change their destination,
the flags of the float ones, the carry predicate of the additions with carry, the queues they pop and push and nothing else; the
wave goes on at PC + 12. Those that combine lanes do so where the deterministic check of a continuation wave does not trap. -/
def Obligations.RegisterInstructionsChangeOnlyTheirDestination : Prop :=
  (∀ x ∈ scalarOps ++ laneOps, WritesOnly x (fun _ => none) (fun _ => True) True)
  ∧ (∀ x ∈ floatOps, WritesOnly x (fun _ => none) (fun _ => True) False)
  ∧ (∀ x ∈ crossOps, WritesOnly x (fun _ => none) (fun c => c.contDet = false) True)
  ∧ (∀ x ∈ crossFloatOps, WritesOnly x (fun _ => none) (fun c => c.contDet = false) False)
  ∧ (∀ x ∈ carryOps, WritesOnly x (fun f => some (f.e 2 0)) (fun _ => True) True)
  ∧ (∀ f s c t, ready (.vaddx f) f s = some c → c.w.stepping = false → execVaddx f s = .next t → ∃ v, t.wave? c.w.wid = some v
      ∧ ∀ l, c.m.getLsbD l = false → (v.pr (f.e 2 0)).getLsbD l = (c.w.pr (f.e 2 0)).getLsbD l)

/-- R38, R177, R180, R183, R196, R236, R240: loads and stores change no byte when they issue; an access that is performed
changes only the bytes at its address. A store of a speculative family changes only its version: no committed byte, no register, and
of no resident line the data or the dirty mark. That a store to the part's own frames, which no context maps, changes no byte is the
model's choice (log entry 31). -/
def Obligations.MemoryChangesOnlyAtTheAccessedBytes : Prop :=
  (∀ c s kind hits scope r, (loaded c s kind hits scope r).mem = s.mem ∧ (loaded c s kind hits scope r).homes = s.homes
      ∧ (loaded c s kind hits scope r).spads = s.spads
      ∧ ∀ a ∈ (loaded c s kind hits scope r).accs, a ∈ s.accs ∨ (a.wid = c.w.wid ∧ a.kind = kind ∧ a.scope = scope ∧ a.space = .glob
        ∧ c.m.getLsbD a.lane = true ∧ a.addr = memAddr c (tyF c.f) a.lane ∧ a.size = tySize (tyF c.f)))
  ∧ (∀ c s rel scope, (stored c s rel scope).mem = s.mem ∧ (stored c s rel scope).homes = s.homes ∧ (stored c s rel scope).spads = s.spads
      ∧ ∀ a ∈ (stored c s rel scope).accs, a ∈ s.accs ∨ (a.wid = c.w.wid ∧ a.kind = .store rel ∧ a.scope = scope ∧ a.space = .glob
        ∧ c.m.getLsbD a.lane = true ∧ a.addr = memAddr c (tyF c.f) a.lane ∧ a.size = tySize (tyF c.f)
        ∧ a.data = storeData c (tyF c.f) a.lane))
  ∧ (∀ s a t h rel, a.kind = .store rel → a.space = .glob → s.home? a.asid (a.addr / 128) = some h → h.vc = false → h.data.length = 128 →
      a.addr % 128 + a.size ≤ 128 → t.home ≠ 3 → t.pa < 2 ^ 39 → s.specFam a.node = none →
        (performStore s a t).mem = s.mem ∧ (performStore s a t).spads = s.spads
        ∧ (∀ asid line, (asid, line) ≠ (a.asid, a.addr / 128) → (performStore s a t).home? asid line = s.home? asid line)
        ∧ ∃ h', (performStore s a t).home? a.asid (a.addr / 128) = some h' ∧ h'.data.length = 128 ∧ h'.dirty = true
          ∧ ∀ i < 128, h'.data.getD i 0 = if a.addr % 128 ≤ i ∧ i < a.addr % 128 + a.size then
              (leBytes a.size a.data).getD (i - a.addr % 128) 0 else h.data.getD i 0)
  ∧ (∀ s a t rel, a.kind = .store rel → a.space = .glob → t.home = 3 → t.pa < 2 ^ 39 → s.specFam a.node = none → s.mem.wf = true →
      s.isParked t.pa = false →
      (performStore s a t).homes = s.homes ∧ ∀ p, (performStore s a t).mem.get p =
        if s.isOwn t.pa = false ∧ t.pa ≤ p ∧ p < t.pa + a.size then (leBytes a.size a.data).getD (p - t.pa) 0 else s.mem.get p)
  ∧ (∀ s a t k f rel, a.kind = .store rel → a.space = .glob → t.pa < 2 ^ 39 → s.specFam a.node = some k → s.fam? k = some f →
      s.homes.length < Config.sliceLines →
        (performStore s a t).mem = s.mem ∧ (performStore s a t).waves = s.waves ∧ (performStore s a t).spads = s.spads
        ∧ (performStore s a t).redos = s.redos ∧ (performStore s a t).nodes = s.nodes
        ∧ (∀ asid line h, s.home? asid line = some h → ∃ h', (performStore s a t).home? asid line = some h'
            ∧ h'.data = h.data ∧ h'.dirty = h.dirty)
        ∧ (∀ j, j ≠ k → (performStore s a t).fam? j = s.fam? j)
        ∧ ∃ g, (performStore s a t).fam? k = some g ∧ { g with writes := f.writes } = f
          ∧ ∀ p, ovGet g.writes p = if a.addr ≤ p ∧ p < a.addr + a.size then some ((leBytes a.size a.data).getD (p - a.addr) 0)
              else ovGet f.writes p)
  ∧ (∀ s a t k rel, a.kind = .store rel → a.space = .spad k → (performStore s a t).mem = s.mem ∧ (performStore s a t).homes = s.homes
      ∧ ∀ p, s.spad? a.node k = some p → p.bytes.wf = true → wordsMet p a.addr a.size = [] → ∃ q, (performStore s a t).spad? a.node k = some q
        ∧ ∀ o, q.bytes.get o = if a.addr ≤ o ∧ o < a.addr + a.size then (leBytes a.size a.data).getD (o - a.addr) 0 else p.bytes.get o)
end

