-- ==== Sys2Proof/Laws/Issue.lean ====
section
/-! SUPPORT. What the shared operations of an instruction can do: the issue, its completion, and the writing of results.
Each `_only` lemma names the fields that an operation may change. -/

namespace Sys2Proof.Machine

/-! ### Waves -/

/-- Replacing a wave that is there makes it the wave of its number. -/
theorem State.wave?_setWave_self {s : State} {w v : Wave} (h : s.wave? w.wid = some v) : (s.setWave w).wave? w.wid = some w := by
  unfold State.wave? State.setWave modify at *
  revert h
  generalize s.waves = l
  dsimp only
  induction l with
  | nil => intro h; simp at h
  | cons x l ih =>
    intro h
    by_cases hx : x.wid = w.wid
    · simp [hx]
    · simp only [List.find?_cons, hx, beq_iff_eq, if_false, List.map_cons, beq_eq_false_iff_ne.2 hx] at h ⊢
      simpa using ih h

/-- Replacing a wave leaves the others. -/
theorem State.wave?_setWave_ne {s : State} {w : Wave} {k : Nat} (h : k ≠ w.wid) : (s.setWave w).wave? k = s.wave? k := by
  simp only [State.wave?, State.setWave, modify]
  induction s.waves with
  | nil => rfl
  | cons x l ih =>
    simp only [List.map_cons, List.find?_cons]
    by_cases hx : x.wid == w.wid
    · have hw : x.wid = w.wid := by simpa using hx
      have h1 : (w.wid == k) = false := by simp; omega
      have h2 : (x.wid == k) = false := by simp; omega
      simp only [hx, if_true, h1, h2]
      exact ih
    · simp only [hx, Bool.false_eq_true, if_false]
      split
      · rfl
      · exact ih

theorem State.setWave_only (s : State) (w : Wave) : { s.setWave w with waves := s.waves } = s := rfl

/-! ### Results -/

/-- A queue push changes waves, streams and the name counter only. -/
theorem pushQ_only (s : State) (w : Wave) (q : Nat) (m : Word) (vals : List Nat) :
    { pushQ s w q m vals with waves := s.waves, streams := s.streams, nextId := s.nextId } = s := by
  unfold pushQ
  split
  · rfl
  · dsimp only
    split <;> rfl

theorem Ctx.putVec_only (c : Ctx) (s : State) (n : Nat) (m : Word) (g : Nat → Nat) :
    { c.putVec s n m g with waves := s.waves, streams := s.streams, nextId := s.nextId } = s := by
  unfold Ctx.putVec
  split
  · rfl
  · exact pushQ_only ..
  · rfl

theorem Ctx.putScalar_only (c : Ctx) (s : State) (n v : Nat) : { c.putScalar s n v with waves := s.waves } = s := by
  unfold Ctx.putScalar
  split <;> rfl

theorem Ctx.putPred_only (c : Ctx) (s : State) (m v : Word) : { c.putPred s m v with waves := s.waves } = s := by
  unfold Ctx.putPred
  split <;> rfl

theorem Ctx.addFlags_only (c : Ctx) (s : State) (fl : Flags) : { c.addFlags s fl with waves := s.waves } = s := rfl

/-- Popping a queue changes waves and streams only. -/
theorem popOne_only (s : State) (w : Wave) (m : Word) (q : Nat) :
    { popOne s w m q with waves := s.waves, streams := s.streams } = s := by
  unfold popOne
  split
  · dsimp only
    split <;> rfl
  · rfl

/-- Popping queues changes waves and streams only. -/
theorem popAll_only (s : State) (w : Wave) (m : Word) (qs : List Nat) :
    { popAll s w m qs with waves := s.waves, streams := s.streams } = s := by
  unfold popAll
  induction qs generalizing s with
  | nil => rfl
  | cons q qs ih =>
    have := congrArg (fun x : State => { x with waves := s.waves, streams := s.streams }) (ih (popOne s w m q))
    exact this.trans (popOne_only s w m q)

/-! ### Completion -/

/-- A wave that is not stepping goes on without a debug stop. -/
theorem afterStep_id {s : State} {wid : Nat} (h : ∀ w, s.wave? wid = some w → w.stepping = false) : afterStep s wid = s := by
  unfold afterStep
  split
  · rename_i w hw
    simp [h w hw]
  · rfl

/-- An instruction that completes under no single step changes waves and streams beyond what its body did. -/
theorem finish_done_only {c : Ctx} {s t : State} (h : ∀ w, (popAll t c.w c.m c.pops).wave? c.w.wid = some w →
    w.stepping = false ∧ w.wid = c.w.wid) :
    { finish c s (.done t) with waves := t.waves, streams := t.streams } = t := by
  simp only [finish]
  split
  · rename_i w hw
    rw [afterStep_id]
    · exact popAll_only t c.w c.m c.pops
    · intro v hv
      have hw' := h w hw
      have := State.wave?_setWave_self (s := popAll t c.w c.m c.pops)
        (w := { retire w with pc := w.pc + 12, st := .ready }) (v := w) (by simpa [retire, hw'.2] using hw)
      have e : ({ retire w with pc := w.pc + 12, st := .ready } : Wave).wid = c.w.wid := by simp [retire, hw'.2]
      rw [e, hv] at this
      cases this
      exact hw'.1
  · exact popAll_only t c.w c.m c.pops

/-! ### The issue -/

/-- An instruction that passes every check of R45 does what its body does. -/
theorem issue_go {i : Instr} {f : Fields} {s : State} {w : Wave} {c : Ctx} {body : Ctx → State → Act}
    (hw : s.cur.bind s.wave? = some w) (hs : stepDue w = false) (hp : pcMatch { s with cur := none } w = none)
    (hc : prepare i f w { s with cur := none } = .go c) :
    issue i f s body = .next (finish c { s with cur := none } (body c { s with cur := none })) := by
  simp [issue, issueOr, hw, hs, hp, hc]

/-- An instruction that does not act goes on at PC + 12 (R37). -/
theorem issue_skip {i : Instr} {f : Fields} {s : State} {w : Wave} {body : Ctx → State → Act}
    (hw : s.cur.bind s.wave? = some w) (hs : stepDue w = false) (hp : pcMatch { s with cur := none } w = none)
    (hc : prepare i f w { s with cur := none } = .skip) :
    issue i f s body = .next (finish
      { w := w, node := ({ s with cur := none } : State).nodeOf w, f := f, sh := { rule := .wave, modOk := true, extOk := true }
        m := 0 } { s with cur := none } (.done { s with cur := none })) := by
  simp [issue, issueOr, hw, hs, hp, hc]

/-- An instruction that fails a check of R45 does what the check says. -/
theorem issue_stop {i : Instr} {f : Fields} {s : State} {w : Wave} {a : Act} {body : Ctx → State → Act}
    (hw : s.cur.bind s.wave? = some w) (hs : stepDue w = false) (hp : pcMatch { s with cur := none } w = none)
    (hc : prepare i f w { s with cur := none } = .stop a) :
    issue i f s body = .next (finish
      { w := w, node := ({ s with cur := none } : State).nodeOf w, f := f, sh := { rule := .wave, modOk := true, extOk := true }
        m := 0 } { s with cur := none } a) := by
  simp [issue, issueOr, hw, hs, hp, hc]

/-- The issue of an instruction answers a next state unless no wave is selected. -/
theorem issue_next {i : Instr} {f : Fields} {s : State} {w : Wave} {body : Ctx → State → Act}
    (hw : s.cur.bind s.wave? = some w) : ∃ t, issue i f s body = .next t := by
  simp only [issue, issueOr, hw]
  split
  · exact ⟨_, rfl⟩
  · split
    · exact ⟨_, rfl⟩
    · split <;> exact ⟨_, rfl⟩

end Sys2Proof.Machine
end

