-- ==== Sys2Proof/Laws/State.lean ====
section
/-! SUPPORT. What each update of the state leaves alone: one lemma per field per update, true by definition. -/

namespace Sys2Proof.Machine.State

/-! ### `setWave` -/

@[simp] theorem setWave_turns (s : State) (w : Wave) : (s.setWave w).turns = s.turns := rfl
@[simp] theorem setWave_cur (s : State) (w : Wave) : (s.setWave w).cur = s.cur := rfl
@[simp] theorem setWave_curRay (s : State) (w : Wave) : (s.setWave w).curRay = s.curRay := rfl
@[simp] theorem setWave_free (s : State) (w : Wave) : (s.setWave w).free = s.free := rfl
@[simp] theorem setWave_nextId (s : State) (w : Wave) : (s.setWave w).nextId = s.nextId := rfl
@[simp] theorem setWave_ns (s : State) (w : Wave) : (s.setWave w).ns = s.ns := rfl
@[simp] theorem setWave_cc (s : State) (w : Wave) : (s.setWave w).cc = s.cc := rfl
@[simp] theorem setWave_mem (s : State) (w : Wave) : (s.setWave w).mem = s.mem := rfl
@[simp] theorem setWave_homes (s : State) (w : Wave) : (s.setWave w).homes = s.homes := rfl
@[simp] theorem setWave_evicted (s : State) (w : Wave) : (s.setWave w).evicted = s.evicted := rfl
@[simp] theorem setWave_moved (s : State) (w : Wave) : (s.setWave w).moved = s.moved := rfl
@[simp] theorem setWave_portWrites (s : State) (w : Wave) : (s.setWave w).portWrites = s.portWrites := rfl
@[simp] theorem setWave_parkedPuts (s : State) (w : Wave) : (s.setWave w).parkedPuts = s.parkedPuts := rfl
@[simp] theorem setWave_partWaits (s : State) (w : Wave) : (s.setWave w).partWaits = s.partWaits := rfl
@[simp] theorem setWave_names (s : State) (w : Wave) : (s.setWave w).names = s.names := rfl
@[simp] theorem setWave_softWrites (s : State) (w : Wave) : (s.setWave w).softWrites = s.softWrites := rfl
@[simp] theorem setWave_l1 (s : State) (w : Wave) : (s.setWave w).l1 = s.l1 := rfl
@[simp] theorem setWave_ilines (s : State) (w : Wave) : (s.setWave w).ilines = s.ilines := rfl
@[simp] theorem setWave_tlb (s : State) (w : Wave) : (s.setWave w).tlb = s.tlb := rfl
@[simp] theorem setWave_clusters (s : State) (w : Wave) : (s.setWave w).clusters = s.clusters := rfl
@[simp] theorem setWave_redos (s : State) (w : Wave) : (s.setWave w).redos = s.redos := rfl
@[simp] theorem setWave_redoLines (s : State) (w : Wave) : (s.setWave w).redoLines = s.redoLines := rfl
@[simp] theorem setWave_spads (s : State) (w : Wave) : (s.setWave w).spads = s.spads := rfl
@[simp] theorem setWave_quads (s : State) (w : Wave) : (s.setWave w).quads = s.quads := rfl
@[simp] theorem setWave_deadCores (s : State) (w : Wave) : (s.setWave w).deadCores = s.deadCores := rfl
@[simp] theorem setWave_comps (s : State) (w : Wave) : (s.setWave w).comps = s.comps := rfl
@[simp] theorem setWave_unitQ (s : State) (w : Wave) : (s.setWave w).unitQ = s.unitQ := rfl
@[simp] theorem setWave_units (s : State) (w : Wave) : (s.setWave w).units = s.units := rfl
@[simp] theorem setWave_streams (s : State) (w : Wave) : (s.setWave w).streams = s.streams := rfl
@[simp] theorem setWave_accs (s : State) (w : Wave) : (s.setWave w).accs = s.accs := rfl
@[simp] theorem setWave_lands (s : State) (w : Wave) : (s.setWave w).lands = s.lands := rfl
@[simp] theorem setWave_gangMsgs (s : State) (w : Wave) : (s.setWave w).gangMsgs = s.gangMsgs := rfl
@[simp] theorem setWave_arrays (s : State) (w : Wave) : (s.setWave w).arrays = s.arrays := rfl
@[simp] theorem setWave_pchs (s : State) (w : Wave) : (s.setWave w).pchs = s.pchs := rfl
@[simp] theorem setWave_bcmds (s : State) (w : Wave) : (s.setWave w).bcmds = s.bcmds := rfl
@[simp] theorem setWave_bankWritten (s : State) (w : Wave) : (s.setWave w).bankWritten = s.bankWritten := rfl
@[simp] theorem setWave_jobs (s : State) (w : Wave) : (s.setWave w).jobs = s.jobs := rfl
@[simp] theorem setWave_entries (s : State) (w : Wave) : (s.setWave w).entries = s.entries := rfl
@[simp] theorem setWave_deadPchs (s : State) (w : Wave) : (s.setWave w).deadPchs = s.deadPchs := rfl
@[simp] theorem setWave_bindings (s : State) (w : Wave) : (s.setWave w).bindings = s.bindings := rfl
@[simp] theorem setWave_rays (s : State) (w : Wave) : (s.setWave w).rays = s.rays := rfl
@[simp] theorem setWave_passes (s : State) (w : Wave) : (s.setWave w).passes = s.passes := rfl
@[simp] theorem setWave_appends (s : State) (w : Wave) : (s.setWave w).appends = s.appends := rfl
@[simp] theorem setWave_nodes (s : State) (w : Wave) : (s.setWave w).nodes = s.nodes := rfl
@[simp] theorem setWave_tags (s : State) (w : Wave) : (s.setWave w).tags = s.tags := rfl
@[simp] theorem setWave_fams (s : State) (w : Wave) : (s.setWave w).fams = s.fams := rfl
@[simp] theorem setWave_ctxs (s : State) (w : Wave) : (s.setWave w).ctxs = s.ctxs := rfl
@[simp] theorem setWave_gens (s : State) (w : Wave) : (s.setWave w).gens = s.gens := rfl
@[simp] theorem setWave_plat (s : State) (w : Wave) : (s.setWave w).plat = s.plat := rfl

/-! ### `setStream` -/

@[simp] theorem setStream_turns (s : State) (t : Stream) : (s.setStream t).turns = s.turns := rfl
@[simp] theorem setStream_cur (s : State) (t : Stream) : (s.setStream t).cur = s.cur := rfl
@[simp] theorem setStream_curRay (s : State) (t : Stream) : (s.setStream t).curRay = s.curRay := rfl
@[simp] theorem setStream_free (s : State) (t : Stream) : (s.setStream t).free = s.free := rfl
@[simp] theorem setStream_nextId (s : State) (t : Stream) : (s.setStream t).nextId = s.nextId := rfl
@[simp] theorem setStream_ns (s : State) (t : Stream) : (s.setStream t).ns = s.ns := rfl
@[simp] theorem setStream_cc (s : State) (t : Stream) : (s.setStream t).cc = s.cc := rfl
@[simp] theorem setStream_mem (s : State) (t : Stream) : (s.setStream t).mem = s.mem := rfl
@[simp] theorem setStream_homes (s : State) (t : Stream) : (s.setStream t).homes = s.homes := rfl
@[simp] theorem setStream_evicted (s : State) (t : Stream) : (s.setStream t).evicted = s.evicted := rfl
@[simp] theorem setStream_moved (s : State) (t : Stream) : (s.setStream t).moved = s.moved := rfl
@[simp] theorem setStream_portWrites (s : State) (t : Stream) : (s.setStream t).portWrites = s.portWrites := rfl
@[simp] theorem setStream_parkedPuts (s : State) (t : Stream) : (s.setStream t).parkedPuts = s.parkedPuts := rfl
@[simp] theorem setStream_partWaits (s : State) (t : Stream) : (s.setStream t).partWaits = s.partWaits := rfl
@[simp] theorem setStream_names (s : State) (t : Stream) : (s.setStream t).names = s.names := rfl
@[simp] theorem setStream_softWrites (s : State) (t : Stream) : (s.setStream t).softWrites = s.softWrites := rfl
@[simp] theorem setStream_l1 (s : State) (t : Stream) : (s.setStream t).l1 = s.l1 := rfl
@[simp] theorem setStream_ilines (s : State) (t : Stream) : (s.setStream t).ilines = s.ilines := rfl
@[simp] theorem setStream_tlb (s : State) (t : Stream) : (s.setStream t).tlb = s.tlb := rfl
@[simp] theorem setStream_clusters (s : State) (t : Stream) : (s.setStream t).clusters = s.clusters := rfl
@[simp] theorem setStream_redos (s : State) (t : Stream) : (s.setStream t).redos = s.redos := rfl
@[simp] theorem setStream_redoLines (s : State) (t : Stream) : (s.setStream t).redoLines = s.redoLines := rfl
@[simp] theorem setStream_spads (s : State) (t : Stream) : (s.setStream t).spads = s.spads := rfl
@[simp] theorem setStream_waves (s : State) (t : Stream) : (s.setStream t).waves = s.waves := rfl
@[simp] theorem setStream_quads (s : State) (t : Stream) : (s.setStream t).quads = s.quads := rfl
@[simp] theorem setStream_deadCores (s : State) (t : Stream) : (s.setStream t).deadCores = s.deadCores := rfl
@[simp] theorem setStream_comps (s : State) (t : Stream) : (s.setStream t).comps = s.comps := rfl
@[simp] theorem setStream_unitQ (s : State) (t : Stream) : (s.setStream t).unitQ = s.unitQ := rfl
@[simp] theorem setStream_units (s : State) (t : Stream) : (s.setStream t).units = s.units := rfl
@[simp] theorem setStream_accs (s : State) (t : Stream) : (s.setStream t).accs = s.accs := rfl
@[simp] theorem setStream_lands (s : State) (t : Stream) : (s.setStream t).lands = s.lands := rfl
@[simp] theorem setStream_gangMsgs (s : State) (t : Stream) : (s.setStream t).gangMsgs = s.gangMsgs := rfl
@[simp] theorem setStream_arrays (s : State) (t : Stream) : (s.setStream t).arrays = s.arrays := rfl
@[simp] theorem setStream_pchs (s : State) (t : Stream) : (s.setStream t).pchs = s.pchs := rfl
@[simp] theorem setStream_bcmds (s : State) (t : Stream) : (s.setStream t).bcmds = s.bcmds := rfl
@[simp] theorem setStream_bankWritten (s : State) (t : Stream) : (s.setStream t).bankWritten = s.bankWritten := rfl
@[simp] theorem setStream_jobs (s : State) (t : Stream) : (s.setStream t).jobs = s.jobs := rfl
@[simp] theorem setStream_entries (s : State) (t : Stream) : (s.setStream t).entries = s.entries := rfl
@[simp] theorem setStream_deadPchs (s : State) (t : Stream) : (s.setStream t).deadPchs = s.deadPchs := rfl
@[simp] theorem setStream_bindings (s : State) (t : Stream) : (s.setStream t).bindings = s.bindings := rfl
@[simp] theorem setStream_rays (s : State) (t : Stream) : (s.setStream t).rays = s.rays := rfl
@[simp] theorem setStream_passes (s : State) (t : Stream) : (s.setStream t).passes = s.passes := rfl
@[simp] theorem setStream_appends (s : State) (t : Stream) : (s.setStream t).appends = s.appends := rfl
@[simp] theorem setStream_nodes (s : State) (t : Stream) : (s.setStream t).nodes = s.nodes := rfl
@[simp] theorem setStream_tags (s : State) (t : Stream) : (s.setStream t).tags = s.tags := rfl
@[simp] theorem setStream_fams (s : State) (t : Stream) : (s.setStream t).fams = s.fams := rfl
@[simp] theorem setStream_ctxs (s : State) (t : Stream) : (s.setStream t).ctxs = s.ctxs := rfl
@[simp] theorem setStream_gens (s : State) (t : Stream) : (s.setStream t).gens = s.gens := rfl
@[simp] theorem setStream_plat (s : State) (t : Stream) : (s.setStream t).plat = s.plat := rfl

/-! ### `setCtx` -/

@[simp] theorem setCtx_turns (s : State) (c : Context) : (s.setCtx c).turns = s.turns := rfl
@[simp] theorem setCtx_cur (s : State) (c : Context) : (s.setCtx c).cur = s.cur := rfl
@[simp] theorem setCtx_curRay (s : State) (c : Context) : (s.setCtx c).curRay = s.curRay := rfl
@[simp] theorem setCtx_free (s : State) (c : Context) : (s.setCtx c).free = s.free := rfl
@[simp] theorem setCtx_nextId (s : State) (c : Context) : (s.setCtx c).nextId = s.nextId := rfl
@[simp] theorem setCtx_ns (s : State) (c : Context) : (s.setCtx c).ns = s.ns := rfl
@[simp] theorem setCtx_cc (s : State) (c : Context) : (s.setCtx c).cc = s.cc := rfl
@[simp] theorem setCtx_mem (s : State) (c : Context) : (s.setCtx c).mem = s.mem := rfl
@[simp] theorem setCtx_homes (s : State) (c : Context) : (s.setCtx c).homes = s.homes := rfl
@[simp] theorem setCtx_evicted (s : State) (c : Context) : (s.setCtx c).evicted = s.evicted := rfl
@[simp] theorem setCtx_moved (s : State) (c : Context) : (s.setCtx c).moved = s.moved := rfl
@[simp] theorem setCtx_portWrites (s : State) (c : Context) : (s.setCtx c).portWrites = s.portWrites := rfl
@[simp] theorem setCtx_parkedPuts (s : State) (c : Context) : (s.setCtx c).parkedPuts = s.parkedPuts := rfl
@[simp] theorem setCtx_partWaits (s : State) (c : Context) : (s.setCtx c).partWaits = s.partWaits := rfl
@[simp] theorem setCtx_names (s : State) (c : Context) : (s.setCtx c).names = s.names := rfl
@[simp] theorem setCtx_softWrites (s : State) (c : Context) : (s.setCtx c).softWrites = s.softWrites := rfl
@[simp] theorem setCtx_l1 (s : State) (c : Context) : (s.setCtx c).l1 = s.l1 := rfl
@[simp] theorem setCtx_ilines (s : State) (c : Context) : (s.setCtx c).ilines = s.ilines := rfl
@[simp] theorem setCtx_tlb (s : State) (c : Context) : (s.setCtx c).tlb = s.tlb := rfl
@[simp] theorem setCtx_clusters (s : State) (c : Context) : (s.setCtx c).clusters = s.clusters := rfl
@[simp] theorem setCtx_redos (s : State) (c : Context) : (s.setCtx c).redos = s.redos := rfl
@[simp] theorem setCtx_redoLines (s : State) (c : Context) : (s.setCtx c).redoLines = s.redoLines := rfl
@[simp] theorem setCtx_spads (s : State) (c : Context) : (s.setCtx c).spads = s.spads := rfl
@[simp] theorem setCtx_waves (s : State) (c : Context) : (s.setCtx c).waves = s.waves := rfl
@[simp] theorem setCtx_quads (s : State) (c : Context) : (s.setCtx c).quads = s.quads := rfl
@[simp] theorem setCtx_deadCores (s : State) (c : Context) : (s.setCtx c).deadCores = s.deadCores := rfl
@[simp] theorem setCtx_comps (s : State) (c : Context) : (s.setCtx c).comps = s.comps := rfl
@[simp] theorem setCtx_unitQ (s : State) (c : Context) : (s.setCtx c).unitQ = s.unitQ := rfl
@[simp] theorem setCtx_units (s : State) (c : Context) : (s.setCtx c).units = s.units := rfl
@[simp] theorem setCtx_streams (s : State) (c : Context) : (s.setCtx c).streams = s.streams := rfl
@[simp] theorem setCtx_accs (s : State) (c : Context) : (s.setCtx c).accs = s.accs := rfl
@[simp] theorem setCtx_lands (s : State) (c : Context) : (s.setCtx c).lands = s.lands := rfl
@[simp] theorem setCtx_gangMsgs (s : State) (c : Context) : (s.setCtx c).gangMsgs = s.gangMsgs := rfl
@[simp] theorem setCtx_arrays (s : State) (c : Context) : (s.setCtx c).arrays = s.arrays := rfl
@[simp] theorem setCtx_pchs (s : State) (c : Context) : (s.setCtx c).pchs = s.pchs := rfl
@[simp] theorem setCtx_bcmds (s : State) (c : Context) : (s.setCtx c).bcmds = s.bcmds := rfl
@[simp] theorem setCtx_bankWritten (s : State) (c : Context) : (s.setCtx c).bankWritten = s.bankWritten := rfl
@[simp] theorem setCtx_jobs (s : State) (c : Context) : (s.setCtx c).jobs = s.jobs := rfl
@[simp] theorem setCtx_entries (s : State) (c : Context) : (s.setCtx c).entries = s.entries := rfl
@[simp] theorem setCtx_deadPchs (s : State) (c : Context) : (s.setCtx c).deadPchs = s.deadPchs := rfl
@[simp] theorem setCtx_bindings (s : State) (c : Context) : (s.setCtx c).bindings = s.bindings := rfl
@[simp] theorem setCtx_rays (s : State) (c : Context) : (s.setCtx c).rays = s.rays := rfl
@[simp] theorem setCtx_passes (s : State) (c : Context) : (s.setCtx c).passes = s.passes := rfl
@[simp] theorem setCtx_appends (s : State) (c : Context) : (s.setCtx c).appends = s.appends := rfl
@[simp] theorem setCtx_nodes (s : State) (c : Context) : (s.setCtx c).nodes = s.nodes := rfl
@[simp] theorem setCtx_tags (s : State) (c : Context) : (s.setCtx c).tags = s.tags := rfl
@[simp] theorem setCtx_fams (s : State) (c : Context) : (s.setCtx c).fams = s.fams := rfl
@[simp] theorem setCtx_gens (s : State) (c : Context) : (s.setCtx c).gens = s.gens := rfl
@[simp] theorem setCtx_plat (s : State) (c : Context) : (s.setCtx c).plat = s.plat := rfl

/-! ### `setNode` -/

@[simp] theorem setNode_turns (s : State) (n : Node) : (s.setNode n).turns = s.turns := rfl
@[simp] theorem setNode_cur (s : State) (n : Node) : (s.setNode n).cur = s.cur := rfl
@[simp] theorem setNode_curRay (s : State) (n : Node) : (s.setNode n).curRay = s.curRay := rfl
@[simp] theorem setNode_free (s : State) (n : Node) : (s.setNode n).free = s.free := rfl
@[simp] theorem setNode_nextId (s : State) (n : Node) : (s.setNode n).nextId = s.nextId := rfl
@[simp] theorem setNode_ns (s : State) (n : Node) : (s.setNode n).ns = s.ns := rfl
@[simp] theorem setNode_cc (s : State) (n : Node) : (s.setNode n).cc = s.cc := rfl
@[simp] theorem setNode_mem (s : State) (n : Node) : (s.setNode n).mem = s.mem := rfl
@[simp] theorem setNode_homes (s : State) (n : Node) : (s.setNode n).homes = s.homes := rfl
@[simp] theorem setNode_evicted (s : State) (n : Node) : (s.setNode n).evicted = s.evicted := rfl
@[simp] theorem setNode_moved (s : State) (n : Node) : (s.setNode n).moved = s.moved := rfl
@[simp] theorem setNode_portWrites (s : State) (n : Node) : (s.setNode n).portWrites = s.portWrites := rfl
@[simp] theorem setNode_parkedPuts (s : State) (n : Node) : (s.setNode n).parkedPuts = s.parkedPuts := rfl
@[simp] theorem setNode_partWaits (s : State) (n : Node) : (s.setNode n).partWaits = s.partWaits := rfl
@[simp] theorem setNode_names (s : State) (n : Node) : (s.setNode n).names = s.names := rfl
@[simp] theorem setNode_softWrites (s : State) (n : Node) : (s.setNode n).softWrites = s.softWrites := rfl
@[simp] theorem setNode_l1 (s : State) (n : Node) : (s.setNode n).l1 = s.l1 := rfl
@[simp] theorem setNode_ilines (s : State) (n : Node) : (s.setNode n).ilines = s.ilines := rfl
@[simp] theorem setNode_tlb (s : State) (n : Node) : (s.setNode n).tlb = s.tlb := rfl
@[simp] theorem setNode_clusters (s : State) (n : Node) : (s.setNode n).clusters = s.clusters := rfl
@[simp] theorem setNode_redos (s : State) (n : Node) : (s.setNode n).redos = s.redos := rfl
@[simp] theorem setNode_redoLines (s : State) (n : Node) : (s.setNode n).redoLines = s.redoLines := rfl
@[simp] theorem setNode_spads (s : State) (n : Node) : (s.setNode n).spads = s.spads := rfl
@[simp] theorem setNode_waves (s : State) (n : Node) : (s.setNode n).waves = s.waves := rfl
@[simp] theorem setNode_quads (s : State) (n : Node) : (s.setNode n).quads = s.quads := rfl
@[simp] theorem setNode_deadCores (s : State) (n : Node) : (s.setNode n).deadCores = s.deadCores := rfl
@[simp] theorem setNode_comps (s : State) (n : Node) : (s.setNode n).comps = s.comps := rfl
@[simp] theorem setNode_unitQ (s : State) (n : Node) : (s.setNode n).unitQ = s.unitQ := rfl
@[simp] theorem setNode_units (s : State) (n : Node) : (s.setNode n).units = s.units := rfl
@[simp] theorem setNode_streams (s : State) (n : Node) : (s.setNode n).streams = s.streams := rfl
@[simp] theorem setNode_accs (s : State) (n : Node) : (s.setNode n).accs = s.accs := rfl
@[simp] theorem setNode_lands (s : State) (n : Node) : (s.setNode n).lands = s.lands := rfl
@[simp] theorem setNode_gangMsgs (s : State) (n : Node) : (s.setNode n).gangMsgs = s.gangMsgs := rfl
@[simp] theorem setNode_arrays (s : State) (n : Node) : (s.setNode n).arrays = s.arrays := rfl
@[simp] theorem setNode_pchs (s : State) (n : Node) : (s.setNode n).pchs = s.pchs := rfl
@[simp] theorem setNode_bcmds (s : State) (n : Node) : (s.setNode n).bcmds = s.bcmds := rfl
@[simp] theorem setNode_bankWritten (s : State) (n : Node) : (s.setNode n).bankWritten = s.bankWritten := rfl
@[simp] theorem setNode_jobs (s : State) (n : Node) : (s.setNode n).jobs = s.jobs := rfl
@[simp] theorem setNode_entries (s : State) (n : Node) : (s.setNode n).entries = s.entries := rfl
@[simp] theorem setNode_deadPchs (s : State) (n : Node) : (s.setNode n).deadPchs = s.deadPchs := rfl
@[simp] theorem setNode_bindings (s : State) (n : Node) : (s.setNode n).bindings = s.bindings := rfl
@[simp] theorem setNode_rays (s : State) (n : Node) : (s.setNode n).rays = s.rays := rfl
@[simp] theorem setNode_passes (s : State) (n : Node) : (s.setNode n).passes = s.passes := rfl
@[simp] theorem setNode_appends (s : State) (n : Node) : (s.setNode n).appends = s.appends := rfl
@[simp] theorem setNode_tags (s : State) (n : Node) : (s.setNode n).tags = s.tags := rfl
@[simp] theorem setNode_fams (s : State) (n : Node) : (s.setNode n).fams = s.fams := rfl
@[simp] theorem setNode_ctxs (s : State) (n : Node) : (s.setNode n).ctxs = s.ctxs := rfl
@[simp] theorem setNode_gens (s : State) (n : Node) : (s.setNode n).gens = s.gens := rfl
@[simp] theorem setNode_plat (s : State) (n : Node) : (s.setNode n).plat = s.plat := rfl

/-! ### `setFam` -/

@[simp] theorem setFam_turns (s : State) (f : Family) : (s.setFam f).turns = s.turns := rfl
@[simp] theorem setFam_cur (s : State) (f : Family) : (s.setFam f).cur = s.cur := rfl
@[simp] theorem setFam_curRay (s : State) (f : Family) : (s.setFam f).curRay = s.curRay := rfl
@[simp] theorem setFam_free (s : State) (f : Family) : (s.setFam f).free = s.free := rfl
@[simp] theorem setFam_nextId (s : State) (f : Family) : (s.setFam f).nextId = s.nextId := rfl
@[simp] theorem setFam_ns (s : State) (f : Family) : (s.setFam f).ns = s.ns := rfl
@[simp] theorem setFam_cc (s : State) (f : Family) : (s.setFam f).cc = s.cc := rfl
@[simp] theorem setFam_mem (s : State) (f : Family) : (s.setFam f).mem = s.mem := rfl
@[simp] theorem setFam_homes (s : State) (f : Family) : (s.setFam f).homes = s.homes := rfl
@[simp] theorem setFam_evicted (s : State) (f : Family) : (s.setFam f).evicted = s.evicted := rfl
@[simp] theorem setFam_moved (s : State) (f : Family) : (s.setFam f).moved = s.moved := rfl
@[simp] theorem setFam_portWrites (s : State) (f : Family) : (s.setFam f).portWrites = s.portWrites := rfl
@[simp] theorem setFam_parkedPuts (s : State) (f : Family) : (s.setFam f).parkedPuts = s.parkedPuts := rfl
@[simp] theorem setFam_partWaits (s : State) (f : Family) : (s.setFam f).partWaits = s.partWaits := rfl
@[simp] theorem setFam_names (s : State) (f : Family) : (s.setFam f).names = s.names := rfl
@[simp] theorem setFam_softWrites (s : State) (f : Family) : (s.setFam f).softWrites = s.softWrites := rfl
@[simp] theorem setFam_l1 (s : State) (f : Family) : (s.setFam f).l1 = s.l1 := rfl
@[simp] theorem setFam_ilines (s : State) (f : Family) : (s.setFam f).ilines = s.ilines := rfl
@[simp] theorem setFam_tlb (s : State) (f : Family) : (s.setFam f).tlb = s.tlb := rfl
@[simp] theorem setFam_clusters (s : State) (f : Family) : (s.setFam f).clusters = s.clusters := rfl
@[simp] theorem setFam_redos (s : State) (f : Family) : (s.setFam f).redos = s.redos := rfl
@[simp] theorem setFam_redoLines (s : State) (f : Family) : (s.setFam f).redoLines = s.redoLines := rfl
@[simp] theorem setFam_spads (s : State) (f : Family) : (s.setFam f).spads = s.spads := rfl
@[simp] theorem setFam_waves (s : State) (f : Family) : (s.setFam f).waves = s.waves := rfl
@[simp] theorem setFam_quads (s : State) (f : Family) : (s.setFam f).quads = s.quads := rfl
@[simp] theorem setFam_deadCores (s : State) (f : Family) : (s.setFam f).deadCores = s.deadCores := rfl
@[simp] theorem setFam_comps (s : State) (f : Family) : (s.setFam f).comps = s.comps := rfl
@[simp] theorem setFam_unitQ (s : State) (f : Family) : (s.setFam f).unitQ = s.unitQ := rfl
@[simp] theorem setFam_units (s : State) (f : Family) : (s.setFam f).units = s.units := rfl
@[simp] theorem setFam_streams (s : State) (f : Family) : (s.setFam f).streams = s.streams := rfl
@[simp] theorem setFam_accs (s : State) (f : Family) : (s.setFam f).accs = s.accs := rfl
@[simp] theorem setFam_lands (s : State) (f : Family) : (s.setFam f).lands = s.lands := rfl
@[simp] theorem setFam_gangMsgs (s : State) (f : Family) : (s.setFam f).gangMsgs = s.gangMsgs := rfl
@[simp] theorem setFam_arrays (s : State) (f : Family) : (s.setFam f).arrays = s.arrays := rfl
@[simp] theorem setFam_pchs (s : State) (f : Family) : (s.setFam f).pchs = s.pchs := rfl
@[simp] theorem setFam_bcmds (s : State) (f : Family) : (s.setFam f).bcmds = s.bcmds := rfl
@[simp] theorem setFam_bankWritten (s : State) (f : Family) : (s.setFam f).bankWritten = s.bankWritten := rfl
@[simp] theorem setFam_jobs (s : State) (f : Family) : (s.setFam f).jobs = s.jobs := rfl
@[simp] theorem setFam_entries (s : State) (f : Family) : (s.setFam f).entries = s.entries := rfl
@[simp] theorem setFam_deadPchs (s : State) (f : Family) : (s.setFam f).deadPchs = s.deadPchs := rfl
@[simp] theorem setFam_bindings (s : State) (f : Family) : (s.setFam f).bindings = s.bindings := rfl
@[simp] theorem setFam_rays (s : State) (f : Family) : (s.setFam f).rays = s.rays := rfl
@[simp] theorem setFam_passes (s : State) (f : Family) : (s.setFam f).passes = s.passes := rfl
@[simp] theorem setFam_appends (s : State) (f : Family) : (s.setFam f).appends = s.appends := rfl
@[simp] theorem setFam_nodes (s : State) (f : Family) : (s.setFam f).nodes = s.nodes := rfl
@[simp] theorem setFam_tags (s : State) (f : Family) : (s.setFam f).tags = s.tags := rfl
@[simp] theorem setFam_ctxs (s : State) (f : Family) : (s.setFam f).ctxs = s.ctxs := rfl
@[simp] theorem setFam_gens (s : State) (f : Family) : (s.setFam f).gens = s.gens := rfl
@[simp] theorem setFam_plat (s : State) (f : Family) : (s.setFam f).plat = s.plat := rfl

/-! ### `setSpad` -/

@[simp] theorem setSpad_turns (s : State) (p : Spad) : (s.setSpad p).turns = s.turns := rfl
@[simp] theorem setSpad_cur (s : State) (p : Spad) : (s.setSpad p).cur = s.cur := rfl
@[simp] theorem setSpad_curRay (s : State) (p : Spad) : (s.setSpad p).curRay = s.curRay := rfl
@[simp] theorem setSpad_free (s : State) (p : Spad) : (s.setSpad p).free = s.free := rfl
@[simp] theorem setSpad_nextId (s : State) (p : Spad) : (s.setSpad p).nextId = s.nextId := rfl
@[simp] theorem setSpad_ns (s : State) (p : Spad) : (s.setSpad p).ns = s.ns := rfl
@[simp] theorem setSpad_cc (s : State) (p : Spad) : (s.setSpad p).cc = s.cc := rfl
@[simp] theorem setSpad_mem (s : State) (p : Spad) : (s.setSpad p).mem = s.mem := rfl
@[simp] theorem setSpad_homes (s : State) (p : Spad) : (s.setSpad p).homes = s.homes := rfl
@[simp] theorem setSpad_evicted (s : State) (p : Spad) : (s.setSpad p).evicted = s.evicted := rfl
@[simp] theorem setSpad_moved (s : State) (p : Spad) : (s.setSpad p).moved = s.moved := rfl
@[simp] theorem setSpad_portWrites (s : State) (p : Spad) : (s.setSpad p).portWrites = s.portWrites := rfl
@[simp] theorem setSpad_parkedPuts (s : State) (p : Spad) : (s.setSpad p).parkedPuts = s.parkedPuts := rfl
@[simp] theorem setSpad_partWaits (s : State) (p : Spad) : (s.setSpad p).partWaits = s.partWaits := rfl
@[simp] theorem setSpad_names (s : State) (p : Spad) : (s.setSpad p).names = s.names := rfl
@[simp] theorem setSpad_softWrites (s : State) (p : Spad) : (s.setSpad p).softWrites = s.softWrites := rfl
@[simp] theorem setSpad_l1 (s : State) (p : Spad) : (s.setSpad p).l1 = s.l1 := rfl
@[simp] theorem setSpad_ilines (s : State) (p : Spad) : (s.setSpad p).ilines = s.ilines := rfl
@[simp] theorem setSpad_tlb (s : State) (p : Spad) : (s.setSpad p).tlb = s.tlb := rfl
@[simp] theorem setSpad_clusters (s : State) (p : Spad) : (s.setSpad p).clusters = s.clusters := rfl
@[simp] theorem setSpad_redos (s : State) (p : Spad) : (s.setSpad p).redos = s.redos := rfl
@[simp] theorem setSpad_redoLines (s : State) (p : Spad) : (s.setSpad p).redoLines = s.redoLines := rfl
@[simp] theorem setSpad_waves (s : State) (p : Spad) : (s.setSpad p).waves = s.waves := rfl
@[simp] theorem setSpad_quads (s : State) (p : Spad) : (s.setSpad p).quads = s.quads := rfl
@[simp] theorem setSpad_deadCores (s : State) (p : Spad) : (s.setSpad p).deadCores = s.deadCores := rfl
@[simp] theorem setSpad_comps (s : State) (p : Spad) : (s.setSpad p).comps = s.comps := rfl
@[simp] theorem setSpad_unitQ (s : State) (p : Spad) : (s.setSpad p).unitQ = s.unitQ := rfl
@[simp] theorem setSpad_units (s : State) (p : Spad) : (s.setSpad p).units = s.units := rfl
@[simp] theorem setSpad_streams (s : State) (p : Spad) : (s.setSpad p).streams = s.streams := rfl
@[simp] theorem setSpad_accs (s : State) (p : Spad) : (s.setSpad p).accs = s.accs := rfl
@[simp] theorem setSpad_lands (s : State) (p : Spad) : (s.setSpad p).lands = s.lands := rfl
@[simp] theorem setSpad_gangMsgs (s : State) (p : Spad) : (s.setSpad p).gangMsgs = s.gangMsgs := rfl
@[simp] theorem setSpad_arrays (s : State) (p : Spad) : (s.setSpad p).arrays = s.arrays := rfl
@[simp] theorem setSpad_pchs (s : State) (p : Spad) : (s.setSpad p).pchs = s.pchs := rfl
@[simp] theorem setSpad_bcmds (s : State) (p : Spad) : (s.setSpad p).bcmds = s.bcmds := rfl
@[simp] theorem setSpad_bankWritten (s : State) (p : Spad) : (s.setSpad p).bankWritten = s.bankWritten := rfl
@[simp] theorem setSpad_jobs (s : State) (p : Spad) : (s.setSpad p).jobs = s.jobs := rfl
@[simp] theorem setSpad_entries (s : State) (p : Spad) : (s.setSpad p).entries = s.entries := rfl
@[simp] theorem setSpad_deadPchs (s : State) (p : Spad) : (s.setSpad p).deadPchs = s.deadPchs := rfl
@[simp] theorem setSpad_bindings (s : State) (p : Spad) : (s.setSpad p).bindings = s.bindings := rfl
@[simp] theorem setSpad_rays (s : State) (p : Spad) : (s.setSpad p).rays = s.rays := rfl
@[simp] theorem setSpad_passes (s : State) (p : Spad) : (s.setSpad p).passes = s.passes := rfl
@[simp] theorem setSpad_appends (s : State) (p : Spad) : (s.setSpad p).appends = s.appends := rfl
@[simp] theorem setSpad_nodes (s : State) (p : Spad) : (s.setSpad p).nodes = s.nodes := rfl
@[simp] theorem setSpad_tags (s : State) (p : Spad) : (s.setSpad p).tags = s.tags := rfl
@[simp] theorem setSpad_fams (s : State) (p : Spad) : (s.setSpad p).fams = s.fams := rfl
@[simp] theorem setSpad_ctxs (s : State) (p : Spad) : (s.setSpad p).ctxs = s.ctxs := rfl
@[simp] theorem setSpad_gens (s : State) (p : Spad) : (s.setSpad p).gens = s.gens := rfl
@[simp] theorem setSpad_plat (s : State) (p : Spad) : (s.setSpad p).plat = s.plat := rfl

/-! ### `modHome` -/

@[simp] theorem modHome_turns (s : State) (asid line : Nat) (g : HomeLine → HomeLine) :
    (s.modHome asid line g).turns = s.turns := rfl
@[simp] theorem modHome_cur (s : State) (asid line : Nat) (g : HomeLine → HomeLine) :
    (s.modHome asid line g).cur = s.cur := rfl
@[simp] theorem modHome_curRay (s : State) (asid line : Nat) (g : HomeLine → HomeLine) :
    (s.modHome asid line g).curRay = s.curRay := rfl
@[simp] theorem modHome_free (s : State) (asid line : Nat) (g : HomeLine → HomeLine) :
    (s.modHome asid line g).free = s.free := rfl
@[simp] theorem modHome_nextId (s : State) (asid line : Nat) (g : HomeLine → HomeLine) :
    (s.modHome asid line g).nextId = s.nextId := rfl
@[simp] theorem modHome_ns (s : State) (asid line : Nat) (g : HomeLine → HomeLine) : (s.modHome asid line g).ns = s.ns := rfl
@[simp] theorem modHome_cc (s : State) (asid line : Nat) (g : HomeLine → HomeLine) : (s.modHome asid line g).cc = s.cc := rfl
@[simp] theorem modHome_mem (s : State) (asid line : Nat) (g : HomeLine → HomeLine) :
    (s.modHome asid line g).mem = s.mem := rfl
@[simp] theorem modHome_evicted (s : State) (asid line : Nat) (g : HomeLine → HomeLine) :
    (s.modHome asid line g).evicted = s.evicted := rfl
@[simp] theorem modHome_moved (s : State) (asid line : Nat) (g : HomeLine → HomeLine) :
    (s.modHome asid line g).moved = s.moved := rfl
@[simp] theorem modHome_portWrites (s : State) (asid line : Nat) (g : HomeLine → HomeLine) :
    (s.modHome asid line g).portWrites = s.portWrites := rfl
@[simp] theorem modHome_parkedPuts (s : State) (asid line : Nat) (g : HomeLine → HomeLine) :
    (s.modHome asid line g).parkedPuts = s.parkedPuts := rfl
@[simp] theorem modHome_partWaits (s : State) (asid line : Nat) (g : HomeLine → HomeLine) :
    (s.modHome asid line g).partWaits = s.partWaits := rfl
@[simp] theorem modHome_names (s : State) (asid line : Nat) (g : HomeLine → HomeLine) :
    (s.modHome asid line g).names = s.names := rfl
@[simp] theorem modHome_softWrites (s : State) (asid line : Nat) (g : HomeLine → HomeLine) :
    (s.modHome asid line g).softWrites = s.softWrites := rfl
@[simp] theorem modHome_l1 (s : State) (asid line : Nat) (g : HomeLine → HomeLine) : (s.modHome asid line g).l1 = s.l1 := rfl
@[simp] theorem modHome_ilines (s : State) (asid line : Nat) (g : HomeLine → HomeLine) :
    (s.modHome asid line g).ilines = s.ilines := rfl
@[simp] theorem modHome_tlb (s : State) (asid line : Nat) (g : HomeLine → HomeLine) :
    (s.modHome asid line g).tlb = s.tlb := rfl
@[simp] theorem modHome_clusters (s : State) (asid line : Nat) (g : HomeLine → HomeLine) :
    (s.modHome asid line g).clusters = s.clusters := rfl
@[simp] theorem modHome_redos (s : State) (asid line : Nat) (g : HomeLine → HomeLine) :
    (s.modHome asid line g).redos = s.redos := rfl
@[simp] theorem modHome_redoLines (s : State) (asid line : Nat) (g : HomeLine → HomeLine) :
    (s.modHome asid line g).redoLines = s.redoLines := rfl
@[simp] theorem modHome_spads (s : State) (asid line : Nat) (g : HomeLine → HomeLine) :
    (s.modHome asid line g).spads = s.spads := rfl
@[simp] theorem modHome_waves (s : State) (asid line : Nat) (g : HomeLine → HomeLine) :
    (s.modHome asid line g).waves = s.waves := rfl
@[simp] theorem modHome_quads (s : State) (asid line : Nat) (g : HomeLine → HomeLine) :
    (s.modHome asid line g).quads = s.quads := rfl
@[simp] theorem modHome_deadCores (s : State) (asid line : Nat) (g : HomeLine → HomeLine) :
    (s.modHome asid line g).deadCores = s.deadCores := rfl
@[simp] theorem modHome_comps (s : State) (asid line : Nat) (g : HomeLine → HomeLine) :
    (s.modHome asid line g).comps = s.comps := rfl
@[simp] theorem modHome_unitQ (s : State) (asid line : Nat) (g : HomeLine → HomeLine) :
    (s.modHome asid line g).unitQ = s.unitQ := rfl
@[simp] theorem modHome_units (s : State) (asid line : Nat) (g : HomeLine → HomeLine) :
    (s.modHome asid line g).units = s.units := rfl
@[simp] theorem modHome_streams (s : State) (asid line : Nat) (g : HomeLine → HomeLine) :
    (s.modHome asid line g).streams = s.streams := rfl
@[simp] theorem modHome_accs (s : State) (asid line : Nat) (g : HomeLine → HomeLine) :
    (s.modHome asid line g).accs = s.accs := rfl
@[simp] theorem modHome_lands (s : State) (asid line : Nat) (g : HomeLine → HomeLine) :
    (s.modHome asid line g).lands = s.lands := rfl
@[simp] theorem modHome_gangMsgs (s : State) (asid line : Nat) (g : HomeLine → HomeLine) :
    (s.modHome asid line g).gangMsgs = s.gangMsgs := rfl
@[simp] theorem modHome_arrays (s : State) (asid line : Nat) (g : HomeLine → HomeLine) :
    (s.modHome asid line g).arrays = s.arrays := rfl
@[simp] theorem modHome_pchs (s : State) (asid line : Nat) (g : HomeLine → HomeLine) :
    (s.modHome asid line g).pchs = s.pchs := rfl
@[simp] theorem modHome_bcmds (s : State) (asid line : Nat) (g : HomeLine → HomeLine) :
    (s.modHome asid line g).bcmds = s.bcmds := rfl
@[simp] theorem modHome_bankWritten (s : State) (asid line : Nat) (g : HomeLine → HomeLine) :
    (s.modHome asid line g).bankWritten = s.bankWritten := rfl
@[simp] theorem modHome_jobs (s : State) (asid line : Nat) (g : HomeLine → HomeLine) :
    (s.modHome asid line g).jobs = s.jobs := rfl
@[simp] theorem modHome_entries (s : State) (asid line : Nat) (g : HomeLine → HomeLine) :
    (s.modHome asid line g).entries = s.entries := rfl
@[simp] theorem modHome_deadPchs (s : State) (asid line : Nat) (g : HomeLine → HomeLine) :
    (s.modHome asid line g).deadPchs = s.deadPchs := rfl
@[simp] theorem modHome_bindings (s : State) (asid line : Nat) (g : HomeLine → HomeLine) :
    (s.modHome asid line g).bindings = s.bindings := rfl
@[simp] theorem modHome_rays (s : State) (asid line : Nat) (g : HomeLine → HomeLine) :
    (s.modHome asid line g).rays = s.rays := rfl
@[simp] theorem modHome_passes (s : State) (asid line : Nat) (g : HomeLine → HomeLine) :
    (s.modHome asid line g).passes = s.passes := rfl
@[simp] theorem modHome_appends (s : State) (asid line : Nat) (g : HomeLine → HomeLine) :
    (s.modHome asid line g).appends = s.appends := rfl
@[simp] theorem modHome_nodes (s : State) (asid line : Nat) (g : HomeLine → HomeLine) :
    (s.modHome asid line g).nodes = s.nodes := rfl
@[simp] theorem modHome_tags (s : State) (asid line : Nat) (g : HomeLine → HomeLine) :
    (s.modHome asid line g).tags = s.tags := rfl
@[simp] theorem modHome_fams (s : State) (asid line : Nat) (g : HomeLine → HomeLine) :
    (s.modHome asid line g).fams = s.fams := rfl
@[simp] theorem modHome_ctxs (s : State) (asid line : Nat) (g : HomeLine → HomeLine) :
    (s.modHome asid line g).ctxs = s.ctxs := rfl
@[simp] theorem modHome_gens (s : State) (asid line : Nat) (g : HomeLine → HomeLine) :
    (s.modHome asid line g).gens = s.gens := rfl
@[simp] theorem modHome_plat (s : State) (asid line : Nat) (g : HomeLine → HomeLine) :
    (s.modHome asid line g).plat = s.plat := rfl

/-! ### `fresh` -/

@[simp] theorem fresh_turns (s : State) : s.fresh.2.turns = s.turns := rfl
@[simp] theorem fresh_cur (s : State) : s.fresh.2.cur = s.cur := rfl
@[simp] theorem fresh_curRay (s : State) : s.fresh.2.curRay = s.curRay := rfl
@[simp] theorem fresh_free (s : State) : s.fresh.2.free = s.free := rfl
@[simp] theorem fresh_nextId (s : State) : s.fresh.2.nextId = s.nextId + 1 := rfl
@[simp] theorem fresh_ns (s : State) : s.fresh.2.ns = s.ns := rfl
@[simp] theorem fresh_cc (s : State) : s.fresh.2.cc = s.cc := rfl
@[simp] theorem fresh_mem (s : State) : s.fresh.2.mem = s.mem := rfl
@[simp] theorem fresh_homes (s : State) : s.fresh.2.homes = s.homes := rfl
@[simp] theorem fresh_evicted (s : State) : s.fresh.2.evicted = s.evicted := rfl
@[simp] theorem fresh_moved (s : State) : s.fresh.2.moved = s.moved := rfl
@[simp] theorem fresh_portWrites (s : State) : s.fresh.2.portWrites = s.portWrites := rfl
@[simp] theorem fresh_parkedPuts (s : State) : s.fresh.2.parkedPuts = s.parkedPuts := rfl
@[simp] theorem fresh_partWaits (s : State) : s.fresh.2.partWaits = s.partWaits := rfl
@[simp] theorem fresh_names (s : State) : s.fresh.2.names = s.names := rfl
@[simp] theorem fresh_softWrites (s : State) : s.fresh.2.softWrites = s.softWrites := rfl
@[simp] theorem fresh_l1 (s : State) : s.fresh.2.l1 = s.l1 := rfl
@[simp] theorem fresh_ilines (s : State) : s.fresh.2.ilines = s.ilines := rfl
@[simp] theorem fresh_tlb (s : State) : s.fresh.2.tlb = s.tlb := rfl
@[simp] theorem fresh_clusters (s : State) : s.fresh.2.clusters = s.clusters := rfl
@[simp] theorem fresh_redos (s : State) : s.fresh.2.redos = s.redos := rfl
@[simp] theorem fresh_redoLines (s : State) : s.fresh.2.redoLines = s.redoLines := rfl
@[simp] theorem fresh_spads (s : State) : s.fresh.2.spads = s.spads := rfl
@[simp] theorem fresh_waves (s : State) : s.fresh.2.waves = s.waves := rfl
@[simp] theorem fresh_quads (s : State) : s.fresh.2.quads = s.quads := rfl
@[simp] theorem fresh_deadCores (s : State) : s.fresh.2.deadCores = s.deadCores := rfl
@[simp] theorem fresh_comps (s : State) : s.fresh.2.comps = s.comps := rfl
@[simp] theorem fresh_unitQ (s : State) : s.fresh.2.unitQ = s.unitQ := rfl
@[simp] theorem fresh_units (s : State) : s.fresh.2.units = s.units := rfl
@[simp] theorem fresh_streams (s : State) : s.fresh.2.streams = s.streams := rfl
@[simp] theorem fresh_accs (s : State) : s.fresh.2.accs = s.accs := rfl
@[simp] theorem fresh_lands (s : State) : s.fresh.2.lands = s.lands := rfl
@[simp] theorem fresh_gangMsgs (s : State) : s.fresh.2.gangMsgs = s.gangMsgs := rfl
@[simp] theorem fresh_arrays (s : State) : s.fresh.2.arrays = s.arrays := rfl
@[simp] theorem fresh_pchs (s : State) : s.fresh.2.pchs = s.pchs := rfl
@[simp] theorem fresh_bcmds (s : State) : s.fresh.2.bcmds = s.bcmds := rfl
@[simp] theorem fresh_bankWritten (s : State) : s.fresh.2.bankWritten = s.bankWritten := rfl
@[simp] theorem fresh_jobs (s : State) : s.fresh.2.jobs = s.jobs := rfl
@[simp] theorem fresh_entries (s : State) : s.fresh.2.entries = s.entries := rfl
@[simp] theorem fresh_deadPchs (s : State) : s.fresh.2.deadPchs = s.deadPchs := rfl
@[simp] theorem fresh_bindings (s : State) : s.fresh.2.bindings = s.bindings := rfl
@[simp] theorem fresh_rays (s : State) : s.fresh.2.rays = s.rays := rfl
@[simp] theorem fresh_passes (s : State) : s.fresh.2.passes = s.passes := rfl
@[simp] theorem fresh_appends (s : State) : s.fresh.2.appends = s.appends := rfl
@[simp] theorem fresh_nodes (s : State) : s.fresh.2.nodes = s.nodes := rfl
@[simp] theorem fresh_tags (s : State) : s.fresh.2.tags = s.tags := rfl
@[simp] theorem fresh_fams (s : State) : s.fresh.2.fams = s.fams := rfl
@[simp] theorem fresh_ctxs (s : State) : s.fresh.2.ctxs = s.ctxs := rfl
@[simp] theorem fresh_gens (s : State) : s.fresh.2.gens = s.gens := rfl
@[simp] theorem fresh_plat (s : State) : s.fresh.2.plat = s.plat := rfl
@[simp] theorem fresh_fst (s : State) : s.fresh.1 = s.nextId := rfl

/-! ### `takeFree` -/

@[simp] theorem takeFree_turns (s : State) : s.takeFree.2.turns = s.turns := rfl
@[simp] theorem takeFree_cur (s : State) : s.takeFree.2.cur = s.cur := rfl
@[simp] theorem takeFree_curRay (s : State) : s.takeFree.2.curRay = s.curRay := rfl
@[simp] theorem takeFree_free (s : State) : s.takeFree.2.free = s.free + 1 := rfl
@[simp] theorem takeFree_nextId (s : State) : s.takeFree.2.nextId = s.nextId := rfl
@[simp] theorem takeFree_ns (s : State) : s.takeFree.2.ns = s.ns := rfl
@[simp] theorem takeFree_cc (s : State) : s.takeFree.2.cc = s.cc := rfl
@[simp] theorem takeFree_mem (s : State) : s.takeFree.2.mem = s.mem := rfl
@[simp] theorem takeFree_homes (s : State) : s.takeFree.2.homes = s.homes := rfl
@[simp] theorem takeFree_evicted (s : State) : s.takeFree.2.evicted = s.evicted := rfl
@[simp] theorem takeFree_moved (s : State) : s.takeFree.2.moved = s.moved := rfl
@[simp] theorem takeFree_portWrites (s : State) : s.takeFree.2.portWrites = s.portWrites := rfl
@[simp] theorem takeFree_parkedPuts (s : State) : s.takeFree.2.parkedPuts = s.parkedPuts := rfl
@[simp] theorem takeFree_partWaits (s : State) : s.takeFree.2.partWaits = s.partWaits := rfl
@[simp] theorem takeFree_names (s : State) : s.takeFree.2.names = s.names := rfl
@[simp] theorem takeFree_softWrites (s : State) : s.takeFree.2.softWrites = s.softWrites := rfl
@[simp] theorem takeFree_l1 (s : State) : s.takeFree.2.l1 = s.l1 := rfl
@[simp] theorem takeFree_ilines (s : State) : s.takeFree.2.ilines = s.ilines := rfl
@[simp] theorem takeFree_tlb (s : State) : s.takeFree.2.tlb = s.tlb := rfl
@[simp] theorem takeFree_clusters (s : State) : s.takeFree.2.clusters = s.clusters := rfl
@[simp] theorem takeFree_redos (s : State) : s.takeFree.2.redos = s.redos := rfl
@[simp] theorem takeFree_redoLines (s : State) : s.takeFree.2.redoLines = s.redoLines := rfl
@[simp] theorem takeFree_spads (s : State) : s.takeFree.2.spads = s.spads := rfl
@[simp] theorem takeFree_waves (s : State) : s.takeFree.2.waves = s.waves := rfl
@[simp] theorem takeFree_quads (s : State) : s.takeFree.2.quads = s.quads := rfl
@[simp] theorem takeFree_deadCores (s : State) : s.takeFree.2.deadCores = s.deadCores := rfl
@[simp] theorem takeFree_comps (s : State) : s.takeFree.2.comps = s.comps := rfl
@[simp] theorem takeFree_unitQ (s : State) : s.takeFree.2.unitQ = s.unitQ := rfl
@[simp] theorem takeFree_units (s : State) : s.takeFree.2.units = s.units := rfl
@[simp] theorem takeFree_streams (s : State) : s.takeFree.2.streams = s.streams := rfl
@[simp] theorem takeFree_accs (s : State) : s.takeFree.2.accs = s.accs := rfl
@[simp] theorem takeFree_lands (s : State) : s.takeFree.2.lands = s.lands := rfl
@[simp] theorem takeFree_gangMsgs (s : State) : s.takeFree.2.gangMsgs = s.gangMsgs := rfl
@[simp] theorem takeFree_arrays (s : State) : s.takeFree.2.arrays = s.arrays := rfl
@[simp] theorem takeFree_pchs (s : State) : s.takeFree.2.pchs = s.pchs := rfl
@[simp] theorem takeFree_bcmds (s : State) : s.takeFree.2.bcmds = s.bcmds := rfl
@[simp] theorem takeFree_bankWritten (s : State) : s.takeFree.2.bankWritten = s.bankWritten := rfl
@[simp] theorem takeFree_jobs (s : State) : s.takeFree.2.jobs = s.jobs := rfl
@[simp] theorem takeFree_entries (s : State) : s.takeFree.2.entries = s.entries := rfl
@[simp] theorem takeFree_deadPchs (s : State) : s.takeFree.2.deadPchs = s.deadPchs := rfl
@[simp] theorem takeFree_bindings (s : State) : s.takeFree.2.bindings = s.bindings := rfl
@[simp] theorem takeFree_rays (s : State) : s.takeFree.2.rays = s.rays := rfl
@[simp] theorem takeFree_passes (s : State) : s.takeFree.2.passes = s.passes := rfl
@[simp] theorem takeFree_appends (s : State) : s.takeFree.2.appends = s.appends := rfl
@[simp] theorem takeFree_nodes (s : State) : s.takeFree.2.nodes = s.nodes := rfl
@[simp] theorem takeFree_tags (s : State) : s.takeFree.2.tags = s.tags := rfl
@[simp] theorem takeFree_fams (s : State) : s.takeFree.2.fams = s.fams := rfl
@[simp] theorem takeFree_ctxs (s : State) : s.takeFree.2.ctxs = s.ctxs := rfl
@[simp] theorem takeFree_gens (s : State) : s.takeFree.2.gens = s.gens := rfl
@[simp] theorem takeFree_plat (s : State) : s.takeFree.2.plat = s.plat := rfl
@[simp] theorem takeFree_fst (s : State) : s.takeFree.1 = s.free := rfl

end Sys2Proof.Machine.State
end

