-- ==== Sys2Proof/Laws/Claims.lean ====
section
/-! SUPPORT. How a claim about an instruction follows from its body: one lemma for each form of claim. -/

namespace Sys2Proof.Claims

open Sys2Proof.Machine

/-- What `ready` says: the selected wave, and the checks it has passed. -/
theorem ready_spec {i : Instr} {f : Fields} {s : State} {c : Ctx} (h : ready i f s = some c) :
    ∃ w, s.cur.bind s.wave? = some w ∧ stepDue w = false ∧ pcMatch (start s) w = none ∧ prepare i f w (start s) = .go c := by
  unfold ready at h
  split at h
  · cases h
  · rename_i w hw
    split at h
    · cases h
    · rename_i hn
      split at h
      · rename_i c' hc
        cases h
        simp only [Bool.or_eq_true, not_or, Bool.not_eq_true, Option.isSome_eq_false_iff, Option.isNone_iff_eq_none] at hn
        exact ⟨w, hw, hn.1, hn.2, hc⟩
      · cases h

/-- Reading the sources leaves what the checks of R45 have resolved. -/
theorem readSources_go {i : Instr} {s : State} {c r : Ctx} (h : readSources i s c = .go r) :
    r.w = c.w ∧ r.node = c.node ∧ r.f = c.f ∧ r.sh = c.sh ∧ r.m = c.m ∧ r.d = c.d ∧ r.a = c.a ∧ r.b = c.b ∧ r.c = c.c := by
  unfold readSources at h
  dsimp only at h
  repeat' split at h
  all_goals cases h
  all_goals simp

/-- What the operands of a ready instruction are: the selected wave, its fields, its mask and its resolved registers. -/
theorem prepare_go {i : Instr} {f : Fields} {w : Wave} {s : State} {c : Ctx} (h : prepare i f w s = .go c) :
    ∃ sh, shape i = some sh ∧ shapeOk sh f = true ∧ step5 sh f w.allot = none ∧ acts sh.rule f (w.exec &&& guardOf w f) = some true
      ∧ step7 sh f w = none ∧ c.w = w ∧ c.node = s.nodeOf w ∧ c.f = f ∧ c.sh = sh
      ∧ c.m = (match w.rp with | some r => w.exec &&& guardOf w f &&& r.todo | none => w.exec &&& guardOf w f)
      ∧ c.d = resolved w 0 sh.d f.d ∧ c.a = resolved w 1 sh.a f.a
      ∧ c.b = (if sh.imm then none else resolved w 2 sh.b f.b) ∧ c.c = resolved w 3 sh.c f.c := by
  unfold prepare at h
  split at h
  · cases h
  · rename_i sh hsh
    split at h
    · cases h
    · rename_i hok
      split at h
      · cases h
      · rename_i h5
        dsimp only at h
        split at h
        · cases h
        · cases h
        · rename_i ha
          split at h
          · cases h
          · rename_i h7
            split at h
            · cases h
            · split at h
              · cases h
              obtain ⟨e1, e2, e3, e4, e5, e6, e7, e8, e9⟩ := readSources_go h
              exact ⟨sh, hsh, by simpa using hok, h5, ha, h7, e1, e2, e3, e4, e5, e6, e7, e8, e9⟩

/-- The fields of a ready instruction are its own. -/
theorem ready_f {i : Instr} {f : Fields} {s : State} {c : Ctx} (h : ready i f s = some c) : c.f = f := by
  obtain ⟨w, -, -, -, hp⟩ := ready_spec h
  obtain ⟨sh, -, -, -, -, -, -, -, hf, -⟩ := prepare_go hp
  exact hf

/-- An instruction that is ready does what its body says. -/
theorem issue_ready {i : Instr} {f : Fields} {s : State} {c : Ctx} {body : Ctx → State → Act} (h : ready i f s = some c) :
    issue i f s body = .next (finish c (start s) (body c (start s))) := by
  obtain ⟨w, h1, h2, h3, h4⟩ := ready_spec h
  exact issue_go h1 h2 h3 h4

/-- As `issue_ready`, for an instruction with an effect where its guard holds it back. -/
theorem issueOr_ready {i : Instr} {f : Fields} {s : State} {c : Ctx} {skip body : Ctx → State → Act} (h : ready i f s = some c) :
    issueOr i f s skip body = .next (finish c (start s) (body c (start s))) := by
  obtain ⟨w, h1, h2, h3, h4⟩ := ready_spec h
  unfold start at h3 h4
  simp [issueOr, h1, h2, h3, h4, start]

/-- The completion of a state does not depend on the state before. -/
theorem finish_done {c : Ctx} {s t : State} : finish c s (.done t) = ends c t := rfl

/-- An instruction whose body has an effect completes with it. -/
theorem completes_of {i : Fields → Instr} {cond : Ctx → State → Prop} {eff : Ctx → State → State} {body : Fields → Ctx → State → Act}
    (h1 : ∀ f s, exec (i f) s = issue (i f) f s (body f)) (h2 : ∀ c s, cond c s → body c.f c s = .done (eff c s)) :
    Completes i cond eff := by
  intro f s c h hc
  rw [h1, issue_ready h]
  have := h2 c (start s) hc
  rw [ready_f h] at this
  rw [this]
  rfl

/-- An instruction whose body goes elsewhere jumps. -/
theorem jumps_of {i : Fields → Instr} {cond : Ctx → State → Prop} {eff : Ctx → State → State} {pc : Ctx → Word64}
    {body : Fields → Ctx → State → Act} (h1 : ∀ f s, exec (i f) s = issue (i f) f s (body f))
    (h2 : ∀ c s, cond c s → body c.f c s = .jump (eff c s) (pc c)) : Jumps i cond eff pc := by
  intro f s c h hc
  rw [h1, issue_ready h]
  have := h2 c (start s) hc
  rw [ready_f h] at this
  rw [this]

/-- An instruction whose body traps takes the trap. -/
theorem traps_of {i : Fields → Instr} {cond : Ctx → State → Prop} {code : Nat}
    {body : Fields → Ctx → State → Act} (h1 : ∀ f s, exec (i f) s = issue (i f) f s (body f))
    (h2 : ∀ c s, cond c s → body c.f c s = .trap code 0 0 0 0 0) : Traps i cond code := by
  intro f s c h hc
  rw [h1, issue_ready h]
  have := h2 c (start s) hc
  rw [ready_f h] at this
  rw [this]

/-- An instruction whose body waits leaves its wave Blocked. -/
theorem blocks_of {i : Fields → Instr} {cond : Ctx → State → Prop} {body : Fields → Ctx → State → Act}
    (h1 : ∀ f s, exec (i f) s = issue (i f) f s (body f)) (h2 : ∀ c s, cond c s → body c.f c s = .wait) : Blocks i cond := by
  intro f s c h hc
  rw [h1, issue_ready h]
  have := h2 c (start s) hc
  rw [ready_f h] at this
  rw [this]
  rfl

end Sys2Proof.Claims
end

