-- ==== Sys2Proof/Laws/Memory.lean ====
section
/-! SUPPORT. Byte maps: every operation keeps the canonical form, a write is read back, and every other byte reads as
before. -/

namespace Sys2Proof.Machine.Memory

/-- A weaker lower bound. -/
theorem wfFrom_mono {m : Memory} {a b : Nat} (h : wfFrom b m = true) (hab : a ≤ b) : wfFrom a m = true := by
  cases m with
  | nil => rfl
  | cons x m =>
    obtain ⟨k, v⟩ := x
    simp only [wfFrom, Bool.and_eq_true, decide_eq_true_eq] at h ⊢
    exact ⟨⟨by omega, h.1.2⟩, h.2⟩

/-- A write at or above a lower bound keeps the form from that bound on. -/
theorem set_wfFrom {m : Memory} {lo a : Nat} (b : Byte) (h : wfFrom lo m = true) (ha : lo ≤ a) :
    wfFrom lo (m.set a b) = true := by
  induction m generalizing lo with
  | nil =>
    unfold Memory.set
    split
    · rfl
    · rename_i hb
      simp [wfFrom, ha, hb]
  | cons x m ih =>
    obtain ⟨k, v⟩ := x
    have h' := h
    simp only [wfFrom, Bool.and_eq_true, decide_eq_true_eq] at h
    unfold Memory.set
    split
    · split
      · exact h'
      · rename_i hb
        simp only [wfFrom, Bool.and_eq_true, decide_eq_true_eq, bne_iff_ne, ne_eq]
        exact ⟨⟨ha, hb⟩, ⟨by omega, by simpa using h.1.2⟩, h.2⟩
    · split
      · split
        · exact wfFrom_mono h.2 (by omega)
        · rename_i heq hb
          simp only [wfFrom, Bool.and_eq_true, decide_eq_true_eq, bne_iff_ne, ne_eq]
          exact ⟨⟨ha, hb⟩, by rw [heq]; exact h.2⟩
      · simp only [wfFrom, Bool.and_eq_true, decide_eq_true_eq]
        exact ⟨h.1, ih h.2 (by omega)⟩

/-- One byte written keeps the canonical form. -/
theorem set_wf {m : Memory} (a : Nat) (b : Byte) (h : m.wf = true) : (m.set a b).wf = true := set_wfFrom b h (Nat.zero_le a)

/-- Bytes written keep the canonical form. -/
theorem setBytes_wf {m : Memory} (bs : List Byte) (a : Nat) (h : m.wf = true) : (m.setBytes a bs).wf = true := by
  induction bs generalizing m a with
  | nil => exact h
  | cons b bs ih => exact ih (a + 1) (set_wf a b h)

/-- The empty memory is canonical. -/
theorem nil_wf : Memory.wf [] = true := rfl

/-- Below a memory's lower bound every byte is unlisted. -/
theorem get_below {m : Memory} {lo a : Nat} (h : wfFrom lo m = true) (ha : a < lo) : m.get a = unlisted := by
  cases m with
  | nil => rfl
  | cons x m =>
    obtain ⟨k, v⟩ := x
    simp only [wfFrom, Bool.and_eq_true, decide_eq_true_eq] at h
    have h1 : k ≠ a := by omega
    have h2 : a < k := by omega
    simp [Memory.get, h1, h2]

/-- What a byte reads as after a write, in a canonical memory. -/
theorem get_set_from {m : Memory} {lo : Nat} (h : wfFrom lo m = true) (a : Nat) (b : Byte) (x : Nat) :
    (m.set a b).get x = if x = a then b else m.get x := by
  induction m generalizing lo with
  | nil =>
    unfold Memory.set
    split
    · rename_i hb; subst hb; simp [Memory.get]
    · by_cases hx : x = a
      · subst hx; simp [Memory.get]
      · have : ¬ a = x := fun h => hx h.symm
        simp [Memory.get, hx, this]
  | cons y m ih =>
    obtain ⟨k, v⟩ := y
    have h' := h
    simp only [wfFrom, Bool.and_eq_true, decide_eq_true_eq] at h
    unfold Memory.set
    split
    · rename_i hak
      split
      · rename_i hb
        by_cases hx : x = a
        · subst hx; subst hb
          have h1 : k ≠ x := by omega
          simp [Memory.get, h1, hak]
        · simp [hx]
      · by_cases hx : x = a
        · subst hx; simp [Memory.get]
        · have h1 : ¬ a = x := fun h => hx h.symm
          by_cases hlt : x < a
          · have h2 : k ≠ x := by omega
            have h3 : x < k := by omega
            simp [Memory.get, hx, h1, hlt, h2, h3]
          · simp [Memory.get, hx, h1, hlt]
    · split
      · rename_i hak heq
        subst heq
        split
        · rename_i hb
          subst hb
          by_cases hx : x = a
          · subst hx
            simp [get_below h.2 (Nat.lt_succ_self x)]
          · have h1 : ¬ a = x := fun h => hx h.symm
            simp only [Memory.get, h1, hx, if_false]
            split
            · rename_i hlt; exact get_below h.2 (by omega)
            · rfl
        · by_cases hx : x = a
          · subst hx; simp [Memory.get]
          · have h1 : ¬ a = x := fun h => hx h.symm
            simp [Memory.get, h1, hx]
      · rename_i hak hne
        simp only [Memory.get]
        by_cases hkx : k = x
        · have hxa : x ≠ a := by omega
          simp [hkx, hxa]
        · simp only [hkx, if_false]
          by_cases hlt : x < k
          · have hxa : x ≠ a := by omega
            simp [hlt, hxa]
          · simp only [hlt, if_false]
            exact ih h.2

/-- A written byte is read back, and every other byte reads as before. -/
theorem get_set {m : Memory} (h : m.wf = true) (a : Nat) (b : Byte) (x : Nat) :
    (m.set a b).get x = if x = a then b else m.get x := get_set_from h a b x

/-- Bytes outside a written range read as before. -/
theorem get_setBytes_outside {m : Memory} (h : m.wf = true) (a : Nat) (bs : List Byte) (x : Nat)
    (hx : x < a ∨ a + bs.length ≤ x) : (m.setBytes a bs).get x = m.get x := by
  induction bs generalizing m a with
  | nil => rfl
  | cons b bs ih =>
    have hne : x ≠ a := by simp only [List.length_cons] at hx; omega
    have := ih (set_wf a b h) (a + 1) (by simp only [List.length_cons] at hx; omega)
    simpa [Memory.setBytes, get_set h, hne] using this

/-- A written range reads back what was written. -/
theorem get_setBytes_inside {m : Memory} (h : m.wf = true) (a : Nat) (bs : List Byte) (i : Nat) (hi : i < bs.length) :
    (m.setBytes a bs).get (a + i) = bs.getD i unlisted := by
  induction bs generalizing m a i with
  | nil => simp at hi
  | cons b bs ih =>
    cases i with
    | zero =>
      have := get_setBytes_outside (set_wf a b h) (a + 1) bs a (Or.inl (by omega))
      simpa [Memory.setBytes, get_set h] using this
    | succ i =>
      have := ih (set_wf a b h) (a + 1) i (by simpa using hi)
      simpa [Memory.setBytes, Nat.add_assoc, Nat.add_comm 1 i] using this

end Sys2Proof.Machine.Memory

namespace Sys2Proof.Machine.State

/-! ### Frames and posted writes (R251) -/

/-- A request that leaves a port changes the ports only. -/
theorem sendFlit_only (s : State) (pa : Nat) :
    { s.sendFlit pa with plat := { (s.sendFlit pa).plat with ports := s.plat.ports } } = s := by
  unfold sendFlit
  split <;> rfl

/-- A tag changes the groups only. -/
theorem noteTag_only (s : State) (pa : Nat) (bank : Bool) :
    { s.noteTag pa bank with plat := { (s.noteTag pa bank).plat with groups := s.plat.groups } } = s := by
  unfold noteTag
  dsimp only
  split <;> rfl

@[simp] theorem noteTag_mem (s : State) (pa : Nat) (bank : Bool) : (s.noteTag pa bank).mem = s.mem := by
  unfold noteTag
  dsimp only
  split <;> rfl

@[simp] theorem noteTag_portWrites (s : State) (pa : Nat) (bank : Bool) : (s.noteTag pa bank).portWrites = s.portWrites := by
  unfold noteTag
  dsimp only
  split <;> rfl

@[simp] theorem noteTag_parkedPuts (s : State) (pa : Nat) (bank : Bool) : (s.noteTag pa bank).parkedPuts = s.parkedPuts := by
  unfold noteTag
  dsimp only
  split <;> rfl

@[simp] theorem sendFlit_mem (s : State) (pa : Nat) : (s.sendFlit pa).mem = s.mem := by
  unfold sendFlit
  split <;> rfl

@[simp] theorem sendFlit_portWrites (s : State) (pa : Nat) : (s.sendFlit pa).portWrites = s.portWrites := by
  unfold sendFlit
  split <;> rfl

/-- A write of a frame changes the memories, the writes on their way to them, the ports and the tags of a group's share only. -/
theorem memPut_only (s : State) (pa : Nat) (bs : List Byte) (bank : Bool) :
    { s.memPut pa bs bank with
      mem := s.mem, portWrites := s.portWrites, parkedPuts := s.parkedPuts
      plat := { (s.memPut pa bs bank).plat with groups := s.plat.groups, ports := s.plat.ports } } = s := by
  unfold memPut sendFlit noteTag
  dsimp only
  split
  · split <;> rfl
  · split
    · rfl
    · split
      · split <;> rfl
      · split <;> rfl

/-- A write of a frame keeps the canonical form. -/
theorem memPut_wf {s : State} (pa : Nat) (bs : List Byte) (bank : Bool) (h : s.mem.wf = true) : (s.memPut pa bs bank).mem.wf = true := by
  unfold memPut
  dsimp only
  split
  · simpa using h
  · split
    · exact h
    · split
      · simpa using h
      · exact Memory.setBytes_wf bs pa h

/-- A byte of HBM reads back where no write is on its way to it, its group is not parked and the frame is not one of the part's own. -/
theorem memGet_memPut {s : State} {pa : Nat} {bs : List Byte} (h : s.mem.wf = true) (hp : pa < Config.portBase)
    (ho : s.isOwn pa = false) (hk : s.isParked pa = false) (hw : s.portWrites = []) (hq : s.parkedPuts = []) (i : Nat)
    (hi : i < bs.length) : (s.memPut pa bs).memGet (pa + i) = bs.getD i unlisted := by
  have : ¬ pa ≥ Config.portBase := by omega
  simp [memPut, memGet, this, ho, hk, hw, hq, Memory.get_setBytes_inside h pa bs i hi]

/-- A posted write is what a read at its port finds, before it has landed. -/
theorem memGet_memPut_port {s : State} {pa : Nat} {bs : List Byte} (hp : Config.portBase ≤ pa) (i : Nat) (hi : i < bs.length) :
    (s.memPut pa bs).memGet (pa + i) = bs.getD i unlisted := by
  simp [memPut, memGet, hp, hi]

/-- Landing writes changes the memories and the posted writes only, and keeps the canonical form. -/
theorem landPorts_only (s : State) : { s.landPorts with mem := s.mem, portWrites := s.portWrites } = s := rfl

theorem landPorts_wf {s : State} (h : s.mem.wf = true) : s.landPorts.mem.wf = true := by
  unfold landPorts
  dsimp only
  generalize s.portWrites = l
  generalize s.mem = m at h
  induction l generalizing m with
  | nil => exact h
  | cons p l ih => exact ih _ (Memory.setBytes_wf p.bytes p.pa h)

theorem landPort_wf {s : State} (h : s.mem.wf = true) : s.landPort.mem.wf = true := by
  unfold landPort
  split
  · exact h
  · dsimp only
    split
    · split
      · exact h
      · exact Memory.setBytes_wf _ _ h
    · exact h

end Sys2Proof.Machine.State
end

