-- ==== Sys2Proof/Tests/Slice0.lean ====
section
/-! SUPPORT. Tests: words that the decoder refuses or reads, results that the spec works out, and a state for every clause
of every claim that has hypotheses, in which they hold. -/

open Sys2Proof Sys2Proof.Machine Sys2Proof.Claims

namespace Sys2Proof.Tests

set_option Elab.async false

/-! ### Small states -/

/-- A wave with 32 registers, chosen to issue, in a task with 1024 bytes of scratchpad; page 0 maps to a frame,
which a TLB entry says. -/
def base : State :=
  let s := placeWord .reset []
  { s with
    turns := [], cur := some 2, nextId := 50
    waves := s.waves.map fun w => { w with v := List.replicate 32 ⟨true, List.replicate 32 0⟩ }
    nodes := s.nodes.map fun n => { n with die := 1, launch := { n.launch with regs := 2, scratch := 1024 } }
    spads := [{ node := 0, core := 0, size := 1024, bytes := [] }]
    tlb := [{ asid := 1, page := 0, gen := 0
              tr := { pa := placeCode, w := true, x := true, g := false, sro := false, home := 0, core := 0, bank := false } }] }

def onWave (g : Wave → Wave) (s : State := base) : State := { s with waves := s.waves.map g }
def onNode (g : Node → Node) (s : State := base) : State := { s with nodes := s.nodes.map g }
def onCtx (g : Context → Context) (s : State := base) : State := { s with ctxs := s.ctxs.map g }

/-- Scalar registers set to numbers. -/
def scal (l : List (Nat × Nat)) (s : State := base) : State :=
  onWave (fun w => { w with s := l.foldl (fun r x => r.set x.1 (BitVec.ofNat 32 x.2)) w.s }) s

/-- A register whose lanes all hold a number. -/
def vecr (r : Nat) (x : Nat) (s : State := base) : State :=
  onWave (fun w => { w with v := w.v.set r ⟨true, List.replicate 32 (BitVec.ofNat 32 x)⟩ }) s

/-- Bytes at a virtual address of page 0. -/
def bytesAt (va : Nat) (bs : List Byte) (s : State := base) : State := { s with mem := s.mem.setBytes (placeCode + va) bs }

/-- A deterministic task's continuation wave. -/
def contDetState : State := onNode (fun n => { n with launch := { n.launch with det := true } }) (onWave fun w => { w with cont := some 0 })
def detState : State := onNode fun n => { n with launch := { n.launch with det := true } }

/-- The instruction is ready in a state and a condition holds. -/
def met (i : Fields → Instr) (f : Fields) (s : State) (cond : Ctx → State → Bool) : Bool :=
  match ready (i f) f s with
  | some c => cond c (start s)
  | none => false

/-- The instruction is ready. -/
def go (i : Fields → Instr) (f : Fields) (s : State := base) : Bool := met i f s fun _ _ => true

/-! ### Where the hypotheses of the claims hold -/

/-- The chosen wave of a state has no debug stop before its instruction. -/
def chosen (s : State) (p : Wave → Bool := fun _ => true) : Bool :=
  match s.cur.bind s.wave? with
  | some w => decide (stepDue w = false ∧ pcMatch (start s) w = none) && p w
  | none => false

def metControl : List Bool :=
  [go .nop (plain 0 0 0 0 0), go .bra (plain 0 0 0 0 0x1000000), go .brs (plain 3 0 520 0 1), go .brm (plain 3 0 584 0 1)
   , go .call (plain 0 516 0 0 5), go .ret (plain 0 0 520 0 0), go .jmpi (plain 0 0 520 0 0x1FFFFFF), go .loop (plain 0 516 0 0 0)]
  ++ [({ plain 0 0 0 0 0x1000000 with pred := 3 } : Fields), { plain 0 0 0 0 5 with neg := true }].flatMap fun f =>
    [chosen (onWave fun w => { w with p := w.p.set 3 0x80000000 }) fun w => (shape (.bra f)).any fun sh => shapeOk sh f
       && decide (¬ (f.neg = false ∧ f.pred = 0)) && decide ((w.exec &&& guardOf w f ≠ 0) ↔ f.pred = 3)
     , chosen (onWave fun w => { w with p := w.p.set 3 0 }) fun w => (shape (.loop { f with d := ⟨false, 516⟩ })).any fun sh => shapeOk sh { f with d := ⟨false, 516⟩ }
       && decide (step5 sh { f with d := ⟨false, 516⟩ } w.allot = none ∧ ¬ ((f.neg = false ∧ f.pred = 0) ∨ w.exec &&& guardOf w f ≠ 0))]
theorem met_ControlTransfersGoWhereTheSpecSays : metControl.all id := by decide +kernel

def metScheduling : List Bool :=
  [go .yield (plain 0 0 0 0 0)
   , met .park (plain 0 0 0 0 0x1FFFFFF) base fun c _ => c.f.m 1 0 = 0 ∧ c.f.e 24 0 ≠ 0
   , met .park (plain 0 0 0 0 0) base fun c _ => c.f.m 1 0 = 0 ∧ c.f.e 24 0 = 0
   , met .park (plain 1 0 31 0 0) base fun c _ => c.f.m 1 0 = 1 ∧ c.a = some (.v 31) ∧ c.w.vfull 31 = true
   , met .park (plain 1 0 4 0 9) (onWave fun w => { w with v := w.v.set 4 ⟨false, []⟩ }) fun c _ =>
       c.f.m 1 0 = 1 ∧ c.a = some (.v 4) ∧ c.w.vfull 4 = false
   , met .park (plain 2 0 0 0 0) (onWave fun w => { w with latch := true }) fun c _ => c.f.m 1 0 = 2 ∧ c.w.latch = true
   , met .park (plain 2 0 0 0 0) base fun c _ => c.f.m 1 0 = 2 ∧ c.w.latch = false ∧ c.w.troupe = none ∧ c.f.e 24 0 = 0
   , met .park (plain 2 0 0 0 1) base fun c _ => c.f.m 1 0 = 2 ∧ c.w.latch = false ∧ (c.w.troupe ≠ none ∨ c.f.e 24 0 ≠ 0)
   , met .halt (plain 0 0 0 0 0) base fun c s => NoDeferred c s ∧ streamAgain s c.w = false ∧ bankAgain s c.w.wid = false
       ∧ stoppedStream s c.w = none ∧ releasedWork s c.w = false ∧ leaveHeld s c.w = false
   , base.waves.any fun w => decide (base.wave? w.wid = some w ∧ w.q = List.replicate 8 none ∧ w.troupe = none ∧ w.cont = none)]
theorem met_SchedulingInstructionsChangeTheWaveState : metScheduling.all id := by decide +kernel

def metMask : List Bool :=
  [go .mand (plain 0 577 578 579 0), go .mor (plain 0 577 578 579 0), go .mxor (plain 0 577 578 579 0), go .mandn (plain 0 584 584 579 0)
   , go .mnot (plain 0 577 578 0 0), go .mmov (plain 0 584 578 0 0), go .mpopc (plain 0 516 578 0 0), go .mfirst (plain 0 516 576 0 0)
   , met .mlane (plain 0 577 8 524 0) base fun c _ => c.contDet = false
   , met .vote (plain 3 577 8 0 0) base fun c _ => c.contDet = false
   , met .mlane (plain 0 577 8 524 0) contDetState fun c _ => c.contDet = true
   , met .vote (plain 0 577 578 0 0) contDetState fun c _ => c.contDet = true]
theorem met_MaskOperationsWriteTheirMasks : metMask.all id := by decide +kernel

def metDeterminism : List Bool :=
  ([(.vbcast, plain 0 4 8 524 0), (.vshfl, plain 0 4 8 12 0)
    , (.vscan, plain 0 4 8 0 0), (.dred, plain 0 4 8 0 0), (.fred, plain 0 4 8 0 0), (.cvs, plain 0 4 8 0 0x86), (.mxsc, plain 0 4 8 0 0)] :
      List ((Fields → Instr) × Fields)).map (fun x => met x.1 x.2 contDetState fun c _ => c.contDet)
  ++ [met .ctime (plain 0 516 0 0 0) detState fun c _ => c.det = true
      , met .getid (plain 5 516 0 0 0) detState fun c _ => c.f.m 2 0 = 5 ∧ c.det = true
      , met .getid (plain 1 516 0 0 0) contDetState fun c _ => c.f.m 2 0 = 1 ∧ c.contDet = true
      , met .tgrow (plain 0 516 520 0 0) (scal [(8, 1)] detState) fun c _ => c.det = true ∧ c.va.scalar ≠ 0]
  ++ ([(.atom, plain 0x18 4 8 12 0), (.acas, plain 0x18 4 8 12 16), (.atomf, plain 0x18 4 8 12 0), (.red, plain 0x18 0 8 12 0)
       , (.redf, plain 0x18 0 8 12 0)] : List ((Fields → Instr) × Fields)).map fun x =>
         met x.1 x.2 detState fun c _ => c.f.m 5 3 ≠ 1 ∧ c.det = true
theorem met_DeterminismTraps : metDeterminism.all id := by decide +kernel

def metGetid : List Bool :=
  [met .getid (plain 0 4 0 0 0) base fun c _ => c.f.m 2 0 = 0 ∧ c.w.cont = none
   , met .getid (plain 0 4 0 0 0) contDetState fun c _ => c.f.m 2 0 = 0 ∧ c.w.cont ≠ none
   , met .getid (plain 1 516 0 0 0) base fun c _ => c.f.m 2 0 = 1 ∧ c.w.cont = none
   , met .getid (plain 1 516 0 0 0) (onWave fun w => { w with cont := some 7 }) fun c _ => c.f.m 2 0 = 1 ∧ c.w.cont = some 7 ∧ c.det = false
   , met .getid (plain 2 516 0 0 0) base fun c _ => c.f.m 2 0 = 2, met .getid (plain 3 516 0 0 0) base fun c _ => c.f.m 2 0 = 3
   , met .getid (plain 4 516 0 0 0) base fun c _ => c.f.m 2 0 = 4
   , met .getid (plain 5 516 0 0 0) base fun c _ => c.f.m 2 0 = 5 ∧ c.det = false]
theorem met_GetidReadsTheWavesNumbers : metGetid.all id := by decide +kernel

/-- A float atomic of the wave in flight, which holds its flags back. -/
def flying : State := { base with accs := [{ id := 40, gid := 40, wid := 2, node := 0, core := 0, lane := 0, kind := .atomf 0 0 true
                                             space := .glob, asid := 1, addr := 0x400, size := 4 }] }

def metSystem : List Bool :=
  ([0, 2, 0x10, 0x11, 0x12, 0x13, 0x14, 0x15, 0x16, 0x17, 0x18, 0x19, 0x1A].map fun n =>
    met .srd (plain 0 516 0 0 n) base fun c _ => c.f.e 9 0 = n)
  ++ [met .srd (plain 0 516 0 0 1) base fun c s => c.f.e 9 0 = 1 ∧ flagsPending s c.w = false
      , met .srd (plain 0 516 0 0 1) flying fun c s => c.f.e 9 0 = 1 ∧ flagsPending s c.w = true
      , met .ctime (plain 0 516 0 0 0) base fun c _ => c.det = false]
theorem met_SystemRegistersReadAsTheSpecSays : metSystem.all id := by decide +kernel

def metSystemWrites : List Bool :=
  let h := onWave fun w => { w with hnd := true }
  [met .swr (plain 0 0 520 0 0) base fun c _ => c.f.e 9 0 = 0x000
   , met .swr (plain 0 0 520 0 1) base fun c s => c.f.e 9 0 = 0x001 ∧ flagsPending s (c.wave s) = false
   , met .swr (plain 0 0 520 0 3) base fun c s => c.f.e 9 0 = 0x003 ∧ (s.ctx? (c.wave s).asid).isSome
   , met .swr (plain 0 0 520 0 0x12) h fun c s => c.f.e 9 0 = 0x012 ∧ (c.wave s).hnd = true
   , met .swr (plain 0 0 520 0 0x13) h fun c s => c.f.e 9 0 = 0x013 ∧ (c.wave s).hnd = true
   , met .swr (plain 0 0 520 0 0x17) h fun c s => c.f.e 9 0 = 0x017 ∧ (c.wave s).hnd = true]
  ++ [0x12, 0x13, 0x17].map fun n => met .swr (plain 0 0 520 0 n) base fun c s => c.f.e 9 0 = n ∧ (c.wave s).hnd = false
theorem met_SystemRegistersAreWrittenAsTheSpecSays : metSystemWrites.all id := by decide +kernel

def metTraps : List Bool :=
  [go .trap (plain 0 0 0 0 0xFFFF), met .tret (plain 0 0 0 0 0) (onWave fun w => { w with hnd := true }) fun c s => (c.wave s).hnd = true
   , met .tret (plain 0 0 0 0 0) base fun c s => (c.wave s).hnd = false]
theorem met_TrapsAndTheirReturn : metTraps.all id := by decide +kernel

/-- The task has a trap handler. -/
def handled : State := onNode fun n => { n with launch := { n.launch with handler := 0x1000 } }

theorem met_TakingATrapEntersTheHandler : (handled.waves.any fun w => decide (w.hnd = false ∧ handled.handlerOf w ≠ 0)) = true := by
  decide +kernel

def metBreak : List Bool :=
  [met .brk (plain 0 0 0 0 7) (onCtx fun k => { k with debug := true }) fun c s => (s.ctx? (c.wave s).asid).any (·.debug)
   , met .brk (plain 0 0 0 0 7) base fun c s => (s.ctx? (c.wave s).asid).any fun k => !k.debug]
theorem met_BreakpointsStopOrTrap : metBreak.all id := by decide +kernel


/-- A check of R45 comes out otherwise than with an effect. -/
def notGo (i : Instr) (f : Fields) (s : State) (w : Wave) : Bool :=
  match prepare i f w (start s) with | .go _ => false | _ => true

def metHints : List Bool :=
  let odd : Fields := { plain 1 0 0 0 0 with a := ⟨false, 9⟩ }
  [chosen base (notGo (.hprf odd) odd base), chosen base (notGo (.hpri { plain 0 0 0 0 0 with pred := 1 }) { plain 0 0 0 0 0 with pred := 1 } base)
   , go .hprf (plain 0 0 8 0 0), go .hbranch (plain 0 0 0 0 0), go .hpri (plain 0 0 0 0 255)]
theorem met_HintsNeverStop : metHints.all id := by decide +kernel

theorem met_ReservedWordsFault : chosen base = true := by decide +kernel

def metScalar : List Bool :=
  ([(.sadd, plain 0 516 520 524 0), (.ssub, plain 0 516 520 524 0), (.smul, plain 0 516 520 524 0), (.smulh, plain 0 516 520 524 0)
    , (.sdiv, plain 0 516 520 524 0), (.srem, plain 0 516 520 524 0), (.sand, plain 0 516 520 524 0), (.sor, plain 0 516 520 524 0)
    , (.sxor, plain 0 516 520 524 0), (.sshl, plain 0 516 520 524 0), (.sshr, plain 0 516 520 524 0), (.ssra, plain 0 516 520 524 0)
    , (.smin, plain 0 516 520 524 0), (.smax, plain 0 516 520 524 0), (.scmp, plain 0 516 520 524 5), (.ssel, plain 0 516 520 524 528)
    , (.sli, plain 0x20 516 0 127 0x1FFFFFF), (.smov, plain 0 516 520 0 0), (.sbfe, plain 0 516 520 0 0), (.sbfi, plain 0 516 520 524 0)
    , (.sclz, plain 0 516 520 0 0), (.spopc, plain 0 516 520 0 0), (.saddx, plain 0 516 520 524 1)] :
      List ((Fields → Instr) × Fields)).map fun x => go x.1 x.2
theorem met_ScalarIntegerOperationsWriteTheirResults : metScalar.all id := by decide +kernel

def metLanes : List Bool :=
  ([(.vadd, plain 0 4 8 12 0), (.vsub, plain 0 4 8 12 0), (.vmul, plain 0 4 8 12 0), (.vmulh, plain 0 4 8 12 0), (.vmad, plain 0 4 8 12 16)
    , (.vand, plain 0 4 8 12 0), (.vor, plain 0 4 8 12 0), (.vxor, plain 0 4 8 12 0), (.vshl, plain 0 4 8 12 0), (.vshr, plain 0 4 8 12 0)
    , (.vsra, plain 0 4 8 12 0), (.vmin, plain 0 4 8 12 0), (.vmax, plain 0 4 8 12 0), (.vabs, plain 0 4 8 0 0), (.vsel, plain 0 4 8 12 7)
    , (.vbfe, plain 0 4 8 0 0), (.vbfi, plain 0 4 8 12 0), (.vpopc, plain 0 4 8 0 0), (.vclz, plain 0 4 8 0 0), (.vmov, plain 0 31 8 0 0)
    , (.vcmp, plain 0 577 8 12 5), (.vaddx, plain 0 4 8 12 1)] : List ((Fields → Instr) × Fields)).map (fun x => go x.1 x.2)
  ++ ([(.vbcast, plain 0 4 8 524 0), (.vshfl, plain 3 4 8 12 0), (.vscan, plain 0 4 8 0 0)] : List ((Fields → Instr) × Fields)).map fun x =>
    met x.1 x.2 base fun c _ => c.contDet = false
theorem met_LaneIntegerOperationsWriteTheirResults : metLanes.all id := by decide +kernel

def metFloats : List Bool :=
  ([(.dadd, plain 0 4 8 12 0), (.dsub, plain 0 4 8 12 0), (.dmul, plain 0 4 8 12 0), (.dfma, plain 0 4 8 12 16), (.dmin, plain 0 4 8 12 0)
    , (.dmax, plain 0 4 8 12 0), (.dcmp, plain 0 577 8 12 0), (.dclass, plain 0 577 8 0 0x3FF), (.drcpe, plain 0 4 8 0 0)
    , (.drsqe, plain 0 4 8 0 0), (.dldx, plain 0 4 8 12 0), (.dfrx, plain 0 4 8 0 0), (.fadd, plain 8 4 8 12 0), (.fsub, plain 0 4 8 12 0)
    , (.fmul, plain 0 4 8 12 0), (.ffma, plain 0 4 8 12 16), (.fmin, plain 0 4 8 12 0), (.fmax, plain 0 4 8 12 0), (.fcmp, plain 0 577 8 12 0)
    , (.fclass, plain 0 577 8 0 0), (.frcp, plain 0 4 8 0 0), (.frsq, plain 0 4 8 0 0), (.fex2, plain 0 4 8 0 0), (.flg2, plain 0 4 8 0 0)
    , (.fsin, plain 0 4 8 0 0), (.fcos, plain 0 4 8 0 0), (.fdot2, plain 16 4 8 12 16)] : List ((Fields → Instr) × Fields)).map (fun x => go x.1 x.2)
  ++ ([(.dred, plain 0 4 8 0 0), (.fred, plain 0 4 8 0 0)] : List ((Fields → Instr) × Fields)).map fun x =>
    met x.1 x.2 base fun c _ => c.contDet = false
theorem met_FloatOperationsWriteTheirResults : metFloats.all id := by decide +kernel

def metConversions : List Bool :=
  [met .cvt (plain 0 4 8 0 0x20) base fun c _ => (fmtOf (c.f.e 4 0)).isSome ∧ (fmtOf (c.f.e 9 5)).isSome
   , met .cvs (plain 0 4 8 0 0x86) base fun c _ => (fmtOf (c.f.e 9 5)).isSome ∧ c.contDet = false
   , go .pkd8 (plain 0 4 8 0 0), go .upd8 (plain 0 4 8 0 0), go .pkt3 (plain 0 4 8 0 0), go .upt3 (plain 0 4 8 0 0)
   , met .mxsc (plain 0 4 8 0 0) base fun c _ => c.contDet = false, go .pkf8 (plain 0 4 8 12 0), go .upf8 (plain 0 4 8 12 0)]
theorem met_ConversionsWriteTheirResults : metConversions.all id := by decide +kernel

/-- Two lanes that read or write at an address of page 0, and two whose page is not mapped. -/
def at400 : State := vecr 8 0x400 (onWave fun w => { w with exec := 0x80000001 })
def unmapped : State := vecr 9 1 (onWave fun w => { w with exec := 0x80000001 })

/-- A copy of the line at 0x400 in the core's L1. -/
def near : State :=
  let t : Trans := { pa := placeCode, w := true, x := true, g := false, sro := false, home := 0, core := 0, bank := false }
  { base with l1 := [{ core := 0, asid := 1, line := 8, data := List.replicate 128 0, expiry := 9, gen := 0, tr := t, fam := none }] }

def metLoads : List Bool :=
  ([(.ld, plain 4 4 8 0 0x10), (.ldnt, plain 5 4 8 0 0), (.lda, plain 0x1D 30 8 0 0x1FFFFF8)] : List ((Fields → Instr) × Fields)).map (fun x =>
    met x.1 x.2 at400 fun c s => c.d.isSome ∧ [true, false].all fun h => decide (LoadClear c s (tySize (tyF c.f)) h (memAddr c (tyF c.f))))
  ++ [met .lds (plain 4 516 520 0 0x1FF8) base fun c s => c.d = some (.s 4)
        ∧ dataMatch s c true false (tySize (tyF c.f)) (fun _ => scalAddr c) = none
        ∧ loadCause s c.w true (scalAddr c) (tySize (tyF c.f)) = none
      , met .prf (plain 0 577 8 0 0) base fun c s => dataMatch s c true false 1 (fun l => addr64 ((c.va.d l : Int) + c.f.off)) = none]
  ++ (let t : Trans := { pa := placeCode, w := true, x := true, g := false, sro := false, home := 0, core := 0, bank := false }
      [((base.lookup 1 0x400 .read).any fun t => decide (t.home = 0 ∧ t.never = false ∧ t.pa < 2 ^ 39)) && (base.l1Serves 0 1 0x400 none).isNone
          && (base.home? 1 8).isNone && !base.lineLocked 1 0x400 && !base.isParked placeCode
       , (near.lookup 1 0x400 .read).isSome && (near.l1Serves 0 1 0x400 none).isSome
       , (({ base with homes := [{ asid := 1, line := 8, data := List.replicate 128 0, dirty := false, emax := 0, gen := 0, tr := t }] } : State).home? 1 8).isSome])
theorem met_LoadsIssueTheirLanes : metLoads.all id := by decide +kernel

def metStores : List Bool :=
  ([(.st, plain 4 4 8 0 0x10), (.stnt, plain 5 4 8 0 0), (.stl, plain 0x1D 30 8 0 0x1FFFFF8)] : List ((Fields → Instr) × Fields)).map (fun x =>
    met x.1 x.2 at400 fun c s => Clear c s (tySize (tyF c.f)) .write (memAddr c (tyF c.f)) ∧ outstFull c.w (maskCount c.m) = false)
  ++ [met .sts (plain 4 516 520 0 0x1FF8) base fun c s => dataMatch s c false true (tySize (tyF c.f)) (fun _ => scalAddr c) = none
        ∧ s.laneCheck c.w.asid (scalAddr c) (tySize (tyF c.f)) .write = none ∧ outstFull c.w 1 = false]
theorem met_StoresIssueTheirLanes : metStores.all id := by decide +kernel

def metScratchpad : List Bool :=
  ([(.spl, plain 4 4 8 0 0), (.spcl, plain 4 4 8 0 0)] : List ((Fields → Instr) × Fields)).map (fun x =>
    met x.1 x.2 (vecr 8 1020) fun c _ => c.d = some (.v 4))
  ++ ([(.sps, plain 4 4 8 0 0, true), (.spcs, plain 4 4 8 0 0, false)] : List ((Fields → Instr) × Fields × Bool)).map (fun x =>
    met x.1 x.2.1 (vecr 8 1024) fun c s => outstFull c.w (maskCount (spLanes s c x.2.2 (tySize (tyF c.f)) (spAddr c))) = false)
  ++ [met .spcp (plain 4 0 8 12 0) base fun c s => outstFull c.w (maskCount (copyLanes s c (tySize (tyF c.f)))) = false]
theorem met_ScratchpadInstructionsIssueTheLanesInRange : metScratchpad.all id := by decide +kernel

def metReplay : List Bool :=
  [met .ld (plain 4 4 8 0 0) unmapped fun c s => c.d = some (.v 4)
      ∧ dataMatch s c true false (tySize (tyF c.f)) (memAddr c (tyF c.f)) = none
      ∧ (lanesFailing c.m (memAddr c (tyF c.f)) fun l => loadCause s c.w true (memAddr c (tyF c.f) l) (tySize (tyF c.f))).1 ≠ 0
   , met .st (plain 4 4 8 0 0) unmapped fun c s => dataMatch s c false true (tySize (tyF c.f)) (memAddr c (tyF c.f)) = none
      ∧ (laneFaults s c.w.asid c.m (tySize (tyF c.f)) .write (memAddr c (tyF c.f))).1 ≠ 0
      ∧ outstFull c.w (maskCount (c.m &&& ~~~(laneFaults s c.w.asid c.m (tySize (tyF c.f)) .write (memAddr c (tyF c.f))).1)) = false
   , base.waves.any fun w => !base.l1Own w.core w.asid 0x400 (base.specFam w.node)
   , near.waves.any fun w => near.l1Own w.core w.asid 0x400 (near.specFam w.node) && mayHit near w 0x400 4, decide (31 < 32 ∧ 0x400 % 4 = 0)]
theorem met_FailingLanesAreReplayed : metReplay.all id := by decide +kernel

/-- A stream of bytes at address 0x400, bound to queue 1. -/
def bound (write : Bool) (ty : Nat) (s : State := base) : State :=
  { (onWave (fun w => { w with q := w.q.set 1 (some 45) }) s) with
    streams := [{ sid := 45, wid := 2, qn := 1, write := write, sp := false, ty := ty, base := 0x400, dims := [(64, 4)], total := 64 }] }

def metStreams : List Bool :=
  [false, true].map (fun write => met (if write then .astw else .astr) (plain 0x14 600 520 524 0) (scal [(8, 0x400), (12, 1), (13, 4), (14, 1), (15, 8)])
    fun c s => c.d = some (.q 0) ∧ c.b = some (.s 12)
      ∧ c.w.q.getD 0 none = none ∧ (streamOf c write 0 12 s.nextId).base % tySize (tyF c.f) = 0
      ∧ ((streamOf c write 0 12 s.nextId).dims.all fun d => d.2 % (tySize (tyF c.f) : Int) == 0) = true
      ∧ (write = false ∨ (streamOf c write 0 12 s.nextId).sp = false ∨ c.node.launch.scratch ≠ 0)
      ∧ streamsUsed s c.w < 32 ∧ unitTurn s (unitStreams c.w.core c.w.quad) c.w.wid = true)
  ++ [met .aend (plain 0 0 600 0 0) base fun c s => c.a = some (.q 0) ∧ arrayAgain s c.w.wid = false ∧ arrayFault s c.w.wid = none ∧ (c.w.q.getD 0 none).bind s.stream? = none
      , met .aend (plain 0 0 601 0 0) (bound false 4) fun c s => c.a = some (.q 1) ∧ arrayAgain s c.w.wid = false ∧ arrayFault s c.w.wid = none
          ∧ ((c.w.q.getD 1 none).bind s.stream?).any fun t => decide (t.again = false ∧ (t.stopped = false ∨ t.entries = []))]
theorem met_StreamsAreBoundAndEnded : metStreams.all id := by decide +kernel

def metAtomics : List Bool :=
  [met .atom (plain 0x18 4 8 12 0) at400 fun c s => atomClear c s (c.f.m 2 2 == 1) false (atomAddr c (atomOff c.f))
   , met .red (plain 0x18 0 8 12 0) at400 fun c s => atomClear c s (c.f.m 2 2 == 1) false (atomAddr c (atomOff c.f))
   , met .acas (plain 0x1C 4 8 12 16) at400 fun c s => atomClear c s (c.f.m 2 2 == 1) false (atomAddr c 0)
   , met .atomf (plain 8 4 8 12 0) (vecr 8 1024) fun c s => atomClear c s (c.f.m 2 1 == 1) false (atomAddr c (atomOff c.f))
   , met .redf (plain 0x18 0 8 12 0) at400 fun c s => atomClear c s (c.f.m 2 1 == 1) false (atomAddr c (atomOff c.f))
   , met .redo (plain 24 0 8 12 0) (detState |> vecr 8 0x400) fun c s => atomClear c s (c.f.m 2 1 == 1) true (atomAddr c (atomOff c.f))]
theorem met_AtomicsIssueTheirLanes : metAtomics.all id := by decide +kernel

/-- A load of the wave that has not returned; a store to its scratchpad that has not been performed. -/
def loading : State := { base with lands := [{ gid := 44, wid := 2, dest := .vec 4 1, load := true }] }
def withPad (s : State) : State :=
  { s with accs := [{ id := 41, gid := 41, wid := 2, node := 0, core := 0, lane := 0, kind := .store false, space := .spad 0
                      asid := 1, addr := 8, size := 4 }] }
def padStore : State := withPad base

/-- The scratchpad's first word is a troupe word with the wave as a member, or not. -/
def tw (t : TWord) (mem : Bool) (s : State := base) : State :=
  setTw (onWave (fun w => { w with troupe := if mem then some ⟨0, 0⟩ else none }) s) 0 ⟨0, 0⟩ t
def twoMembers : TWord := { init := true, members := 2 }

def metHaltBlocks : List Bool :=
  let writing (g : Stream → Stream) : State := { bound true 4 with streams := (bound true 4).streams.map g }
  let e : QEntry := { vals := List.replicate 32 0, mask := 1 }
  let cmd : BankCmd := { cid := 30, wid := 2, node := 0, asid := 1, core := 0, pc := 0, addr := 0x400, op := .st 0 1, fault := some { code := 0, again := true } }
  let joined : State := tw { init := true, members := 2 } true padStore
  [met .halt (plain 0 0 0 0 0) (writing fun t => { t with stopped := true, again := true, entries := [e] }) fun c s => NoDeferred c s ∧ streamAgain s c.w = true
   , met .halt (plain 0 0 0 0 0) { base with bcmds := [cmd] } fun c s => NoDeferred c s ∧ bankAgain s c.w.wid = true
   , met .halt (plain 0 0 0 0 0) joined fun c s => NoDeferred c s ∧ stoppedStream s c.w = none ∧ leaveHeld s c.w = true
   , met .halt (plain 0 0 0 0 0) (onWave (fun w => { w with rp := some { todo := 0, gid := none, count := 0, deferred := true } })
      { base with bcmds := [{ cmd with fault := none }] }) fun c s => NoDeferred c s ∧ stoppedStream s c.w = none ∧ releasedWork s c.w = true]
theorem met_haltWaits : metHaltBlocks.all id := by decide +kernel

def metTroupe : List Bool :=
  let r : TroupeRef := ⟨0, 0⟩
  let drained (c : Ctx) (s : State) : Bool := NoDeferred c s ∧ c.w.outst = 0 ∧ (c.f.m 0 0 = 1 ∨ c.w.troupe = none)
  let arrives (c : Ctx) (s : State) (k : Bool) : Bool := c.w.troupe = some r ∧ spadPending s c.w = false ∧ (troupeArrive s c.w.node r k).isSome
  let refusedWord (c : Ctx) (s : State) : Bool := spadPending s c.w = false ∧ wordAt c s = some r
  let gangWord' : TWord := { twoMembers with gang := true }
  let open_ (k : Bool) : TWord := { twoMembers with arrived := 1, kind := k }
  let mismatch (k : Bool) (c : Ctx) (s : State) : Bool := c.w.troupe = some r ∧ spadPending s c.w = false
    ∧ 0 < (getTw s c.w.node r).arrived ∧ (getTw s c.w.node r).kind = k
  [met .bini (plain 1 0 520 0 0) base fun c s => spadPending s c.w = false ∧ wordAt c s = some r
      ∧ ((getTw s c.w.node r).init = false ∨ (getTw s c.w.node r).members = 0)
   , met .bini (plain 0 0 520 0 0) (tw { init := true } false) fun c s => spadPending s c.w = false ∧ wordAt c s = some r
      ∧ ((getTw s c.w.node r).init = false ∨ (getTw s c.w.node r).members = 0)
   , met .join (plain 0 0 520 0 0) (tw { init := true } false) fun c s => spadPending s c.w = false ∧ wordAt c s = some r ∧ c.w.troupe = none
      ∧ (getTw s c.w.node r).init = true ∧ (getTw s c.w.node r).gang = false
   , met .leave (plain 0 0 0 0 0) base fun c _ => c.w.troupe = none
   , met .leave (plain 0 0 0 0 0) (tw twoMembers true) fun c s => c.w.troupe = some r ∧ spadPending s c.w = false ∧ (getTw s c.w.node r).gang = false
   , met .barr (plain 0 0 0 0 0) base fun c _ => c.w.troupe = none
   , met .barr (plain 0 0 0 0 0) (tw twoMembers true) fun c s => arrives c s false
   , met .barw (plain 0 516 0 0 0) base fun c _ => c.w.troupe = none
   , met .barw (plain 0 516 0 0 0) (tw { twoMembers with arrived := 1 } true) fun c s => arrives c s false
   , met .bwait (plain 0 0 520 0 0) base fun c _ => c.w.troupe = none
   , met .bwait (plain 0 0 520 0 0) (tw { twoMembers with phase := 1 } true) fun c s => c.w.troupe = some r ∧ spadPending s c.w = false
      ∧ (getTw s c.w.node r).phase ≠ c.va.scalar.toNat % 65536
   , met .bwait (plain 0 0 520 0 0) (scal [(8, 65536)] (tw twoMembers true)) fun c s => c.w.troupe = some r ∧ spadPending s c.w = false
      ∧ (getTw s c.w.node r).phase = c.va.scalar.toNat % 65536
   , met .drain (plain 1 0 0 0 0) (tw twoMembers true) drained, met .drain (plain 0 0 0 0 0) base drained
   , met .drain (plain 0 0 0 0 0) (tw twoMembers true) fun c s => NoDeferred c s ∧ c.w.outst = 0 ∧ c.f.m 0 0 = 0 ∧ arrives c s false
   , met .drain (plain 0 0 0 0 0) (onWave fun w => { w with outst := 1 }) fun c s => NoDeferred c s ∧ c.w.outst ≠ 0
   , met .gbar (plain 0 0 0 0 0) (onNode (fun n => { n with launch := { n.launch with gang := true } }) (tw twoMembers true)) fun c s =>
      c.node.launch.gang = true ∧ arrives c s true
   , met .gbar (plain 0 0 0 0 0) base fun c _ => c.node.launch.gang = false
   , met .bini (plain 0 0 520 0 0) (scal [(8, 1)]) fun c s => spadPending s c.w = false ∧ wordAt c s = none
   , met .bini (plain 0 0 520 0 0) (tw twoMembers false) fun c s => spadPending s c.w = false ∧ wordAt c s = some r
      ∧ (getTw s c.w.node r).init = true ∧ (getTw s c.w.node r).members ≠ 0
   , met .join (plain 0 0 520 0 0) (scal [(8, 1024)]) fun c s => spadPending s c.w = false ∧ wordAt c s = none
   , met .join (plain 0 0 520 0 0) (tw twoMembers true) (fun c s => refusedWord c s ∧ c.w.troupe ≠ none)
   , met .join (plain 0 0 520 0 0) base (fun c s => refusedWord c s ∧ (getTw s c.w.node r).init = false)
   , met .join (plain 0 0 520 0 0) (tw gangWord' false) (fun c s => refusedWord c s ∧ (getTw s c.w.node r).gang = true)
   , met .leave (plain 0 0 0 0 0) (tw gangWord' true) fun c s => c.w.troupe = some r ∧ spadPending s c.w = false ∧ (getTw s c.w.node r).gang = true
   , met .barr (plain 0 0 0 0 0) (tw (open_ true) true) (mismatch true), met .barw (plain 0 516 0 0 0) (tw (open_ true) true) (mismatch true)
   , met .gbar (plain 0 0 0 0 0) (onNode (fun n => { n with launch := { n.launch with gang := true } }) (tw (open_ false) true)) fun c s =>
      c.node.launch.gang = true ∧ mismatch false c s
   , met .drain (plain 0 0 0 0 0) (tw (open_ true) true) fun c s => NoDeferred c s ∧ c.w.outst = 0 ∧ c.f.m 0 0 = 0 ∧ mismatch true c s]
  ++ [(.bini, plain 0 0 520 0 0, base), (.join, plain 0 0 520 0 0, base), (.leave, plain 0 0 0 0 0, tw twoMembers true)
      , (.barr, plain 0 0 0 0 0, tw twoMembers true), (.barw, plain 0 516 0 0 0, tw twoMembers true)
      , ((.bwait : Fields → Instr), plain 0 0 520 0 0, tw twoMembers true)].map fun x =>
        met x.1 x.2.1 (withPad x.2.2) fun c s => (c.w.troupe ≠ none ∨ x.2.2 = base) ∧ spadPending s c.w = true
theorem met_TroupeInstructionsActOnTheirWord : metTroupe.all id := by decide +kernel

def metFences : List Bool :=
  let acq : Fields := plain 8 0 0 0 0
  [met .fenceAcq acq base fun c s => NoDeferred c s ∧ (s.lands.all fun l => l.wid != c.w.wid || !l.load) = true
   , met .fenceAcq acq loading fun c s => NoDeferred c s ∧ (s.lands.any fun l => l.wid == c.w.wid && l.load) = true
   , met .fenceRel (plain 0x19 0 0 0 0) { base with ns := 2 } fun c s => NoDeferred c s ∧ c.f.m 5 3 ≠ 1 ∧ loadsReturned s c.w.wid = true
      ∧ c.w.outst = 0 ∧ c.w.relMark + 2 ≤ s.ns
   , met .fenceRel (plain 0x21 0 0 0 0) { base with ns := 2 } fun c s => NoDeferred c s ∧ c.f.m 5 3 = 4 ∧ loadsReturned s c.w.wid = true
      ∧ c.w.outst = 0 ∧ c.w.relMark + 2 ≤ s.ns
   , met .fenceRel (plain 0x19 0 0 0 0) { base with ns := 1 } fun c s => NoDeferred c s ∧ c.f.m 5 3 ≠ 1
      ∧ (loadsReturned s c.w.wid = false ∨ c.w.outst ≠ 0 ∨ s.ns < c.w.relMark + 2)
   , met .fenceRel (plain 9 0 0 0 0) base fun c s => NoDeferred c s ∧ c.f.m 5 3 = 1 ∧ loadsReturned s c.w.wid = true ∧ spadOutstanding s c.w = false
   , met .fenceRel (plain 9 0 0 0 0) padStore fun c s => NoDeferred c s ∧ c.f.m 5 3 = 1 ∧ (loadsReturned s c.w.wid = false ∨ spadOutstanding s c.w = true)
   , met .lwait (plain 0 0 520 0 0) { base with ns := 2 } fun c s => c.va.scalar64 + 2 ≤ s.ns
   , met .lwait (plain 0 0 520 0 0) { base with ns := 1 } fun c s => s.ns < c.va.scalar64 + 2]
theorem met_FencesWaitForTheirConditions : metFences.all id := by decide +kernel

/-- The wave's task holds its array, with one accumulator unit, under a configuration. -/
def array (a : ArrayBank → ArrayBank) (s : State := base) : State :=
  { s with arrays := [a { core := 0, quad := 0, bank := 0, holder := 0, grant := 1, cfg := some 0x18841 }] }

/-- A plane of FP16 columns in two slices, and one of blocks with scales. -/
def halves (a : ArrayBank) : ArrayBank := { a with active := { loaded := true, bf := 4, s := 2 } }
def blocks (a : ArrayBank) : ArrayBank := { a with cfg := some 0x99080, active := { loaded := true, bf := 8, s := 1 } }
def preset (a : ArrayBank) : ArrayBank := { a with cfg := some 0x818841 }

def metMatrix : List Bool :=
  let held (p : Ctx → State → ArrayBank → Nat → Bool) (c : Ctx) (s : State) : Bool :=
    (s.arrays.any fun a => decide (Configured c s a (a.cfg.getD 0)) && p c s a (a.cfg.getD 0))
  let clr (anc : Nat) (c : Ctx) (_ : State) (a : ArrayBank) (k : Nat) : Bool := c.f.m 1 1 = anc
    ∧ (anc = 1 ∨ c.f.m 0 0 = 1 ∨ (match viewCfg a with | some k => (arrCfg k).preset | none => false) = false)
    ∧ (anc = 0 ∨ ((arrCfg k).preset = true ∧ -4096 ≤ c.vc.scalar.toInt ∧ c.vc.scalar.toInt ≤ 4095))
    ∧ (c.f.m 0 0 = 0 ∨ (c.va.scalar.toNat % 8 = 0 ∧ c.vb.scalar.toNat % 8 = 0))
    ∧ inGrant a (c.f.m 0 0 == 1) c.va.scalar.toNat c.vb.scalar.toNat = true ∧ c.vb.scalar ≠ 0
  let none4 (c : Ctx) (s : State) : Bool := NoDeferred c s ∧ ownArray s c.w = none
  [met .mcfg (plain 0 0 520 0 0) (scal [(8, 0x18841)] (array id)) fun c s => (s.arrays.any fun a => decide (Holds c s a)) ∧ cfgOk c.va.scalar.toNat = true
   , met .mcfg { plain 0x20 0 0 0 0x18841 with hint := 0 } (array id) fun c s =>
      (s.arrays.any fun a => decide (Holds c s a)) ∧ cfgOk c.f.imm32.toNat = true
   , met .mlds (plain 0 0 520 524 0) (scal [(8, 0x400), (12, 256)] (array halves)) (held fun c _ _ k => c.va.scalar64 % 16 = 0
      ∧ c.vb.scalar.toNat % 16 = 0 ∧ recBytesB (arrCfg k) ≤ c.vb.scalar.toNat)
   , met .mlds (plain 3 0 520 524 1) (scal [(8, 0), (12, 208)] (array halves)) (held fun c _ _ k => c.va.scalar.toNat % 16 = 0
      ∧ c.vb.scalar.toNat % 16 = 0 ∧ imgBytes (arrCfg k) ≤ c.vb.scalar.toNat)
   , met .mswp (plain 0 0 0 0 0) (array halves) (held fun _ _ _ _ => true)
   , met .mclr (plain 0 0 520 524 0) (scal [(8, 511), (12, 1)] (array halves)) (held (clr 0))
   , met .mclr (plain 1 0 520 524 0) (scal [(8, 0), (12, 4096)] (array preset)) (held (clr 0))
   , met .mclr (plain 2 0 520 524 528) (scal [(12, 1), (16, 4095)] (array preset)) (held (clr 1))
   , met .mclr (plain 2 0 520 524 528) (scal [(12, 1), (16, 0xFFFFF000)] (array preset)) (held (clr 1))
   , met .mclr (plain 3 0 520 524 528) (scal [(8, 0), (12, 8), (16, 1)] (array preset)) fun c s => NoDeferred c s ∧ c.f.m 1 1 = 1 ∧ c.f.m 0 0 = 1
   , met .mstr (plain 1 516 520 524 (0x80 + 0x2000)) (scal [(12, 1)] (array halves)) (held fun c _ a k => Streams c a k ∧ c.f.m 0 0 = 1
      ∧ (match c.a with | some (.q _) => false | _ => true) = true)
   , met .mstr (plain 0 516 601 524 0x80) (scal [(12, 4)] (bound false 4 (array halves))) (held fun c s a k => Streams c a k ∧ c.f.m 0 0 = 0
      ∧ c.a = some (.q 1) ∧ (rowQueue s c.w 1 [4, 5]).isSome ∧ (arrCfg k).amx = false ∧ c.f.e 23 21 = 0)
   , met .mstr (plain 0 516 601 524 0x200080) (scal [(12, 4)] (bound false 4 (array blocks))) (held fun c s a k => Streams c a k ∧ c.f.m 0 0 = 0
      ∧ c.a = some (.q 1) ∧ (rowQueue s c.w 1 [4, 5]).isSome ∧ (arrCfg k).amx = true
      ∧ (rowQueue s c.w (c.f.e 23 21) [if (arrCfg k).sparse then 5 else 4]).isSome)
   , met .mrd (plain 0 4 520 0 0) (scal [(8, 480)] (array halves)) (held fun c _ a k => c.d = some (.v 4)
      ∧ ((arrCfg k).outf ≠ 10 ∨ c.f.m 2 0 = 0) ∧ accsOk a (arrCfg k) c.va.scalar.toNat 1 0 32 = true ∧ outBytes (arrCfg k).outf = 4
      ∧ c.w.vfull 4 = true)
   , met .mst (plain 0 516 520 524 (127 * 128 + 3)) (scal [(4, 512), (8, 0x400)] (array halves)) (held fun c _ a k =>
      ((arrCfg k).outf ≠ 10 ∨ c.f.m 2 0 = 0) ∧ c.f.m 3 3 = 0 ∧ c.va.scalar64 % outBytes (arrCfg k).outf = 0
      ∧ c.vd.scalar.toNat % outBytes (arrCfg k).outf = 0 ∧ accsOk a (arrCfg k) c.vb.scalar.toNat (c.f.e 6 0 + 1) (c.f.e 19 7) 128 = true
      ∧ outstFull c.w (mstLines c.va.scalar64 c.vd.scalar.toNat (c.f.e 6 0 + 1) (outBytes (arrCfg k).outf)) = false)
   , met .mbnd (plain 0 516 0 0 0) (array id) fun c s => NoDeferred c s ∧ (s.arrays.any fun a => decide (ownArray s c.w = some a ∧ a.queue = []))
   , met .mcfg (plain 0 0 520 0 0) base none4, met .mst (plain 0 516 520 524 0) base none4]
theorem met_MatrixInstructionsEnterTheQueue : metMatrix.all id := by decide +kernel

def emptied : State := onWave fun w => { w with v := w.v.set 8 ⟨false, []⟩ }

def metEngines : List Bool :=
  ([(.ecpy, plain 3 4 520 524 528), (.egat, plain 0 4 520 0 0), (.edcp, plain 15 4 520 0 0), (.efence, plain 0 31 0 0 0xFFFF)] :
      List ((Fields → Instr) × Fields)).map (fun x => met x.1 x.2 base fun c s => c.d.isSome ∧ (s.entries.filter fun e => e.asid == c.w.asid && e.queue == some (c.f.m 3 0)).length < 64)
  ++ [met .ewait (plain 1 543 8 0 0) base fun c _ => c.a = some (.v 8) ∧ c.w.vfull 8 = true ∧ c.f.m 0 0 = 1
      , met .ewait (plain 0 0 8 0 0) base fun c _ => c.a = some (.v 8) ∧ c.w.vfull 8 = true ∧ c.f.m 0 0 = 0
      , met .ewait (plain 0 0 8 0 0) emptied fun c _ => c.a = some (.v 8) ∧ c.w.vfull 8 = false]
theorem met_EngineInstructionsEnterTheirQueue : metEngines.all id := by decide +kernel

/-- Page 0 is a bank page; the task holds its pseudo-channel, or another does. -/
def bankPage (h : Option Nat) : State :=
  { base with
    tlb := [{ asid := 1, page := 0, gen := 0
              tr := { pa := placeCode, w := true, x := true, g := false, sro := false, home := 0, core := 0, bank := true } }]
    pchs := match h with | some n => [{ num := 0, holder := n, acqWave := 2 }] | none => [] }

def metBankModes : List Bool :=
  let ops : List ((Fields → Instr) × Nat) := [(.bkmodeAcq, 0), (.bkmodeAll, 1), (.bkmodeOne, 2), (.bkmodeRel, 3)]
  ops.map (fun x => met x.1 (plain x.2 516 520 0 0) base fun c s => bankFault s c.w.wid = none
    ∧ s.laneCheck c.w.asid c.va.scalar64 1 .read = none
    ∧ ((s.lookup c.w.asid c.va.scalar64 .read).any fun t => decide (t.bank = false ∨ 2 ^ 39 ≤ t.pa ∨ s.deadPchs.contains (pchOf t.pa) = true)))
  ++ ops.map (fun x => met x.1 (plain x.2 516 520 0 0) (onNode (fun n => { n with launch := { n.launch with det := true } }) (bankPage (some 0))) fun c s =>
    bankFault s c.w.wid = none ∧ s.laneCheck c.w.asid c.va.scalar64 1 .read = none
    ∧ ((s.lookup c.w.asid c.va.scalar64 .read).any fun t => decide (t.bank = true ∧ t.pa < 2 ^ 39 ∧ s.deadPchs.contains (pchOf t.pa) = false
      ∧ (s.bcmds.any fun y => (y.wid == c.w.wid || !cmdHeld s y) && pchsMeet (cmdPchs s y) (some [pchOf t.pa])) = false
      ∧ (c.det = false ∨ (bkmodeAt s (pchOf t.pa) c.w.node c.w.wid x.2).1 ≠ 1))))
  ++ [decide (base.pch? 0 = none), (bankPage (some 9)).pchs.any fun p => decide ((bankPage (some 9)).pch? 0 = some p ∧ p.holder ≠ 0)
      , (bankPage (some 0)).pchs.any fun p => decide ((bankPage (some 0)).pch? 0 = some p ∧ p.holder = 0)]
theorem met_BankModesAnswerTheLease : metBankModes.all id := by decide +kernel

/-- A reduction block (R366) of one source at 0x80 with its flag at 0x100, and one whose length is 0. -/
def blockBytes (len : Nat) : List Byte :=
  leBytes 8 0x80 ++ leBytes 8 0x80 ++ leBytes 8 0x100 ++ leBytes 4 len ++ [0, 1, 0, 0] ++ List.replicate 32 0

def metBanks : List Bool :=
  [met .bkbc (plain 0 0 520 12 0) base fun c s => BankRoom c s
   , met .bkmac (plain 0 0 520 524 0x18) (scal [(12, 1)]) fun c s => BankRoom c s ∧ 1 ≤ c.vb.scalar.toNat ∧ c.vb.scalar.toNat ≤ 4096
      ∧ c.va.scalar64 % 32 = 0
   , met .bkmac (plain 0 0 520 524 0x18) (scal [(12, 4096)]) fun c s => BankRoom c s ∧ 1 ≤ c.vb.scalar.toNat ∧ c.vb.scalar.toNat ≤ 4096
      ∧ c.va.scalar64 % 32 = 0
   , met .bkop (plain 0 0 520 524 0) (scal [(12, 8)]) fun c s => BankRoom c s ∧ 1 ≤ c.vb.scalar.toNat ∧ (c.f.m 3 3 = 1 ∨ c.vb.scalar.toNat ≤ 8)
      ∧ c.va.scalar64 % 32 = 0
   , met .bkop (plain 8 0 520 524 0) (scal [(12, 64)]) fun c s => BankRoom c s ∧ 1 ≤ c.vb.scalar.toNat ∧ (c.f.m 3 3 = 1 ∨ c.vb.scalar.toNat ≤ 8)
      ∧ c.va.scalar64 % 32 = 0
   , met .bkmac (plain 0 0 520 524 0x18) base fun c s => bankFault s c.w.wid = none ∧ c.vb.scalar = 0 ∧ c.va.scalar64 % 32 = 0
   , met .bkop (plain 8 0 520 524 0) base fun c s => bankFault s c.w.wid = none ∧ c.vb.scalar = 0 ∧ c.va.scalar64 % 32 = 0
   , met .bkfnIn (plain 0 0 520 524 0) base fun c s => bankFault s c.w.wid = none ∧ c.vb.scalar = 0
   , met .bkfnOut (plain 1 0 520 524 0) base fun c s => bankFault s c.w.wid = none ∧ c.vb.scalar = 0
   , met .bkmac (plain 0 0 520 524 0x18) (scal [(12, 4097)]) fun c s => bankFault s c.w.wid = none ∧ 4096 < c.vb.scalar.toNat
   , met .bkmac (plain 0 0 520 524 0x18) (scal [(8, 31)]) fun c s => bankFault s c.w.wid = none ∧ c.va.scalar64 % 32 ≠ 0
   , met .bkop (plain 0 0 520 524 0) (scal [(12, 9)]) fun c s => bankFault s c.w.wid = none ∧ c.f.m 3 3 = 0 ∧ 8 < c.vb.scalar.toNat
   , met .bkop (plain 8 0 520 524 0) (scal [(8, 1)]) fun c s => bankFault s c.w.wid = none ∧ c.va.scalar64 % 32 ≠ 0
   , met .bkfnIn (plain 0 0 520 524 0) (scal [(12, 65537)]) fun c s => bankFault s c.w.wid = none ∧ 65536 < c.vb.scalar.toNat
   , met .bkfnOut (plain 1 0 520 524 0) (scal [(12, 65537)]) fun c s => bankFault s c.w.wid = none ∧ 65536 < c.vb.scalar.toNat
   , met .bkst (plain 0 0 520 0 0) base fun c s => BankRoom c s ∧ c.va.scalar64 % 32 = 0
   , met .bkrd (plain 0 4 520 0 0) base fun c s => bankFault s c.w.wid = none ∧ (s.bcmds.filter fun x => x.wid == c.w.wid).length < 64
      ∧ c.d = some (.v 4)
   , met .bkfnIn (plain 0 0 520 524 0) (scal [(12, 65536)]) fun c s => BankRoom c s ∧ 1 ≤ c.vb.scalar.toNat ∧ c.vb.scalar.toNat ≤ 65536
   , met .bkfnOut (plain 1 0 520 524 0) (scal [(12, 1)]) fun c s => BankRoom c s ∧ 1 ≤ c.vb.scalar.toNat ∧ c.vb.scalar.toNat ≤ 65536
   , met .bred (plain 0 516 520 0 0) (scal [(8, 63)]) fun c s => bankFault s c.w.wid = none ∧ c.va.scalar64 % 64 ≠ 0
   , met .bred (plain 0 516 520 0 0) (scal [(8, 0x400)] (bytesAt 0x400 (blockBytes 0))) fun c s => decide (bankFault s c.w.wid = none
      ∧ c.va.scalar64 % 64 = 0) && (match readOwn c s c.va.scalar64 64 with | .ok bs _ => !blockOk c.va.scalar64 bs | _ => false)
   , met .bred (plain 0 516 520 0 0) (scal [(8, 0x400)] (bytesAt 0x400 (blockBytes 1))) fun c s => decide (bankFault s c.w.wid = none
      ∧ c.va.scalar64 % 64 = 0) && (match readOwn c s c.va.scalar64 64 with
        | .ok bs u => blockOk c.va.scalar64 bs && decide (u.laneCheck c.w.asid (bytesNat bs 8 8) 1 .write = none)
            && ((u.lookup c.w.asid (bytesNat bs 8 8) .write).any fun x => decide ((u.jobs.filter fun j => j.stack == stackOf x.pa).length < 16
              ∧ unitTurn u (unitReduce (stackOf x.pa)) c.w.wid = true
              ∧ reservedFor u (fun m => m.kind == .red && redStack u m == stackOf x.pa) = false))
        | _ => false)]
theorem met_BankInstructionsSendTheirCommands : metBanks.all id := by decide +kernel

/-- A launch record (R61) that enters address 0 with one lane, and a copy card (R341). -/
def launchBytes : List Byte := leBytes 8 0 ++ leBytes 4 1 ++ leBytes 2 1 ++ List.replicate 26 0 ++ [1] ++ List.replicate 23 0
/-- A gang of 4097 waves, and a record with one tile descriptor. -/
def gangBytes : List Byte :=
  leBytes 8 0 ++ leBytes 4 (32 * 4097) ++ leBytes 2 1 ++ [0, 0] ++ leBytes 4 64 ++ [0, 8] ++ List.replicate 18 0 ++ [1] ++ List.replicate 23 0
def launchOfTiles (tile : List Byte) : List Byte :=
  leBytes 8 0 ++ leBytes 4 1 ++ leBytes 2 1 ++ [0, 1] ++ List.replicate 24 0 ++ [1] ++ List.replicate 23 0 ++ tile
def cardBytes : List Byte := [1] ++ List.replicate 63 0

def enabled (s : State) : State := onCtx (fun k => { k with qen := 1 }) s

def metNodes : List Bool :=
  let start (bs : List Byte) : State := enabled (scal [(8, 0x400)] (bytesAt 0x400 bs))
  let rec_ (mod : Nat) (ok : List Byte → Bool) (c : Ctx) (s : State) : Bool :=
    (s.ctx? c.w.asid).any fun x => queueEnabled x c.vb.scalar.toNat && decide (c.va.scalar64 % 64 = 0 ∧ c.f.m 1 0 = mod)
      && (match readOwn c s c.va.scalar64 64 with | .ok bs _ => ok bs | _ => false)
  let full (s : State) : State := onCtx (fun x => { x with quota := 1 }) s
  let tiled (p : LaunchRec → Bool → Bool) (c : Ctx) (s : State) : Bool := rec_ 0 launchOk c s
    && (match readOwn c s c.va.scalar64 64 with
      | .ok bs u => (match readOwn c u (c.va.scalar64 + 64) (16 * (launchOf bs).tiles) with
        | .ok tb _ => p (launchOf bs) (((List.range (launchOf bs).tiles).map fun i => (tb.drop (16 * i)).take 16).all tileOk)
        | _ => false)
      | _ => false)
  [met .tnew (plain 0 516 520 524 0) (start launchBytes) (rec_ 0 fun bs => launchOk bs && (launchOf bs).tiles == 0 && gangFits (launchOf bs))
   , met .tnew (plain 1 516 520 524 0) (start cardBytes) (rec_ 1 fun bs => cardOk 0x400 bs [1, 2, 3, 4])
   , met .tnew (plain 2 516 520 524 0) (start (blockBytes 1)) (rec_ 2 fun bs => blockOk 0x400 bs)
   , met .tnew (plain 0 516 520 524 0) base fun c s => (s.ctx? c.w.asid).any fun x => !queueEnabled x c.vb.scalar.toNat
   , met .tnew (plain 0 516 520 524 0) (enabled (scal [(8, 63)])) fun c s => ((s.ctx? c.w.asid).any fun x => queueEnabled x c.vb.scalar.toNat)
      && decide (c.va.scalar64 % 64 ≠ 0)
   , met .tnew (plain 0 516 520 524 0) (start []) (rec_ 0 fun bs => !launchOk bs)
   , met .tnew (plain 1 516 520 524 0) (start []) (rec_ 1 fun bs => !cardOk 0x400 bs [1, 2, 3, 4])
   , met .tnew (plain 2 516 520 524 0) (start []) (rec_ 2 fun bs => !blockOk 0x400 bs)
   , met .tnew (plain 0 516 520 524 0) (start launchBytes) (tiled fun _ ok => ok)
   , met .tnew (plain 0 516 520 524 0) (start (launchOfTiles (leBytes 8 0xFFFFFFFFFFFFFFFF))) (tiled fun _ ok => !ok)
   , met .tnew (plain 0 516 520 524 0) (start gangBytes) (tiled fun l ok => ok && !gangFits l)
   , met .tnew (plain 1 516 520 524 0) (full (start cardBytes)) (rec_ 1 fun bs => cardOk 0x400 bs [1, 2, 3, 4])
   , met .tnew (plain 2 516 520 524 0) (full (start (blockBytes 1))) (rec_ 2 fun bs => blockOk 0x400 bs)
   , [start cardBytes, full (start cardBytes)].all fun s => (s.ctx? 1).any fun x =>
       decide (x.quota ≤ (s.nodes.filter fun m => m.asid == x.asid && m.kind != .cont).length) == (x.quota == 1)]
theorem met_NodesAreCreated : metNodes.all id := by decide +kernel

/-- In a store with no used slot a node is added, whatever slot is free. -/
theorem met_addNode (n : Node) (hn : n.queue = 0) : ∃ x m t, base.ctx? 1 = some x ∧ addNode base x n = some (m, t) := by
  refine ⟨{ asid := 1, root := placeRoot }, ?_⟩
  have hu : usedSlots base 0 = [] := by decide +kernel
  have hq : ∀ x : Context, x.qdie = 0 → queueDie x 0 = 0 := by intro x hx; simp [queueDie, hx]
  have hc : (base.nodes.filter fun y => y.asid == 1 && y.kind != .cont).length = 1 := by decide +kernel
  have hx : base.ctx? 1 = some { asid := 1, root := placeRoot } := by decide +kernel
  have ht : usedSlots base.takeFree.2 0 = [] := hu
  unfold addNode
  rw [hn, hq _ rfl]
  dsimp only
  rw [hc, ht]
  simp [freeSlot, Config.nodeSlots, hx]

/-- A node that the wave's task has created, in slot 5, and one that waits for nothing. -/
def child (nid slot : Nat) : Node := { nid := nid, slot := slot, asid := 1, creator := some 0 }
def withChild (l : List Node) (s : State := base) : State := enabled { s with nodes := s.nodes ++ l }

def metLinks : List Bool :=
  let h5 : Nat := 2 ^ 30 + 5
  let own (p : Node → Context → Bool) (c : Ctx) (s : State) : Bool :=
    (ownHandle s c c.va.scalar.toNat).any fun m => (s.ctx? c.w.asid).any fun x => p m x
  let free (m : Node) (s : State) : Bool :=
    !(m.preds.any fun p => (match s.node? p with | some k => k.queue == m.queue && k.stage == .unsubmitted | none => false))
  let two := withChild [child 20 5, child 21 6] (scal [(8, h5), (12, 2 ^ 30 + 6)])
  let self := withChild [child 20 5] (scal [(8, h5), (12, h5)])
  let pred (p : Node → Node → Bool) (c : Ctx) (s : State) : Bool :=
    own (fun m x => match predOf s x c.vb.scalar.toNat with | .node y => p m y | _ => false) c s
  let crowded := withChild ([child 20 5, child 21 6] ++ List.replicate 512 { child 22 7 with preds := List.replicate 512 9 })
    (scal [(8, h5), (12, 2 ^ 30 + 6)])
  let grown (g : Nat) (n : Nat) := scal [(8, n)] (array fun a => { a with grant := g })
  [met .tdep (plain 0 516 520 524 0) two fun c s => pred (fun m p => !edgeRefused s c m p && decide (edgesOf s m.die < Config.edgeSlots)) c s
   , met .tdep (plain 0 516 520 524 0) (onCtx (fun x => { x with queues := x.queues.set 0 { next := 1 } }) (withChild [child 20 5] (scal [(8, h5)])))
      fun c s => own (fun _ x => match predOf s x c.vb.scalar.toNat with | .node _ => true | .retired => true | _ => false) c s
   , met .tdep (plain 0 516 520 524 0) (onCtx (fun x => { x with queues := x.queues.set 0 { next := 9 } })
        (withChild [child 20 5] (scal [(8, h5), (12, 3)]))) fun c s => own (fun _ x => match predOf s x c.vb.scalar.toNat with | .retired => true | _ => false) c s
   , met .tdep (plain 0 516 520 524 0) self fun c s => pred (fun m p => edgeRefused s c m p) c s
   , met .tdep (plain 0 516 520 524 0) (withChild [child 20 5] (scal [(8, h5), (12, 2 ^ 30 + 9)]))
      fun c s => own (fun _ x => match predOf s x c.vb.scalar.toNat with | .bad _ => true | _ => false) c s
   , met .tdep (plain 0 516 520 524 0) crowded fun c s => pred (fun m p => !edgeRefused s c m p && decide (Config.edgeSlots ≤ edgesOf s m.die)) c s
   , met .tdep (plain 0 516 520 524 0) base fun c s => ownHandle s c c.va.scalar.toNat = none
   , met .tsub (plain 0 516 520 0 0) two fun c s => own (fun m x => free m s && decide ((windowOf s x.asid m.queue).length < Config.window)
      && (x.queues[m.queue]?).isSome) c s
   , met .tsub (plain 0 516 520 0 0) (withChild (child 20 5 :: List.replicate 255 { child 30 9 with index := some 0 }) (scal [(8, h5)]))
      fun c s => own (fun m x => free m s && decide (Config.window ≤ (windowOf s x.asid m.queue).length)) c s
   , met .tsub (plain 0 516 520 0 0) base fun c s => ownHandle s c c.va.scalar.toNat = none
   , met .tgrow (plain 0 516 520 0 0) (grown 1 15) fun c s => (c.det = false ∨ c.va.scalar = 0)
      ∧ (s.array? c.w.core c.w.quad c.w.bank).any fun a => decide (a.holder = c.w.node ∧ 1 ≤ a.grant
        ∧ unitsGranted s c.w.core c.w.quad + c.va.scalar.toNat ≤ Config.accUnits)
   , met .tgrow (plain 0 516 520 0 0) (grown 1 16) fun c s => (c.det = false ∨ c.va.scalar = 0)
      ∧ (s.array? c.w.core c.w.quad c.w.bank).any fun a => decide (a.holder ≠ c.w.node ∨ a.grant = 0
        ∨ Config.accUnits < unitsGranted s c.w.core c.w.quad + c.va.scalar.toNat)
   , met .tgrow (plain 0 516 520 0 0) base fun c s => (c.det = false ∨ c.va.scalar = 0) ∧ s.array? c.w.core c.w.quad c.w.bank = none]
theorem met_NodesAreLinkedSubmittedAndGranted : metLinks.all id := by decide +kernel

def metAlloc : List Bool :=
  let second : State := vecr 12 1 (scal [(8, 0x400)] (onWave (fun w => { w with idx := 1 }) detState))
  [met .talloc (plain 0 4 520 12 0) (scal [(8, 0x400)]) fun c s => c.contDet = false ∧ (c.det = false ∨ tallocTurn s c.w = true) ∧ c.d = some (.v 4)
      ∧ dataMatch s c true true 16 (fun _ => c.va.scalar64) = none ∧ c.va.scalar64 % 16 = 0
      ∧ s.laneCheck c.w.asid c.va.scalar64 8 .write = none ∧ outstFull c.w (maskCount c.m) = false
   , met .talloc (plain 0 4 520 12 0) second fun c s => c.contDet = false ∧ c.det = true ∧ tallocTurn s c.w = false
   , met .talloc (plain 0 4 520 12 0) contDetState fun c _ => c.contDet = true
   , met .tabortNode (plain 0 516 520 0 0) (withChild [child 20 5] (scal [(8, 2 ^ 30 + 5)])) fun c s => (ownHandle s c c.va.scalar.toNat).isSome
   , met .tabortNode (plain 0 516 520 0 0) base fun c s => ownHandle s c c.va.scalar.toNat = none
   , met .tabortSelf (plain 1 0 0 0 0) base fun c s => match (s.nodeOf c.w).fam.bind s.fam? with
      | some g => (g.owner != (s.nodeOf c.w).nid || g.st == .direct) && (s.nodeOf c.w).kind != .eng | none => true
   , met .tabortSelf (plain 1 0 0 0 0) { base with fams := base.fams.map fun g => { g with st := .spec } } fun c s =>
      ((s.nodeOf c.w).fam.bind s.fam?).any fun g => decide (g.owner = (s.nodeOf c.w).nid ∧ g.st ≠ .direct)]
theorem met_AllocationAndAbortActOnTheTask : metAlloc.all id := by decide +kernel

/-- One lane acts, with the descriptor of its operand C at 0x400. -/
def oneLane (s : State := base) : State := scal [(16, 0x400)] (onWave (fun w => { w with exec := 1 }) s)

/-- A texture of one texel (R405) of a format, and a tiled one with a surface. -/
def texBytes (fmt : Nat) : List Byte :=
  leBytes 8 0 ++ leBytes 8 0 ++ leBytes 2 1 ++ leBytes 2 1 ++ leBytes 4 16 ++ [BitVec.ofNat 8 fmt] ++ List.replicate 7 0
def tileBytes : List Byte :=
  leBytes 8 0 ++ leBytes 8 0x1000 ++ leBytes 2 8 ++ leBytes 2 8 ++ leBytes 4 0 ++ [0, 1] ++ List.replicate 6 0

/-- A pass (R407) of 32 by 32 pixels in a state. -/
def passBytes (state : Nat) : List Byte :=
  [0, 0x80, 0x100, 0x80, 0x180, 0x200, 0x800, 0x1000, 0x900].flatMap (leBytes 8) ++ leBytes 2 32 ++ leBytes 2 32
    ++ [0, BitVec.ofNat 8 state] ++ leBytes 2 64 ++ leBytes 4 1024 ++ leBytes 4 1 ++ leBytes 4 4 ++ List.replicate 36 0

/-- A pass whose descriptor is at 0x400. -/
def passState (state : Nat) (st : Option PassSt) : State :=
  { oneLane (bytesAt 0x400 (passBytes state)) with
    passes := match st with | some x => [{ asid := 1, desc := 0x400, since := 30, bytes := passBytes state, st := x }] | none => [] }

/-- The rays of context 1 have room, and slot 1 has a binding; a layout of nodes with one box, and its block (R380, R386). -/
def layoutBytes : List Byte :=
  leBytes 2 64 ++ [1, 1] ++ leBytes 4 0 ++ [1, 0] ++ leBytes 2 24 ++ leBytes 4 0 ++ List.replicate 12 0 ++ [1] ++ List.replicate 35 0
def bindBytes (plen : Nat) : List Byte := leBytes 8 0 ++ leBytes 8 0x800 ++ leBytes 8 0x10 ++ leBytes 4 plen ++ List.replicate 36 0
def aRay : Ray :=
  { rid := 60, asid := 1, num := 0, owner := 0, slot := 1, die := 0, origin := [0, 0, 0], tmin := 0, dir := [0, 0, 0x3F800000]
    tmax := 0x7F800000, node := 0x400, hitT := 0, cont := 0, laneIdx := 0, mask := 1, live := [5] }
def aBinding : Binding := { asid := 1, slot := 1, prog := 0, root := 0x10, plen := 16, lay := layoutOf layoutBytes }
def rayArea (s : State := base) : State := { onCtx (fun x => { x with raycap := 64 }) s with bindings := [aBinding] }

def metRays : List Bool :=
  let binds (plen : Nat) : State := bytesAt 0x800 layoutBytes (bytesAt 0x400 (bindBytes plen) (scal [(8, 0x400)] (rayArea)))
  let bindOk (run : Bool) (c : Ctx) (s : State) : Bool := match readOwn c s c.va.scalar64 64 with
    | .ok bs u => (match readOwn c u (bytesNat bs 8 8) 64 with
      | .ok lb v => ((u.ctx? c.w.asid).any fun x => x.raycap != 0) && blockRanges bs && layoutOk lb
          && (v.rays.any fun r => r.asid == c.w.asid && r.slot == c.f.e 3 0 && r.running) == run
      | _ => false)
    | _ => false
  let cast (cont : Ctx → Nat) (left : Bool) (c : Ctx) (s : State) : Bool :=
    ((s.ctx? c.w.asid).any fun x => decide ((s.rays.filter fun r => r.asid == c.w.asid).length + maskCount c.m ≤ x.raycap))
      && (s.binding? c.w.asid (c.f.m 3 0)).isSome && decide (c.d = some (.v 4) ∧ cont c % 4 = 0)
      && decide ((∀ k ∈ maskBits c.vb.scalar, 4 + k < c.w.allot ∧ c.w.vfull (4 + k) = true) ∧ storesAcked s c.w.wid s.nextId = true
        ∧ unitTurn s (unitRays c.w.asid) c.w.wid = true ∧ (left = true ↔ c.w.exec &&& ~~~c.m ≠ 0) ∧ NoDeferred c s ∧ streamAgain s c.w = false
        ∧ bankAgain s c.w.wid = false ∧ stoppedStream s c.w = none ∧ releasedWork s c.w = false ∧ leaveHeld s c.w = false)
  let shot : State := scal [(12, 1)] (rayArea)
  [met .kbind (plain 0 516 520 0 1) (binds 65536) (bindOk false), met .kbind (plain 0 516 520 0 1) { binds 1 with rays := [aRay] } (bindOk true)
   , met .kbind (plain 0 516 520 0 1) (binds 65537) fun c s => match readOwn c s c.va.scalar64 64 with
      | .ok bs u => (u.ctx? c.w.asid).any fun x => decide (x.raycap = 0 ∨ blockRanges bs = false) | _ => false
   , met .trace (plain 1 4 8 524 0) shot (cast (fun c => (c.w.pc + 12).toNat) false)
   , met .tracec (plain 1 4 8 524 528) shot (cast (fun c => c.vc.scalar64) false)
   , met .trace { plain 1 4 8 524 0 with pred := 1 } (onWave (fun w => { w with p := w.p.set 1 1 }) shot) (cast (fun c => (c.w.pc + 12).toNat) true)
   , met .tracec { plain 1 4 8 524 528 with pred := 1 } (onWave (fun w => { w with p := w.p.set 1 1 }) shot) (cast (fun c => c.vc.scalar64) true)]
theorem met_RaysAreBoundAndCast : metRays.all id := by decide +kernel

def contWave (e : Bool) : State := { onWave (fun w => { w with cont := some 0, cendDone := e, contLanes := [⟨0, 60, 0⟩] }) with rays := [aRay] }

def metContinuation : List Bool :=
  [met .cgetLive (plain 0 4 0 524 0) (scal [(12, 3)] (contWave false)) fun c _ => c.d = some (.v 4) ∧ mayGet c.w = true
      ∧ ∀ i ∈ maskBits c.vb.scalar, 4 + i < c.w.allot ∧ c.w.vfull (4 + i) = true
   , met .cgetHit (plain 1 4 0 0 0) (contWave false) fun c _ => c.d = some (.v 4) ∧ mayGet c.w = true
   , met .cgetLive (plain 0 4 0 524 0) base fun c _ => c.d.isSome ∧ (c.w.cont = none ∨ c.w.cendDone = true)
   , met .cgetHit (plain 1 4 0 0 0) (contWave true) fun c _ => c.d.isSome ∧ (c.w.cont = none ∨ c.w.cendDone = true)
   , ((contWave false).waves.any fun w => (laneRay (contWave false) w 0).any fun r => !raySpoiled (contWave false) r)
   , met .cend (plain 0 0 0 0 0) base fun c _ => c.w.cont = none, met .cend (plain 0 0 0 0 0) (contWave false) fun c _ => c.w.cont ≠ none]
theorem met_ContinuationRecordsAreRead : metContinuation.all id := by decide +kernel

/-- The descriptor of n bytes is read, valid, and a condition holds of it and of the state after the reading. -/
def described (n : Nat) (ok : List Byte → Bool) (p : Ctx → List Byte → State → Bool) (c : Ctx) (s : State) : Bool :=
  c.vc.scalar64 % n == 0 && match readOwn c s c.vc.scalar64 n with
    | .ok bs t => ok bs && c.w == (c.wave t) && p c bs t
    | _ => false

def metSampling : List Bool :=
  let reads (lin : Ctx → Bool) (c : Ctx) (bs : List Byte) (u : State) : Bool :=
    c.d.isSome ∧ ((maskBits c.m).any fun l => readsHeld u c.w ((laneFootprint c (texOf bs) (lin c) l).flatMap (·.reads))) = false
      ∧ (lanesRead c u (fun l => (laneFootprint c (texOf bs) (lin c) l).flatMap (·.reads)) fun _ _ => (0, 0)).bad = 0
  let mat (c : Ctx) (bs : List Byte) (u : State) : Bool := (u.ctx? c.w.asid).any fun x => x.mattab != 0 && decide (3 ≤ (texOf bs).fmt)
    && (match readOwn c u (x.mattab + 512 * c.f.e 17 12) 512 with | .ok m v => materialOk m && reads (fun _ => true) c bs v | _ => false)
  let pixel (p : List Byte → Bool) (addr : Ctx → List Byte → Nat → Nat) (c : Ctx) (ds : List Byte) (u : State) : Bool :=
    let r (l : Nat) : List (Nat × Nat) := match pixelOf ds (c.va.w l) with | some q => [(addr c ds q, 8)] | none => []
    p ds && decide (pdState ds = 3 ∧ c.d.isSome ∧ c.f.e 14 12 < pdNs ds ∧ ((maskBits c.m).any fun l => readsHeld u c.w (r l)) = false
      ∧ (lanesRead c u r fun _ _ => (0, 0)).bad = 0)
  let odd : State := scal [(16, 8)]
  [met .tex (plain 0 4 8 0 528) (oneLane (bytesAt 0x400 (texBytes 0))) (described 32 texOk (reads fun c => c.f.m 0 0 == 1))
   , met .tex (plain 1 4 8 0 528) (oneLane (bytesAt 0x400 (texBytes 2))) (described 32 texOk (reads fun c => c.f.m 0 0 == 1))
   , met .texg (plain 3 4 8 0 528) (oneLane (bytesAt 0x400 (texBytes 0))) (described 32 texOk (reads fun _ => true))
   , met .texn (plain 0 4 8 0 528) (onCtx (fun x => { x with mattab := 0x1000 }) (oneLane (bytesAt 0x1000 [1] (bytesAt 0x400 (texBytes 3)))))
      (described 32 texOk mat)
   , met .tex (plain 0 4 8 0 528) odd fun c _ => c.vc.scalar64 % 32 ≠ 0, met .texg (plain 0 4 8 0 528) odd fun c _ => c.vc.scalar64 % 32 ≠ 0
   , met .texn (plain 0 4 8 0 528) odd fun c _ => c.vc.scalar64 % 32 ≠ 0
   , met .vbrd (plain 0 4 8 0 528) (passState 3 none) (described 128 passOk (pixel (fun _ => true) fun c ds p => pdVis ds + (p * pdNs ds + c.f.e 14 12) * 8))
   , met .rpq (plain 0 4 8 0 528) (passState 3 none) (described 128 passOk (pixel (fun ds => pdPrev ds != 0) fun _ ds p => pdStat ds + 8 * p))]
theorem met_SamplingInstructionsReadTheirLanes : metSampling.all id := by decide +kernel

def metPasses : List Bool :=
  let passRead (p : Ctx → List Byte → State → Bool) (c : Ctx) (s : State) : Bool :=
    decide (c.vc.scalar64 % 128 = 0 ∧ s.anyParked = false ∧ mayHit s (c.wave s) c.vc.scalar64 128 = true)
      && match homeRead s c.w.asid (s.specFam c.w.node) c.vc.scalar64 128 with
        | .ok (bs, t) => passOk bs && p c bs t
        | _ => false
  let pass (p : Ctx → Pass → List Byte → State → Bool) (c : Ctx) (ds : List Byte) (u : State) : Bool :=
    (u.livePass c.w.asid c.vc.scalar64).any fun x => p c x ds u
  let emits (c : Ctx) (p : Pass) (_ : List Byte) (u : State) : Bool :=
    decide (p.st = .opened ∧ p.held = false ∧ p.part = [] ∧ p.asid = c.w.asid ∧ p.desc = c.vc.scalar64)
      && (match emitLanes c p.desc p.bytes (maskBits c.m) 0 0 u with
        | (_, _, .ok t) => (t.livePass c.w.asid c.vc.scalar64).any fun q => decide (q.part = [])
        | _ => false)
  let attrs (c : Ctx) (ds : List Byte) (u : State) : Bool :=
    decide (pdState ds = 3 ∧ 4 * (c.f.e 15 12 + 1) ≤ pdStride ds) && (match readOwn c u (pdSurv ds) 4 with
      | .ok cb v => (match readOwn c v (pdSurv ds + 4) (4 * min (leNat cb) (pdSurvCap ds)) with
        | .ok kb w => ((maskBits c.m).all fun l => (attrAddrs ds (c.f.e 15 12 + 1) (survPos (survKeys ds cb kb) ((c.vb.w l).toNat))).all fun a =>
            decide (w.laneCheck c.w.asid a 4 .write = none))
            && decide (outstFull c.w ((maskBits c.m).foldl (fun k l => k + (attrAddrs ds (c.f.e 15 12 + 1) (survPos (survKeys ds cb kb) ((c.vb.w l).toNat))).length) 0)
              = false)
        | _ => false)
      | _ => false)
  let tiles (c : Ctx) (bs : List Byte) (u : State) : Bool := (texOf bs).fmt = 0 ∧ (texOf bs).surf ≠ 0
    ∧ (∀ l ∈ maskBits (tileLanes c (texOf bs)), tileFault u c (texOf bs) l = none) ∧ outstFull c.w (maskCount (tileLanes c (texOf bs))) = false
  let surface : State := oneLane (bytesAt 0x400 tileBytes)
  let interrupted : State := { passState 2 (some .closing) with
    passes := (passState 2 (some .closing)).passes.map fun p => { p with part := [(2, 0, 0)] } }
  [met .pemit (plain 0 577 8 12 528) (passState 1 (some .opened)) (passRead (pass emits))
   , met .pemit (plain 0 577 8 12 528) (passState 0 none) (passRead fun c ds u => decide (pdState ds < 2 ∧ u.livePass c.w.asid c.vc.scalar64 = none)
      && ((openPass c u c.vc.scalar64 ds).livePass c.w.asid c.vc.scalar64).isSome)
   , met .pemit (plain 0 577 8 12 528) (passState 2 (some .closing)) (passRead (pass fun c p _ _ =>
      p.st == .closing && !(p.part.any fun x => x.1 == c.w.wid)))
   , met .pemit (plain 0 577 8 12 528) (passState 3 none) (passRead fun c ds u =>
      decide (2 ≤ pdState ds ∧ u.livePass c.w.asid c.vc.scalar64 = none))
   , met .pemit (plain 0 577 8 12 528) interrupted (passRead (pass fun c p _ _ => p.part.any fun x => x.1 == c.w.wid))
   , met .pemitClose (plain 4 0 0 0 528) (passState 1 (some .opened)) (passRead (pass fun _ p _ _ => p.st == .opened))
   , met .aemit (plain 0 577 8 12 528) (bytesAt 0x800 (leBytes 4 1) (passState 3 none)) (described 128 passOk attrs)
   , met .ccdcDec (plain 0 0 8 0 528) surface (described 32 texOk tiles), met .ccdcEnc (plain 1 0 8 0 528) surface (described 32 texOk tiles)
   , met .ccfc (plain 0 0 8 12 528) surface (described 32 texOk tiles)
   , (passState 1 (some .opened)).livePass 1 0x400 |>.any fun p => !passSpoiled (passState 1 (some .opened)) p
   , decide (0x41 / 64 = 1 ∧ 4 ≤ [1, 2, 3, 4].length), decide (0x40 / 64 ≠ 0 ∧ 0x3F / 64 = 0)]
theorem met_PassInstructionsEmitAndConvert : metPasses.all id := by decide +kernel

/-- A ray in a Kite, with its node in the buffer. -/
def kiteState (g : Ray → Ray := id) (b : Binding → Binding := id) : State :=
  { rayArea with
    curRay := some 60, bindings := [b aBinding]
    rays := [g { aRay with place := .kite 0, nb := true, buf := [0xBF800000, 0xBF800000, 0x3F000000].flatMap (leBytes 4)
                                                             ++ [0x3F800000, 0x3F800000, 0x40000000].flatMap (leBytes 4)
                                                             ++ leBytes 8 0x500 ++ List.replicate 32 0 }] }

def kmet (i : KFields → Instr) (k : KFields) (s : State) (cond : KFields → Binding → Ray → Bool) : Bool :=
  match s.curRay.bind s.ray? with
  | some r => match s.binding? r.asid r.slot with | some b => kiteFieldsOk (i k) && cond k b r | none => false
  | none => false

def kf (kd ka sub imm : Nat) : KFields := { kd := BitVec.ofNat 3 kd, ka := BitVec.ofNat 3 ka, kb := 0, sub := BitVec.ofNat 4 sub, imm := BitVec.ofNat 32 imm }

def triBytes : List Byte := [0xBF800000, 0xBF800000, 0x3F800000, 0x3F800000, 0xBF800000, 0x3F800000, 0, 0x3F800000, 0x3F800000, 7].flatMap (leBytes 4)

def metKite1 : List Bool :=
  let loads (addr : KFields → Binding → Ray → Option Nat) (s : State) (k : KFields) (b : Binding) (r : Ray) : Bool :=
    (addr k b r).any fun a => a % 16 == 0 && (match rayRead (kiteStart s) r (s.specFam r.owner) a b.lay.nodeSize with | .ok _ => true | _ => false)
  let child (k : KFields) (b : Binding) (r : Ray) : Option Nat := childAddr b r ((r.reg k.ka).toNat % 16)
  let hits (k : KFields) (b : Binding) (r : Ray) : Option Nat := boxHit b.lay r (boxOf b.lay r.buf ((r.reg k.ka).toNat % 16))
  let empty : State := kiteState fun r => { r with nb := false }
  let full : State := kiteState fun r => { r with stack := List.replicate 12 1 }
  let deep (x : Nat) : State := kiteState fun r => { r with stack := [3, x] }
  let leafy : State := kiteState (fun r => { r with buf := triBytes }) fun b => { b with lay := { b.lay with leafFmt := 1, nLeaf := 1, leafOff := 0 } }
  let away : State := kiteState fun r => { r with dir := [0, 0, 0xBF800000] }
  [kmet .kiteNld (kf 0 0 0 0) kiteState (loads (fun _ _ r => some r.node) kiteState)
   , kmet .kiteNldRoot (kf 0 0 1 0) kiteState (loads (fun _ b _ => some b.root) kiteState)
   , kmet .kiteNldChild (kf 0 2 2 0) kiteState (loads child kiteState)
   , kmet .kiteNldChild (kf 0 2 2 0) empty fun k b r => (child k b r).isNone
   , kmet .kiteNld (kf 0 0 0 0) (kiteState fun r => { r with node := 0x408 }) fun _ _ r => r.node % 16 != 0
   , kmet .kiteNldRoot (kf 0 0 1 0) (kiteState id fun b => { b with root := 8 }) fun _ b _ => b.root % 16 != 0
   , kmet .kiteNldChild (kf 0 2 2 0) (kiteState fun r => { r with buf := (r.buf.take 24) ++ leBytes 8 0x508 ++ (r.buf.drop 32) }) fun k b r =>
      (child k b r).any fun a => a % 16 != 0
   , kmet .kiteTxi (kf 5 1 0 0) (kiteState (fun r => { r with buf := triBytes, dir := [0, 0, 0xBF800000] })
        fun b => { b with lay := { b.lay with leafFmt := 1, nLeaf := 1, leafOff := 0 } }) fun k b r => r.nb && b.lay.leafFmt == 1
      && decide ((r.reg k.ka).toNat % 16 < b.lay.nLeaf → triHit b.lay r ((List.range 9).map fun j =>
        bytesNat r.buf (b.lay.leafOff + 40 * ((r.reg k.ka).toNat % 16) + 4 * j) 4) = none)
   , kmet .kitePush (kf 0 1 0 0) empty fun k b r => (child k b r).isNone
   , (match rayRead kiteState aRay none 0x400 64, homeRead kiteState 1 none 0x400 64 with
      | .ok _, .ok (_, t) => !t.writtenSince 1 0x400 64 aRay.rid | _, _ => false)
   , kmet .kiteBxi (kf 2 1 0 0) kiteState fun k b r => r.nb && b.lay.boxFmt != 0 && decide ((r.reg k.ka).toNat % 16 < b.lay.nBox) && (hits k b r).isSome
   , kmet .kiteBxi (kf 2 1 0 0) away fun k b r => r.nb && b.lay.boxFmt != 0 && decide ((r.reg k.ka).toNat % 16 < b.lay.nBox → hits k b r = none)
   , kmet .kiteBxi (kf 2 1 0 0) empty fun _ b r => decide (r.nb = false ∨ b.lay.boxFmt = 0)
   , kmet .kiteTxi (kf 5 1 0 0) leafy fun k b r => r.nb && b.lay.leafFmt == 1 && decide ((r.reg k.ka).toNat % 16 < b.lay.nLeaf)
      && (triHit b.lay r ((List.range 9).map fun j => bytesNat r.buf (b.lay.leafOff + 40 * ((r.reg k.ka).toNat % 16) + 4 * j) 4)).isSome
   , kmet .kiteTxi (kf 5 1 0 0) kiteState fun _ b r => decide (r.nb = false ∨ b.lay.leafFmt ≠ 1)
   , kmet .kitePush (kf 0 1 0 0) (kiteState fun r => { r with stack := List.replicate 11 1 }) fun k b r => (child k b r).isSome && decide (r.stack.length < 12)
   , kmet .kitePush (kf 0 1 0 0) full fun k b r => (child k b r).isSome && decide (12 ≤ r.stack.length)
   , kmet .kitePushTag (kf 0 0 1 255) kiteState fun _ _ r => decide (r.stack.length < 12)
   , kmet .kitePushTag (kf 0 0 1 1) full fun _ _ r => decide (12 ≤ r.stack.length)
   , kmet .kitePop (kf 7 0 0 0) kiteState fun _ _ r => decide (r.stack = [])
   , kmet .kitePop (kf 7 0 0 0) (deep (2 ^ 56)) fun _ _ r => decide (r.stack = [3] ++ [2 ^ 56] ∧ 2 ^ 56 / 2 ^ 56 % 256 ≠ 0)
   , kmet .kitePop (kf 7 0 0 0) (deep (2 ^ 53 - 1)) fun _ _ r => decide (r.stack = [3] ++ [2 ^ 53 - 1] ∧ (2 ^ 53 - 1) / 2 ^ 56 % 256 = 0)]
theorem met_KiteInstructionsLoadTestAndStack : metKite1.all id := by decide +kernel

def metKite2 : List Bool :=
  let yes : KFields → Binding → Ray → Bool := fun _ _ _ => true
  let flag (c : Bool) : State := kiteState fun r => { r with cond := c }
  let inst : State := kiteState (fun r => { r with buf := leBytes 8 0x600 ++ List.replicate 56 0 })
    fun b => { b with lay := { b.lay with leafFmt := 2, nLeaf := 1, instSize := 64 } }
  [kmet .kiteSrt (kf 0 0 0 8) kiteState yes, kmet .kiteSrt (kf 6 0 0 2) kiteState yes, kmet .kiteCmp (kf 0 1 7 0) kiteState yes
   , kmet .kiteCmpImm (kf 0 1 8 9) kiteState yes
   , kmet .kiteBr (kf 0 0 0 15) (flag true) fun k b r => decide (k.imm.toNat < b.plen ∧ r.cond = true)
   , kmet .kiteBr (kf 0 0 0 15) (flag false) fun k b r => decide (k.imm.toNat < b.plen ∧ r.cond = false)
   , kmet .kiteBrn (kf 0 0 1 0) (flag false) fun k b r => decide (k.imm.toNat < b.plen ∧ r.cond = false)
   , kmet .kiteBrn (kf 0 0 1 0) (flag true) fun k b r => decide (k.imm.toNat < b.plen ∧ r.cond = true)
   , kmet .kiteJmp (kf 0 0 0 15) kiteState fun k b _ => decide (k.imm.toNat < b.plen)
   , kmet .kiteJmp (kf 0 0 0 16) kiteState fun k b _ => decide (b.plen ≤ k.imm.toNat)
   , kmet .kiteJmpReg (kf 0 3 1 0) kiteState fun k b r => decide ((r.reg k.ka).toNat % 65536 < b.plen)
   , kmet .kiteCall (kf 2 0 0 15) kiteState fun k b _ => decide (k.imm.toNat < b.plen)
   , kmet .kiteBr (kf 0 0 0 16) (flag false) fun k b _ => decide (b.plen ≤ k.imm.toNat)
   , kmet .kiteBrn (kf 0 0 1 16) (flag true) fun k b _ => decide (b.plen ≤ k.imm.toNat)
   , kmet .kiteCall (kf 2 0 0 16) kiteState fun k b _ => decide (b.plen ≤ k.imm.toNat)
   , kmet .kiteJmpReg (kf 0 3 1 0) (kiteState fun r => { r with k := r.k.set 3 16 }) fun k b r => decide (b.plen ≤ (r.reg k.ka).toNat % 65536)
   , kmet .kiteIxf (kf 6 0 0 0) kiteState fun k b r => decide (r.nb = false ∨ r.inst = true ∨ b.lay.leafFmt ≠ 2 ∨ b.lay.nLeaf ≤ (r.reg k.ka).toNat % 16)
   , kmet .kiteAcpt (kf 0 5 0 0) kiteState yes, kmet .kiteHit (kf 0 5 0 0) kiteState yes
   , kmet .kiteIxf (kf 6 0 0 0) inst fun k b r => r.nb && !r.inst && b.lay.leafFmt == 2 && decide ((r.reg k.ka).toNat % 16 < b.lay.nLeaf)
      && (match rayRead (kiteStart inst) r (inst.specFam r.owner) (bytesNat r.buf (b.lay.leafOff + 8 * ((r.reg k.ka).toNat % 16)) 8) b.lay.instSize with
        | .ok _ => true | _ => false)
   , kmet .kiteItl (kf 0 0 0 0) kiteState yes, kmet .kiteMov (kf 7 1 0 0) kiteState yes, kmet .kiteMovImm (kf 7 0 1 9) kiteState yes
   , kmet .kiteMovN (kf 7 0 2 60) kiteState fun k b r => decide (r.nb = true ∧ k.imm.toNat < b.lay.nodeSize)
   , kmet .kiteMovN (kf 7 0 2 64) kiteState fun k b r => decide (r.nb = false ∨ b.lay.nodeSize ≤ k.imm.toNat)
   , kmet .kiteMovT (kf 7 0 3 1) kiteState yes, kmet .kiteAdd (kf 7 1 0 0) kiteState yes, kmet .kiteAddImm (kf 7 1 1 9) kiteState yes
   , kmet .kiteEnd (kf 0 0 0 0) kiteState yes
   , decide (kiteState.curRay.bind kiteState.ray? ≠ none ∧ kiteFieldsOk (.kiteEnd (kf 0 1 0 0)) = false)]
theorem met_KiteInstructionsComputeJumpAndAccept : metKite2.all id := by decide +kernel

/-- An access of the wave to address 0x400, and a state with it. -/
def anAcc (k : AccKind) (st : AccSt := .issued) : Access :=
  { id := 41, gid := 41, wid := 2, node := 0, core := 0, lane := 0, kind := k, space := .glob, asid := 1, addr := 0x400, size := 4, st := st }
def withAcc (a : Access) (s : State := base) : State := { s with accs := [a] }
def spec (s : State) : State := { s with fams := s.fams.map fun f => { f with st := .spec } }

def anEntry : RedoEntry := { asid := 1, addr := 0x400, fam := 1, gen := 0, dbl := false }

def metAccesses : List Bool :=
  let goes (s : State) (p : Access → Bool) : Bool := (s.acc? 41).any fun a => a.st == .issued && p a && (match admission s a with | .go _ => true | _ => false)
  let held (s : State) (at_ : Bool) : Bool := (s.acc? 41).any fun a => a.st == .issued && a.kind.isAtomic == at_ && !a.kind.isRedo
    && (match admission s a with | .hold _ => true | _ => false)
  let deferred (s : State) (p : Access → Trans → List Trans → Bool) : Bool :=
    !s.plat.stopped && (s.acc? 41).any fun a => a.st == .deferred && deferredReady s a && ctxAdmits s a
      && (match accTrans s a with | some (t :: ts) => p a t (t :: ts) | _ => false)
  let later : State := withAcc (anAcc (.atom 0 false true) .deferred)
  let hold (s : State) : State := { s with fams := s.fams.map fun f => { f with st := .hold, committed := false } }
  let sys : Access := { anAcc (.atom 0 false true) with scope := 4 }
  let port : State := spec { base with tlb := [{ asid := 1, page := 0, gen := 0, tr := { pa := 0x1000000000000, w := true, x := true, g := false
                                                                                         sro := false, home := 3, core := 0, bank := false } }] }
  let locked : State := onCtx (fun x => { x with migs := [{ block := 0, va := 0, leaf := 0, compl := 0, lines := 8, locked := true, started := true }] }) base
  [goes (withAcc (anAcc (.load false true false))) fun a => a.kind == .load false true false
   , goes (withAcc (anAcc (.store false))) fun a => !a.kind.isAtomic && !a.kind.isRedo
   , goes (withAcc { anAcc (.store false) with space := .spad 0, addr := 8 }) fun a => !a.kind.isAtomic && !a.kind.isRedo
   , goes (withAcc (anAcc (.atom 0 false true))) fun a => a.kind.isAtomic
   , (withAcc (anAcc (.atom 0 false true)) { base with redos := [anEntry] }).redos.any fun e => decide (e.asid = 1 ∧ e.addr / 128 = 0x400 / 128)
   , deferred later (fun a t ts => match famAdmits later a t ts with | .go _ => true | _ => false)
   , deferred (withAcc { sys with st := .deferred } (spec base)) (fun a t ts =>
      match famAdmits (withAcc { sys with st := .deferred } (spec base)) a t ts with | .hold _ => true | _ => false)
   , deferred (hold later) (fun a _ ts => (famOfNode (hold later) a.node).any fun f => f.st == .hold && !f.committed && !holdTrigger (hold later) a f ts)
   , deferred (withAcc (anAcc (.host .fetchAdd) .deferred)) (fun a _ _ => a.kind == .host .fetchAdd)
   , goes (withAcc { anAcc (.redo false) with fam := some 1 }) (fun a => a.kind == .redo false && (a.fam.bind base.fam?).isSome)
   , (withAcc (anAcc (.load false true false)) locked).accs.any fun a => a.st == .issued && a.kind == .load false true false
      && (match admission (withAcc (anAcc (.load false true false)) locked) a with | .wait => true | _ => false)
   , twins (withAcc (anAcc (.load false true false))) (anAcc (.load false true false)) == [anAcc (.load false true false)]
   , deferred (hold later) (fun a _ ts => (famOfNode (hold later) a.node).any fun f => f.st == .hold && !holdTrigger (hold later) a f ts)
   , ({ later with plat := { later.plat with stopped := true } }).plat.stopped && (later.acc? 41).isSome
   , held (withAcc sys (spec base)) true, held (withAcc (anAcc (.store false)) port) false, decide (-(1074 : Int) ≤ -1074)]
theorem met_AccessesArePerformedAtTheirPlace : metAccesses.all id := by decide +kernel

def aLanding : Landing := { gid := 44, wid := 2, dest := .vec 30 2, load := true, vals := [(31, 7)] }

def metAcks : List Bool :=
  let done := withAcc { anAcc (.store false) .performed with space := .spad 0 }
  let landing : State := { base with lands := [aLanding] }
  [(done.acc? 41).any fun a => decide (a.st = .performed ∧ contribKept done a.id = false ∧ a.space ≠ .glob ∧ (done.wave? a.wid).isSome)
   , (landing.lands.find? fun l => l.gid == 44).any fun l => landReady landing l && (landing.wave? l.wid).isSome
   , base.waves.any fun w => decide (aLanding.dest = .vec 30 2 ∧ 30 + 2 ≤ w.v.length) && w.v.all fun x => x.lanes.length == 32]
theorem met_AcknowledgementsAndResultsArrive : metAcks.all id := by decide +kernel

/-- A redo buffer that is full, with a contribution that has waited for its time. -/
def fullRedo : State :=
  { base with
    cc := Config.redoWaitCc, accs := [{ anAcc (.redo false) with since := 0 }]
    redos := List.replicate Config.redoEntries anEntry }

theorem met_redoOverflow : (let s := fullRedo
    let slice := redoSlice s 1 0x400
    decide (Config.redoEntries ≤ (bufferEntries s slice).length)
      && (s.accs.any fun a => a.kind.isRedo && a.st == .issued && redoSlice s a.asid a.addr == slice && decide (a.since + Config.redoWaitCc ≤ s.cc))
      && decide ((s.redos.filter fun e => e.overflow && redoSlice s e.asid e.addr / 32 == slice / 32).length < Config.overflowEntries)) = true := by
  decide +kernel

/-- A gang of two dies: its task's word on each die. -/
def gangState (die : Nat) (rel : Bool) : State :=
  let s : State := { base with
    nodes := base.nodes.map fun n => { n with launch := { n.launch with gang := true, gword := 0 }, gangAt := [⟨64, 0⟩, ⟨0, 0⟩] }
    spads := [{ node := 0, core := 0, size := 1024, bytes := [] }, { node := 0, core := 64, size := 1024, bytes := [] }]
    gangMsgs := [{ node := 0, die := die, release := rel }] }
  setTw (setTw s 0 ⟨0, 0⟩ { init := true, gang := true, root := true, members := 1, dies := 2 }) 0 ⟨64, 0⟩ { init := true, gang := true, members := 1 }

def metStreamsAdvance : List Bool :=
  let runs (s : State) (p : Stream → Wave → Bool) : Bool := (s.stream? 45).any fun t => (s.wave? t.wid).any fun w => p t w && s.anyParked == false
  let writing : State := { bound true 4 with streams := (bound true 4).streams.map fun t => { t with entries := [{ vals := List.replicate 32 0 }] } }
  let refused : State := { writing with streams := writing.streams.map fun t => { t with again := true, stopped := true } }
  let rooted : State := gangState 1 false
  let wave (s : State) (p : Wave → Bool) : Bool := (s.wave? 2).any p
  let parked : State := onWave (fun w => { w with st := .parked .time (some 5) }) { base with cc := 5 }
  let ending : State := onWave fun w => { w with st := .halting }
  let waits : State := onWave (fun w => { w with st := .blocked }) { base with unitQ := [{ unit := 3, wid := 2 }] }
  let divides : State := { bytesAt 0 (encode (.sdiv (plain 0 516 520 524 0))) with units := [{ unit := unitData 0 0 0, until_ := 9 }] }
  let away : State := onWave fun w => { w with bank := 1 }
  let benched : State := onCtx (fun c => { c with benched := true }) base
  let empty : State := { base with quads := [{ core := 0, quad := 0, active := 0, armed := false }] }
  [runs (bound false 4) fun t w => canFetch t && ctxRuns (bound false 4) w.asid && !w.spilled && !fetchHeld (bound false 4) t w
      && !t.entries.any (·.again)
   , runs writing fun t _ => decide (t.write = true ∧ t.stopped = false ∧ t.again = false ∧ t.entries ≠ [])
   , runs refused fun t w => decide (t.write = true ∧ t.again = true ∧ t.entries ≠ []) && returned refused w
   , rooted.gangMsgs.any fun m => decide (m = { node := 0, die := 1, release := false })
      && ((rootWord { rooted with gangMsgs := rooted.gangMsgs.erase m } 0).any fun r =>
        decide ((getTw { rooted with gangMsgs := rooted.gangMsgs.erase m } 0 r).diearr + 1 < (getTw { rooted with gangMsgs := rooted.gangMsgs.erase m } 0 r).dies))
   , (gangWord { gangState 1 true with gangMsgs := [] } 0 1).isSome && (gangState 1 true).gangMsgs.contains { node := 0, die := 1, release := true }
   , wave parked fun w => decide (w.st = .parked .time (some 5) ∧ 5 ≤ parked.cc)
   , wave (onWave fun w => { w with waitCtr := 47 }) fun w => decide (w.st = .ready ∧ w.waitCtr = 47)
   , wave ending fun w => haltOver ending w && w.range == 0 && (ending.node? w.node).isSome
   , wave { onWave (fun w => { w with range := 1 }) ending with nextId := 51 } fun w => haltOver (onWave (fun w => { w with range := 1 }) ending) w && w.range != 0
   , wave (onWave fun w => { w with ending := true }) fun w => decide (w.ending = true ∧ w.st ≠ .halting)
        && !leaveHeld (reportHeld (onWave fun w => { w with ending := true }) w) w
   , wave (onWave (fun w => { w with ending := true }) (tw twoMembers true padStore)) fun w => decide (w.ending = true ∧ w.st ≠ .halting)
        && leaveHeld (reportHeld (onWave (fun w => { w with ending := true }) (tw twoMembers true padStore)) w) w
   , (unitFirst waits 3).any fun u => (waits.wave? u.wid).any fun w => decide (unitBusy waits 3 = false ∧ w.core = 0 ∧ w.quad = 0 ∧ w.st = .blocked
        ∧ w.pending = none)
   , wave divides fun w => (unitNeed divides w).any fun x => unitBusy divides x.1 && decide (2 ≤ x.2)
   , wave away (fun w => spillReady away w) && !away.anyParked
   , holdsBenched benched 0 0 && armedAll benched (closureOf benched (residents benched) 0 0)
   , !isTarget away 0 0 && !holdsBenched away 0 0 && !reserved away (dieOf 0) none && !away.anyParked && (returnSet away 0 0).isSome
   , !(quadOf empty 0 0).armed && decide (bankWaves empty 0 0 (1 - (quadOf empty 0 0).active) = [])]
theorem met_StreamsGangsAndWavesAdvance : metStreamsAdvance.all id := by decide +kernel

def aCmd (op : ArrOp) : ArrCmd := { id := 30, wid := 2, pc := 0, cfg := 0x18841, op := op }

def metUnits : List Bool :=
  let queue (op : ArrOp) (g : ArrCmd → ArrCmd := id) (s : State := base) : State := array (fun a => { halves a with queue := [g (aCmd op)] }) s
  let head (s : State) (p : ArrayBank → ArrCmd → Wave → Bool) : Bool :=
    (s.array? 0 0 0).any fun a => (a.queue.head?).any fun h => (s.wave? h.wid).any fun w => p a h w
  let starts (op : ArrOp) (p : State → ArrayBank → ArrCmd → Wave → Bool := fun _ _ _ _ => true) : Bool :=
    head (queue op) fun a h w => canStart (queue op) a h && h.op == op && p (queue op) a h w
  let str : ArrOp := .str true 0 0 1 0 0 none none
  let runs (op : ArrOp) (g : ArrCmd → ArrCmd) (s : State) (p : State → ArrCmd → Wave → Bool) : Bool :=
    let t := queue op (fun h => { g h with started := true }) s
    head t fun a h w => h.op == op && h.started && a.fault.isNone && decide (a.bank = activeBank t 0 0) && ctxRuns t w.asid && !w.spilled
      && !t.anyParked && !t.deadCores.contains 0 && p t h w
  let cmd (op : BankOp) (pos : Nat := 0) (pages : List Nat := []) (holder : Nat := 0) : State :=
    { bankPage (some holder) with
      bcmds := [{ cid := 30, wid := 2, node := 0, asid := 1, core := 0, pc := 0, addr := 0x400, op := op, pos := pos, pages := pages }] }
  let bank (s : State) (p : BankCmd → Bool) : Bool := (s.bcmds.find? fun c => c.cid == 30).any fun c => decide (awake s c = c) && cmdReady s c && p c
  let checks (s : State) (c : BankCmd) : Bool := let u : State := { s with bcmds := modify (fun x => x.cid == 30) (fun _ => c) s.bcmds }
    c.pos == 0 || pagesNow u c != c.pages
  let checked (s : State) (c : BankCmd) : Bool := (!checks s c || (match cmdCheck { s with bcmds := modify (fun x => x.cid == 30) (fun _ => c) s.bcmds } c with
      | .ok _ => true
      | _ => false))
    && decide (c.op.needsDirect = true → cmdFam s c.node = none)
  let job (st : JobSt) (stack : Nat := 0) : State := { base with
    ns := 2
    jobs := [{ jid := 30, wid := 2, node := 0, asid := 1, pc := 0, stack := stack, sbase := 0, dst := 0x80, flag := 0x100, len := 1, ty := 0, soffs := [0], st := st }] }
  let sums (s : State) (p : Job → JobCheck → Bool) : Bool := (s.jobs.find? fun j => j.jid == 30).any fun j => jobReady s j && j.st == .queued && p j (jobCheck s j)
  let entry (op : EngOp) (g : EngEntry → EngEntry := id) : State := { base with
    ns := 2, entries := [g { eid := 30, wid := some 2, node := 0, asid := 1, queue := some 0, pc := 0, op := op }] }
  let eng (s : State) (p : EngEntry → Bool) : Bool := (s.entries.find? fun e => e.eid == 30).any p
  [starts .cfg, starts .swp, starts (.clr false true 0 1 5), starts (.rd 44 0 0)
   , starts (.lds true true 1 0 0) fun s _ h w => match readCols s w (arrCfg h.cfg) true true 1 0 0 with | .ok _ => true | _ => false
   , starts str
   , starts (.st 0 false false 0x80 0 0 1 0) fun s a h w => match sendStores s a h w (arrCfg h.cfg) 0 false false 0x80 0 0 1 0 with
      | (_, none, u) => u.accs.any fun x => x.gid == h.id
      | _ => false
   , ((array fun a => { halves a with loading := some {} }).array? 0 0 0).any fun a => a.loading.isSome
   , runs str (fun h => { h with pass := 1 }) base fun _ h _ => decide (h.pass ≠ 0)
   , runs str id base fun s h w => decide (h.pass = 0) && (match nextRow s w (arrCfg h.cfg) h with | .row _ _ _ _ => true | _ => false)
   , runs (.str false 0 0 1 0 0 (some 45) none) id (bound false 4) fun s h w =>
      decide (h.pass = 0) && (match nextRow s w (arrCfg h.cfg) h with | .wait _ _ => true | _ => false)
   , bank (cmd (.rd 44 0 0 1 0)) fun c => checked (cmd (.rd 44 0 0 1 0)) c && decide (c.op.columns ≤ c.pos + 1 ∧ c.op.counted = false)
   , bank (cmd (.st 0 1)) fun c => checked (cmd (.st 0 1)) c && decide (c.op.columns ≤ c.pos + 1 ∧ c.op.counted = true)
   , bank (cmd (.mac 0 3 0 0 0)) fun c => checked (cmd (.mac 0 3 0 0 0)) c && decide (c.pos + 1 < c.op.columns)
   , bank (cmd (.mac 0 3 0 0 0) 1) fun c => checked (cmd (.mac 0 3 0 0 0) 1) c && decide (c.pos ≠ 0 ∧ c.pos + 1 < c.op.columns)
   , bank (cmd (.mac 0 3 0 0 0) 2) fun c => checked (cmd (.mac 0 3 0 0 0) 2) c && decide (1 < c.op.columns ∧ c.op.columns ≤ c.pos + 1)
   , bank (cmd (.mac 0 3 0 0 0) 1 [8192]) fun c => checks (cmd (.mac 0 3 0 0 0) 1 [8192]) c && checked (cmd (.mac 0 3 0 0 0) 1 [8192]) c
   , bank (cmd (.mac 0 3 0 0 0) 0 [] 7) fun c => !checked (cmd (.mac 0 3 0 0 0) 0 [] 7) c
   , bank (cmd (.mac 0 3 0 0 0) 1 [8192] 7) fun c => checks (cmd (.mac 0 3 0 0 0) 1 [8192] 7) c && !checked (cmd (.mac 0 3 0 0 0) 1 [8192] 7) c
   , ((base.wave? 2).filter fun w => w.st == .halting).isNone
   , ((cmd (.st 0 1)).bcmds.map fun c => { c with fault := some { code := 0 } }).any fun c =>
      c.fault.any fun d => !d.again
   , sums (job .queued 1) fun _ k => k matches .place
   , sums (job .queued) fun j k => (k matches .ok) && !jobMeets j && decide (jobPieces j 0 = [(0x80, 4)])
      && decide ((jobSums (job .queued) j).2.2.laneCheck 1 0x80 1 .write = none) && ((jobSums (job .queued) j).2.2.lookup 1 0x80 .write).any (fun t => decide (t.pa < 2 ^ 39 ∧ (job .queued).isOwn t.pa = false))
   , base.mem.wf
   , ((job (.flagging 0 0 0)).jobs.find? fun j => j.jid == 30).any fun j => decide (j.st = .flagging 0 0 0 ∧ j.stopped = false ∧ j.byNode = false ∧ base.anyParked = false
        ∧ 0 + 2 ≤ (job (.flagging 0 0 0)).ns ∧ base.laneCheck 1 j.flag 8 .write = none) && (base.lookup 1 j.flag .write).isSome
   , eng (entry (.fence 1)) fun e => engReady (entry (.fence 1)) e && e.op == .fence 1
   , eng (entry (.copy 0x80 0x100 4 false)) fun e => engReady (entry (.copy 0x80 0x100 4 false)) e
      && (let x := engReadPieces 1 (linePieces (0x100 + e.inBuf.length) (4 - e.inBuf.length))
            { s := entry (.copy 0x80 0x100 4 false), e := { e with started := true }, nt := false }
          x.stop == .going && (engFlush 0x80 { x with e := { x.e with out := x.e.inBuf } }).stop == .going)
   , eng (entry (.card 8 false)) fun e => engReady (entry (.card 8 false)) e && e.card.isNone && decide (8 % 64 ≠ 0)
   , eng (entry (.fence 1) fun e => { e with performed := true, gid := some 44 }) fun e =>
      decide (e.performed = true ∧ e.gwct + 2 ≤ 2 ∧ e.gid = some 44 ∧ e.queue.isSome = true)
   , eng (entry (.fence 1) fun e => { e with performed := true, queue := none }) fun e =>
      decide (e.performed = true ∧ e.gwct + 2 ≤ 2 ∧ e.gid = none ∧ e.queue = none) && ((entry (.fence 1)).node? e.node).any (·.stage == .running)
   , eng { onNode (fun n => { n with stage := .complete }) (entry (.fence 1) fun e => { e with performed := true, queue := none }) with ns := 2 } fun e =>
      decide (e.performed = true ∧ e.gwct + 2 ≤ 2 ∧ e.gid = none ∧ e.queue = none)
   , decide (255 < 256 ∧ 127 < 128)]
theorem met_UnitsPerformTheirCommands : metUnits.all id := by decide +kernel

/-- A node of the task's queue that may be dispatched. -/
def ready20 : Node := { child 20 5 with stage := .ready, index := some 1, launch := { count := 1, entry := 0x100 }, readyAt := 0 }

def metPuppeteers : List Bool :=
  let ring (door slots : Nat) : State := enabled (onCtx fun x => { x with rings := [{ base := 0x40400, slots := slots, door := door }] })
  let put (n : Node) (s : State := base) : State := { s with nodes := s.nodes ++ [n] }
  let dis (s : State) (n : Node) : Bool := mayDispatch s n && canServe s n && firstServed s n
  let late : State := { put ready20 with ns := Config.passedOverNs }
  let hold (c : Bool) : State := { base with ns := 2, fams := base.fams.map fun f => { f with st := .hold, committed := c } }
  let done (f : Family → Family) : State := { onNode (fun n => { n with stage := .complete }) { base with ns := 2, waves := [] } with fams := base.fams.map f }
  let old (s : State) (p : Node → Context → Bool) : Bool := (oldestNode s.settle 1 0).any fun n => (s.settle.ctx? 1).any fun c =>
    decide (n.stage = .complete ∧ queueStopped s.settle 1 0 = false ∧ ctxRuns s.settle 1 = true ∧ s.settle.anyParked = false) && !(s.settle.waves.any fun w => w.node == n.nid) && p n c
  let running : Node := { ready20 with stage := .running, launch := { count := 33 }, placed := 1 }
  let hs (c : Bool) : Bool := ((hold c).fam? 1).any fun f => ((hold c).node? f.owner).any fun o =>
    decide (f.st = .hold) && isOldest (hold c) o && !(hold c).anyParked && !queueStopped (hold c) o.asid o.queue && ctxRuns (hold c) o.asid
  [((ring 1 4).ctx? 1).any fun c => (c.rings[0]?).any fun r => queueEnabled c 0 && !r.overrun && !(ring 1 4).anyParked && ctxRuns (ring 1 4) 1 && !mustRerun (ring 1 4) 1
      && decide ((r.door + 2 ^ 32 - r.next) % 2 ^ 32 ≠ 0 ∧ (r.door + 2 ^ 32 - r.next) % 2 ^ 32 < 2 ^ 31)
   , mustRerun (put { ready20 with restart := true }) 1
   , ((put ready20).node? 20).any (dis (put ready20))
   , ((put (child 20 5)).node? 20).any fun n => !mayDispatch (put (child 20 5)) n
   , ((put running).node? 20).any fun n => decide (n.kind = .krn ∧ n.stage = .running ∧ n.launch.gang = false ∧ n.placed < n.launch.waves)
      && ctxPlaces (put running) n.asid && !reserved (put running) n.die (some n.nid) && (bestQuad (put running) n n.die).isSome
   , (late.node? 20).any fun n => mayDispatch late n && decide (n.readyAt + Config.passedOverNs ≤ late.ns)
   , hs false, hs true, (base.fam? 1).any fun f => f.st != .hold
   , old (done fun f => { f with st := .spec }) fun n _ => versionWork (done fun f => { f with st := .spec }).settle n
   , old (done id) fun n c => !versionWork (done id).settle n && versionSettled (done id).settle n && (done id).settle.evRoom c
   , (withChild [{ child 20 5 with stage := .waiting, preds := [0] }]).nodes.any fun m => decide (m.nid ≠ 0 ∧ m.stage = .waiting ∧ ∀ p ∈ m.preds, p = 0)
   , decide (base.rays = [])]
theorem met_PuppeteersRunTheTaskGraph : metPuppeteers.all id := by decide +kernel

def metRaysAdvance : List Bool :=
  let one (r : Ray) (s : State := base) : State := { s with rays := [r] }
  let saving : State := onCtx (fun c => { c with wd := .saving }) (one { aRay with place := .kite 0 })
  let ended : State := one { aRay with place := .ended }
  let tri : Tri := { xs := [0, 0, 0], ys := [0, 0, 0], zs := [0, 0, 0], key := 0 }
  let binning : State := { passState 1 (some .opened) with appends := [{ id := 30, asid := 1, desc := 0x400, tile := 0, tri := tri }] }
  let closing : State := { passState 1 (some .closing) with
    passes := (passState 1 (some .closing)).passes.map fun p => { p with bytes := (p.bytes.take 0x18) ++ List.replicate 8 0 ++ (p.bytes.drop 0x20) } }
  let flag : State := { passState 1 (some (.flagging 0 0)) with ns := 2 }
  [((one aRay).rayNum? 1 0).any fun r => mayTake (one aRay) r 0 && decide ((kiteLoad (one aRay) 0).length < 256)
   , (one aRay).rays.any fun r => !raySpoiled (one aRay) r
   , (saving.rayNum? 1 0).any fun r => r.place == .kite 0 && mustSuspend saving r 0
   , (ended.node? 0).isSome && decide (readyGroup ended 1 0 0 ≠ []) && groupDue ended 1 0 (readyGroup ended 1 0 0)
   , (binning.appends.find? fun x => x.id == 30).any fun x => (binning.livePass x.asid x.desc).any fun p => decide (p.held = false ∧ binning.anyParked = false ∧ binLen p x.tile < pdBinCap p.bytes)
   , (closing.closedPass 1 0x400).any fun p => decide (p.st = .closing ∧ closing.anyParked = false) && passBinned p closing
      && (match closePass p closing with | .ok _ => true | _ => false)
   , (flag.closedPass 1 0x400).any fun p => decide (p.st = .flagging 0 0 ∧ flag.anyParked = false ∧ 0 + 2 ≤ flag.ns)
      && (match flagPass p 0 flag with | .ok _ => true | _ => false)]
theorem met_RaysAndPassesAdvance : metRaysAdvance.all id := by decide +kernel

def firm (s : State := base) : State := { s with plat := { s.plat with fwRunning := true } }

/-- A context descriptor of 128 bytes at an address, for an ASID; its ring table at address 0x3000 is not read. -/
def described128 (asid : Nat) : State :=
  let d : List Byte := leBytes 2 asid ++ List.replicate 6 0 ++ leBytes 8 0x40000 ++ leBytes 8 0x3000 ++ List.replicate 16 0
    ++ leBytes 4 16 ++ List.replicate 12 0 ++ leBytes 4 64 ++ leBytes 4 64 ++ List.replicate 64 0
  { base with mem := base.mem.setBytes 0x2000 d, plat := { base.plat with work0 := 0x800000, work1 := 0x1000000 } }

def metHost : List Bool :=
  let c (s : State) (p : Context → Bool) : Bool := (s.ctx? 1).any p
  let busy : State := onCtx fun x => { x with busy := true, gen := 1 }
  let wraps : State := onCtx fun x => { x with busy := true, wrapped := true }
  let heat : State := firm { base with plat := { base.plat with hot := true } }
  let halved : State := firm { base with plat := { base.plat with groups := [{ stack := 0, half := 0, parked := true }] } }
  let mig : State := onCtx fun x => { x with migs := [{ block := 0, va := 0, leaf := 0, compl := 0 }] }
  let going : State := onCtx fun x => { x with migs := [{ block := 0, va := 0, leaf := 0, compl := 0, started := true }] }
  let ringed (o : Bool) : State := onCtx fun x => { x with rings := [{ base := 0, slots := 1, overrun := o }] }
  let valid (s : State) (addr : Nat) : Bool := let d := physBytes s addr 128
    s.plat.work0 != 0 && s.plat.work1 != 0 && addr % 128 == 0 && decide (addr + 128 ≤ 2 ^ 39) && descOk d
      && (List.range 64).all fun q => bytesNat d 0x18 8 / 2 ^ q % 2 == 0 || ringOk (physBytes s (bytesNat d 0x10 8 + 16 * q) 16)
  let lost : State := onCtx (fun x => { x with wd := .lost }) (described128 1)
  let stopped : State := onNode fun n => { n with stage := .stopped }
  let shared (b : Bool) (s : State := base) : State := onCtx (fun x => { x with benched := b }) s
  let block : State := { base with mem := base.mem.setBytes 0x2000 (leBytes 2 1) }
  let moved : Migration := { block := 0, va := 0, leaf := 0x42007, compl := 0 }
  [(firm).plat.fwRunning && !(firm).plat.stopped && !(firm).plat.hot && (firm).plat.groups.isEmpty
   , heat.plat.fwRunning && !heat.plat.stopped && heat.plat.hot && heat.plat.groups.isEmpty
   , halved.plat.fwRunning && !halved.plat.stopped && (halved.plat.groups.any fun g => g.parked), decide ((firm { base with ns := 2 }).plat.posted + 2 ≤ 2), !base.plat.fwRunning
   , ({ base with plat := { base.plat with stopped := true } }).plat.stopped, decide (4 % 8 ≠ 0)
   , !valid (described128 5) 0x2008, !valid base 0x2000
   , valid (described128 1) 0x2000 && c (described128 1) fun x => decide (x.wd ≠ .lost)
   , valid (described128 5) 0x2000 && workOk (described128 5) && (bytesNat (physBytes (described128 5) 0x2000 128) 0 2 == 5) && ((described128 5).ctx? 5).isNone
   , valid lost 0x2000 && c lost fun x => decide (x.wd = .lost)
   , base.nodes.any fun n => !outcomeStands base n
   , (onNode fun n => { n with stage := .complete, status := 0 }).nodes.any fun n => outcomeStands (onNode fun n => { n with stage := .complete, status := 0 }) n
   , [true, false].all fun o => c (ringed o) fun x => (x.rings[0]?).any fun r => r.overrun == o
   , (stoppedNode stopped 1 0).any fun n => c stopped fun x => (x.queues[0]?).isSome && stopped.nodes.all fun m =>
       decide (m.asid = 1 → m.queue = 0 → m.stage = .stopped → m.nid = n.nid)
   , (stoppedNode base 1 0).isNone
   , c (onCtx fun x => { x with wd := .saved }) fun x => x.wd == .saved && !base.plat.hot, c base fun x => decide (x.wd ≠ .saved)
   , c (shared true) (·.benched), c (shared false) fun x => !x.benched && (base.waves.any fun w => w.asid == 1 && resident base w)
   , c { shared false with waves := [] } fun x => !x.benched
   , c block (fun x => x.migs.isEmpty) && bytesNat (physBytes block 0x2000 32) 0 2 == 1, bytesNat (physBytes base 0x2000 32) 0 2 != 1
   , c (onCtx fun x => { x with migs := [moved] }) fun x => (x.migs.head?).any fun m =>
       (base.translate 1 m.va).isSome && (State.leaf m.leaf 13 m.va).isSome && (leafSlot base x.root m.va).isSome
   , base.mem.wf && (base.locate 1 0x80).isSome && decide (placeCode / 8192 * 8192 + 128 + 128 ≤ 2 ^ 39)
      && !base.isOwn (placeCode / 8192 * 8192 + 128) && !base.isParked (placeCode / 8192 * 8192 + 128)
   , c base fun x => decide (x.busy = false), c busy fun x => decide (x.busy = true ∧ x.heldReplies = [] ∧ x.moves = [] ∧ x.wrapped = false)
   , c wraps fun x => decide (x.busy = true ∧ x.heldReplies = [] ∧ x.moves = [] ∧ x.wrapped = true)
   , c (onCtx fun x => { x with heldReplies := [(7, 0)] }) fun x => x.heldReplies.any fun y => y.1 == 7, decide (127 < 128 ∧ 11 < 12)
   , c mig fun x => (x.migs.head?).any fun m => decide (m.started = false ∧ x.moves = [])
   , c (onCtx (fun x => { x with moves := [8] }) mig) fun x => decide (x.moves ≠ [])
   , c going fun x => ((x.migs.head?).any fun m => m.started) && !mig.plat.stopped && !(mig.plat.groups.any fun g => g.parked)
   , ({ mig with plat := { mig.plat with groups := [{ stack := 0, half := 0, parked := true }] } }).plat.groups.any fun g => g.parked
   , c (ringed false) fun x => (x.rings[0]?).isSome, c base fun x => decide (x.wd = .armed)]
theorem met_HostRegistersControlContexts : metHost.all id := by decide +kernel

def metLinksHost : List Bool :=
  [!base.plat.stopped && !base.anyParked, { base with plat := { base.plat with groups := [{ stack := 0, half := 0, parked := true }] } }.anyParked
   , ({ base.plat with stopped := true }).stopped
   , !base.anyParked && (match homeRead base 1 none 0x400 8 with | .ok _ => true | _ => false)
   , decide (base.laneCheck 1 0x400 8 (.atomic true) = none) && (base.lookup 1 0x400 (.atomic true)).isSome
      && !isOpen base 1 8
   , ({ base.plat with recovery := true }).recovery, decide (15 < 16 ∧ (5 : Nat) ≠ (portOf base 15).nextSeq ∧ 25 ≤ 25 ∧ 1 ≤ 1)]
theorem met_HostAccessesAndLinks : metLinksHost.all id := by decide +kernel

def metFailures : List Bool :=
  let c (s : State) (p : Context → Bool) : Bool := (s.ctx? 1).any p
  let issued := withAcc (anAcc (.load false true false))
  let closing : State := passState 1 (some .closing)
  let grp (p : Bool) (m : ShareMode) : State := { base with plat := { base.plat with groups := [{ stack := 7, half := 1, parked := p, mode := m }] } }
  let late : State := { base with ns := 1000000 * Config.defaultWdogMs }
  let saving (t : Nat) : State := onCtx (fun x => { x with wd := .saving, saveFrom := 0 }) { base with ns := t }
  let back : State := onCtx (fun x => { x with wd := .saved, restoring := true }) (onWave fun w => { w with spilled := true })
  [(issued.acc? 41).any fun a => a.st == .issued, (lossOf issued 41).any fun l => (issued.node? l.node).any issued.nonSpec
   , (lossOf (spec issued) 41).any fun l => ((spec issued).node? l.node).any fun n => !(spec issued).nonSpec n && ((spec issued).passNo 41).isNone
   , (lossOf (spec closing) 30).any fun l => ((spec closing).node? l.node).any fun n => !(spec closing).nonSpec n && ((spec closing).passNo 30).isSome
   , !(base.accs.any fun a => a.id == 41)
   , decide (127 < 128 ∧ base.deadCores.contains 127 = false), ({ base with deadCores := [0] } : State).deadCores.contains 0, decide (0 < 128 ∧ base.deadCores.contains 0 = false)
   , ((bankPage (some 0)).pch? (0 * 64 + 0 * 2 + 4 % 2)).any fun p => ((bankPage (some 0)).node? p.holder).isSome
   , decide (7 < 8 ∧ 31 < 32 ∧ (base.groupOr 7 (31 / 16)).dead.contains 31 = false)
   , ((grp true .recovery).groupOr 7 1).parked, !(base.groupOr 7 1).parked
   , decide (((grp false .recovery).groupOr 7 1).mode = .recovery ∧ ((grp false .recovery).groupOr 7 1).parked = false)
   , c late fun x => decide (wdPaused late x = false ∧ x.wdFrom + x.wdogMs * 1000000 ≤ late.ns)
   , c (saving 2000000) fun x => decide (x.wd = .saving ∧ 2000000 ≤ x.saveFrom + 2000000 ∧ saveReady (saving 2000000) 1 = true
        ∧ (saving 2000000).anyParked = false)
   , c (saving 2000001) fun x => decide (x.wd = .saving ∧ x.saveFrom + 2000000 < 2000001)
   , c back fun x => decide (x.restoring = true ∧ back.plat.hot = false ∧ back.plat.stopped = false ∧ back.anyParked = false)
      && (placeCores x.benched ((back.waves.filter fun w => w.asid == 1 && w.spilled).map (·.wid))
        ((back.waves.filter fun w => w.asid == 1 && w.spilled).map (·.core)).dedup back).isSome
   , coreFits back back.waves 0 0, coreFits { back with deadCores := [0] } back.waves 0 1
      && decide (restoreCore { back with deadCores := [0] } back.waves 0 = some 1)
   , decide (100 < base.plat.clockMHz)]
theorem met_FailuresAndSavesActOnContexts : metFailures.all id := by decide +kernel

theorem met_PowerResetAndTime : (decide (base.portWrites = [] ∧ base.partWaits = [] ∧ base.plat.regWait = [] ∧ gangDue base = false) && (base.ctxs.all fun c => c.fqWait.isEmpty && c.evWait.isEmpty && c.migs.isEmpty && !c.benched)
    && gangDue (onNode (fun n => { n with launch := { n.launch with gang := true } }) (onWave (fun w => { w with startAt := 1 }) { base with ns := 1 }))) = true := by
  decide +kernel

theorem met_EveryStepKeepsMemoryCanonical : (base.mem.wf && (match step { base with turns := [.tick] } with | .next _ => true | _ => false)) = true := by
  decide +kernel

def metStep : List Bool :=
  let s : State := { (placeWord .reset (leBytes 12 0x102004088100000100000000)) with turns := [.issue 0 0] }
  let m : State := (candidates { s with turns := [] } 0 0).foldl markReady { s with turns := [] }
  let idle : State := { base with turns := [.issue 5 1] }
  let k : State := { placeKite .reset (leBytes 8 0x30620000FFFFFFFF) with turns := [] }
  let rid : Nat := (k.rays.map (·.rid)).getD 0 0
  [(selectWave m 0 0).any fun w => match fetch ((takeUnit (countWaits m 0 0 w.wid) w).setWave { w with startAt := 0 }) { w with startAt := 0 } with | .word _ _ => true | _ => false
   , (selectWave ((candidates { idle with turns := [] } 5 1).foldl markReady { idle with turns := [] }) 5 1).isNone
   , (k.ray? rid).any fun r => decide (r.place = .kite 0 ∧ k.plat.stopped = false ∧ ctxRuns k r.asid = true ∧ k.anyParked = false ∧ k.deadCores.contains 0 = false)
      && (match kiteFetch k r with | .word b _ => (decodeKiteWord b).isOk | _ => false)
   , s.waves.any fun w => decide (s.ilines = [] ∧ s.homes = [] ∧ s.portWrites = [] ∧ s.parkedPuts = [] ∧ s.names = [] ∧ w.pc.toNat % 4 = 0 ∧ w.pc.toNat % 128 ≤ 116 ∧ s.laneCheck w.asid w.pc.toNat 1 .fetch = none
      ∧ s.opened w.asid w.pc.toNat = false)
      && ((s.lookup w.asid w.pc.toNat .fetch).any fun t => decide (t.pa < 2 ^ 39) && (List.range 128).all fun k => !s.isOwn (t.pa / 128 * 128 + k))
   , decide ((leBytes 12 7).length = 12)]
theorem met_AStepRunsTheDecodedInstruction : metStep.all id := by decide +kernel

def metAnswers : List Bool :=
  [isWaveInstr (.nop (plain 0 0 0 0 0)), (base.cur.bind base.wave?).isSome, isKiteInstr (.kiteEnd (kf 0 0 0 0)), (kiteState.curRay.bind kiteState.ray?).isSome
   , (State.reset.cur.bind State.reset.wave?).isNone, (State.reset.curRay.bind State.reset.ray?).isNone
   , !isWaveInstr .leaseClockTick, !isKiteInstr .leaseClockTick]
theorem met_EveryInstructionAnswersAState : metAnswers.all id := by decide +kernel

def metWords : List Bool :=
  [wellFormed (.sadd (plain 0x20 516 516 0 0x10000)), isWaveInstr (.sadd (plain 0x20 516 516 0 0x10000))
   , isKiteInstr (.kiteCmpImm (kf 0 3 8 0xFFFFFFFF)), wellFormed (.kiteCmpImm (kf 0 3 8 0xFFFFFFFF)), (decodeKiteWord 0x30620000FFFFFFFF).isOk]
theorem met_DecodingAnEncodedWordGivesItBack : metWords.all id := by decide +kernel
theorem met_WordsAndInstructionsCorrespond : metWords.all id := by decide +kernel

def metGuards : List Bool :=
  let off : Fields := { plain 0 4 8 12 0 with pred := 1 }
  let toff : Fields := { plain 0 4 520 12 0 with pred := 1 }
  let w := (base.cur.bind base.wave?).getD (placedWave base)
  let half : Fields := { plain 0 4 8 12 0 with pred := 2 }
  [decide (guardOf w (plain 0 0 0 0 0) = 0xFFFFFFFF), met .vadd (plain 0 4 8 12 0) base fun c _ => c.w.rp.isNone
   , chosen base && (match prepare (.vadd off) off w (start base) with | .skip => true | _ => false) && (opOf (.vadd off)).isSome
   , chosen base && (match prepare (.talloc toff) toff w (start base) with | .skip => true | _ => false) && !((start base).nodeOf w).launch.det
   , met .vadd half (onWave fun w => { w with p := w.p.set 2 0x7FFFFFFF }) fun c s => c.d = some (.v 4) ∧ c.m.getLsbD 31 = false ∧ (s.wave? c.w.wid).isSome
   , met .vcmp { plain 0 577 8 12 0 with pred := 2 } (onWave fun w => { w with p := w.p.set 2 0x7FFFFFFF }) fun c s =>
      c.d = some (.p 1) ∧ c.m.getLsbD 31 = false ∧ (s.wave? c.w.wid).isSome
   , chosen (onWave fun w => { w with p := w.p.set 1 0x7FFFFFFF }) fun w => let f : Fields := { plain 0 0 520 0 0 with pred := 1 }
      (shape (.mcfg f)).any fun sh => shapeOk sh f && decide (step5 sh f w.allot = none ∧ sh.rule = .full ∧ w.exec &&& guardOf w f ≠ 0
        ∧ w.exec &&& guardOf w f ≠ 0xFFFFFFFF)]
theorem met_GuardsSelectWhatActs : metGuards.all id := by decide +kernel

def metChecks : List Bool :=
  let w := (base.cur.bind base.wave?).getD (placedWave base)
  let sh (i : Instr) (p : Shape → Bool) : Bool := chosen base && (opOf i).isSome && (shape i).any p
  let bad : Fields := plain 0x3F 0 0 0 1
  let far : Fields := plain 0 40 8 12 0
  let part : Fields := { plain 0x18841 0 520 0 0 with mod := 0, pred := 1 }
  let w1 : Wave := { w with p := w.p.set 1 1 }
  let fe : Fields := { plain 0 4 8 12 0 with fea := true }
  let live : Fields := plain 1 28 8 524 0
  [sh (.nop bad) fun s => !shapeOk s bad, sh (.vadd far) fun s => shapeOk s far && (step5 s far w.allot).isSome
   , sh (.mcfg part) fun s => shapeOk s part && (step5 s part w.allot).isNone && (acts s.rule part (w1.exec &&& guardOf w1 part)).isNone
   , sh (.vadd fe) fun s => shapeOk s fe && (step5 s fe w.allot).isNone
   , chosen (scal [(12, 0x80)]) fun w => (shape (.trace live)).any fun s => shapeOk s live && (step5 s live w.allot).isNone
      && acts s.rule live (w.exec &&& guardOf w live) == some true && (step7 s live w).isNone && resolved w 0 s.d live.d == some (.v 28) && !s.imm
      && (match resolved w 2 s.b live.b, s.b with
        | some r, some u => (maskBits (SrcVal.w (readOp w u r) 0)).getLast? == some 7 && decide (w.allot ≤ 28 + 7)
        | _, _ => false)
   , (onWave fun w => { w with held := true }).waves.any fun w => w.held
   , regsFull w { ks := [.v] } (.v 4), !regsFull { w with v := w.v.set 4 ⟨false, []⟩ } { ks := [.v] } (.v 4)
   , decide (w.hnd = true ∨ base.handlerOf w = 0), decide (base.wave? w.wid = some w ∧ w.stepping = false)]
theorem met_ChecksComeInTheOrderGiven : metChecks.all id := by decide +kernel

theorem met_IntegerOperationsComputeTheirValues : (decide (0 < wdCount (wd (plain 0 516 520 524 0))) && go .sclz (plain 0 516 520 0 0)
    && go .spopc (plain 0 516 520 0 0) && go .sshl (plain 0x20 516 520 0 32) && go .sshr (plain 0 516 520 524 0) && go .ssra (plain 8 516 520 524 0)
    && go .vshl (plain 0 4 8 12 0) && go .vshr (plain 0 4 8 12 0) && go .vsra (plain 0 4 8 12 0) && go .sdiv (plain 0 516 520 524 0)
    && go .srem (plain 4 516 520 524 0) && go .vclz (plain 0 4 8 0 0) && go .vpopc (plain 0 4 8 0 0)
    && decide ((2 : Nat) ^ 31 < 2 ^ 32 ∧ 32 ≤ 32 ∧ 60 + 4 ≤ 64)) = true := by decide +kernel

theorem met_FloatValuesRoundOnce : (ieee.all fun p => decide (1 < 2 ^ p.width) && !(p.decode 1).isNan) = true := by decide +kernel

def metFrames : List Bool :=
  [met .sadd (plain 0 516 520 524 0) base fun c _ => c.w.stepping = false
   , (match ready (.sadd (plain 0 516 520 524 0)) (plain 0 516 520 524 0) base with
      | some _ => (match exec (.sadd (plain 0 516 520 524 0)) base with | .next _ => true | _ => false) | none => false)]
/-- Instructions of the lists that the frame statement names, ready and executing in a state. -/
def metFrameLists : List Bool :=
  let runs (i : Fields → Instr) (f : Fields) (s : State := base) (ok : Ctx → Bool := fun _ => true) : Bool :=
    match ready (i f) f s with
    | some c => !c.w.stepping && ok c && (match exec (i f) s with | .next _ => true | _ => false)
    | none => false
  [runs .cvt (plain 0 4 8 0 0x20), runs .mlane (plain 0 577 8 524 0) base fun c => !c.contDet, runs .cvs (plain 0 4 8 0 0x86) base fun c => !c.contDet
   , runs .saddx (plain 0 516 520 524 1), runs .vaddx (plain 0 4 8 12 1)
   , runs .vaddx { plain 0 4 8 12 1 with pred := 2 } (onWave fun w => { w with p := w.p.set 2 0x7FFFFFFF }) fun c => !c.m.getLsbD 31]
theorem met_frameLists : metFrameLists.all id := by decide +kernel

theorem met_RegisterInstructionsChangeOnlyTheirDestination : metFrames.all id := by decide +kernel

def metMemory : List Bool :=
  let h : HomeLine := { asid := 1, line := 8, data := List.replicate 128 0, dirty := false, emax := 0, gen := 0
                        tr := { pa := placeCode + 0x400, w := true, x := true, g := false, sro := false, home := 0, core := 0, bank := false } }
  let s : State := { withAcc (anAcc (.store false)) with homes := [h] }
  [(s.acc? 41).any fun a => decide (a.kind = .store false ∧ a.space = .glob) && ((s.home? a.asid (a.addr / 128)).any fun h =>
      decide (h.data.length = 128 ∧ a.addr % 128 + a.size ≤ 128 ∧ h.vc = false ∧ h.tr.home ≠ 3 ∧ h.tr.pa < 2 ^ 39 ∧ s.specFam a.node = none))
   , decide (s.specFam 0 = none ∧ s.isOwn placeCode = false ∧ s.isParked placeCode = false ∧ placeCode < 2 ^ 39) && s.mem.wf
   , ((spec s).fam? 1).isSome && decide ((spec s).specFam 0 = some 1 ∧ (spec s).homes.length < Config.sliceLines)
   , ((base.spad? 0 0).any fun p => p.bytes.wf && decide (wordsMet p 8 4 = [])), base.mem.wf]
theorem met_MemoryChangesOnlyAtTheAccessedBytes : metMemory.all id := by decide +kernel

/-! ### Well-formed and ill-formed instructions -/

/-- Each check refuses a term: reserved MOD and EXT, an unused field, an immediate with a bit above it, a full/empty bit on
an operand without one, the EXT of a hint, a legal word or a hint as a reserved word, and the register limits of Kite words. -/
theorem test_ill_formed : [Instr.yield (plain 1 0 0 0 0), .nop (plain 0 0 0 0 1), .nop (plain 0 512 0 0 0), .nop (plain 0 0 512 0 0)
    , .nop (plain 0 0 0 512 0), .sadd (plain 0x20 516 516 128 0), .sadd { plain 0x20 516 516 0 0 with b := ⟨true, 1⟩ }
    , .sadd { plain 0 516 520 524 0 with fea := true }, .bini { plain 0 0 520 0 0 with feb := true }, .ffma { plain 0 4 8 12 0xA10 with pred := 1 }
    , .hprf { plain 0 0 8 0 0 with fea := true }, .hpri (plain 1 0 0 0 0), .fenceAcq (plain 9 0 0 0 0)
    , .reservedWord 0, .reservedWord (31#5 ++ 3#5 ++ 0#86), .hintNop (0#96), .hintNop (31#5 ++ 1#5 ++ 0#86)
    , .kiteTxi (kf 6 0 0 0), .kiteSrt (kf 1 0 0 8), .kiteIxf (kf 1 0 0 0), .kiteMovT (kf 0 0 3 2), .kiteBr (kf 0 0 0 65536)
    , .leaseClockTick].all (fun i => !wellFormed i) = true := by decide +kernel

theorem test_well_formed : [Instr.nop (plain 0 0 0 0 0), .sadd (plain 0x20 516 516 127 0x1FFFFFF), .ffma (plain 2 8 9 10 11)
    , .hprf (plain 1 0 8 0 0x40), .reservedWord (30#5 ++ 1#91), .hintNop (31#5 ++ 3#5 ++ 0#86)
    , .kiteTxi (kf 5 0 0 0), .kiteSrt (kf 0 0 0 8)].map wellFormed = List.replicate 8 true := by decide +kernel

/-! ### Decoding: words written out from the spec's encodings -/

/-- A word from its fields as R24 lays them out: CLASS, OP, MOD, NEG, predicate, D, A, B, FEA, FEB, EXT and HINT. -/
def word24 (cls op : BitVec 5) (mod : BitVec 6) (neg : BitVec 1) (p : BitVec 3) (d a b : BitVec 11) (fe : BitVec 2) (ext : BitVec 25)
    (hint : BitVec 16) : BitVec 96 :=
  (((((((((cls ++ op : BitVec 10) ++ mod : BitVec 16) ++ neg : BitVec 17) ++ p : BitVec 20) ++ d : BitVec 31) ++ a : BitVec 42) ++ b : BitVec 53)
    ++ fe : BitVec 55) ++ ext : BitVec 80) ++ hint

-- CTL (R96), MSK (R112), SIA (R118), VIA (R119), VFD (R140), CVT (R153), LD, ST (R177), SPD (R195), SYN (R222), class 31 (R49)
theorem test_decode_getid : decodeWord (word24 0b00000 0b01011 0b000101 0 0 516 0 0 0 0 0) = .getid (plain 5 516 0 0 0) := by decide +kernel
theorem test_decode_mand : decodeWord (word24 0b00001 0b00000 0b000000 0 0 577 584 579 0 0 0) = .mand (plain 0 577 584 579 0) := by decide +kernel
theorem test_decode_vaddx : decodeWord (word24 0b00011 0b10110 0b000001 1 3 4 8 12 0b10 0b111 0x2000) =
    .vaddx { plain 1 4 8 12 7 with neg := true, pred := 3, fea := true, hint := 0x20 } := by decide +kernel
theorem test_decode_dadd : decodeWord (word24 0b00100 0b00000 0b001001 0 0 4 8 12 0 0 0) = .dadd (plain 9 4 8 12 0) := by decide +kernel
theorem test_decode_cvt : decodeWord (word24 0b00110 0b00000 0b010000 0 0 4 8 0 0 0b0000000000000001111101111 0) = .reservedWord
    (word24 0b00110 0b00000 0b010000 0 0 4 8 0 0 0b0000000000000001111101111 0) := by decide +kernel
theorem test_decode_st : decodeWord (word24 0b01000 0b00000 0b001100 0 0 4 8 512 0 0x1FFFFFF 0) = .st (plain 0xC 4 8 512 0x1FFFFFF) := by decide +kernel
theorem test_decode_spl : decodeWord (word24 0b01001 0b00000 0b000101 0 0 4 8 0 0 64 0) = .spl (plain 5 4 8 0 64) := by decide +kernel
theorem test_decode_bini : decodeWord (word24 0b01011 0b00000 0b000001 0 0 0 520 0 0 0 0) = .bini (plain 1 0 520 0 0) := by decide +kernel
theorem test_decode_hpri : decodeWord (word24 0b11111 0b00001 0 0 0 0 0 0 0 7 0) = .hpri (plain 0 0 0 0 7) := by decide +kernel
theorem test_decode_sadd : decodeWord 0x102004088100000100000000 = .sadd (plain 0x20 516 516 0 0x10000) := by decide +kernel
theorem test_decode_ffma : decodeWord 0x28C200100240500_0000B0000 = .ffma (plain 2 8 9 10 11) := by decide +kernel
theorem test_decode_ld : decodeWord 0x380400080280000000100000 = .ld (plain 4 4 10 0 16) := by decide +kernel
theorem test_decode_atom : decodeWord 0x501800080280300000000000 = .atom (plain 0x18 4 10 6 0) := by decide +kernel
theorem test_decode_lwait : decodeWord 0x604000008500000000000000 = .lwait (plain 0 0 532 0 0) := by decide +kernel
theorem test_decode_mlds : decodeWord 0x684100008310700000000000 = .mlds (plain 1 0 524 526 0) := by decide +kernel
theorem test_decode_mst : decodeWord 0x7080041C8698000040010000 = .mst (plain 0 526 538 768 0x4001) := by decide +kernel
theorem test_decode_tsub : decodeWord 0x7880040A8100000000000000 = .tsub (plain 0 517 516 0 0) := by decide +kernel
theorem test_decode_ecpy : decodeWord 0x8003005082906000020E0000 = .ecpy (plain 3 40 522 524 526) := by decide +kernel
theorem test_decode_bkmac : decodeWord 0x88800000821A000000180000 = .bkmac (plain 0 0 520 832 0x18) := by decide +kernel
theorem test_decode_trace : decodeWord 0x904200500210600000000000 = .trace (plain 2 40 8 524 0) := by decide +kernel
theorem test_decode_tex : decodeWord 0x9801002802000000020C0000 = .tex (plain 1 20 8 0 524) := by decide +kernel
theorem test_decode_srd : decodeWord 0xA08004080000000000120000 = .srd (plain 0 516 0 0 0x12) := by decide +kernel
theorem test_decode_bytes : decode [0, 0, 0, 0, 1, 0, 0, 0x81, 8, 4, 0x20, 0x10, 0xAA] = .ok (.sadd (plain 0x20 516 516 0 0x10000), [0xAA]) := by
  decide +kernel
theorem test_decode_kite : decodeKite [0, 0, 0, 0, 0, 0x80, 0x40, 0] = .ok (.kiteNldChild (kf 0 2 2 0)) := by decide +kernel

/-- R33's worked case: the places of the bits of 0xDEAD_BEEF. -/
theorem test_immediate : (plain 0x20 516 0 0b1101111 0x0ADBEEF).imm32 = 0xDEADBEEF := by decide +kernel

/-! ### Values that the spec works out -/

/-- A field of the state that an instruction leaves. -/
def after {α : Type} (i : Instr) (s : State) (d : α) (g : State → Wave → α) : α :=
  match exec i s with
  | .next t => match t.wave? 2 with | some w => g t w | none => d
  | _ => d

theorem test_sadd_wraps : after (.sadd (plain 0 516 520 524 0)) (scal [(8, 0xFFFFFFFF), (12, 2)]) 0 (fun _ w => (w.sr 4).toNat) = 1 := by
  decide +kernel
/-- R99: `mmov exec, -1` makes a partial mask full; R46: the wave goes on 12 bytes further. -/
theorem test_mmov_exec : after (.mmov (plain 0 584 896 0 0)) (onWave fun w => { w with exec := 0xF }) (0, 0)
    (fun _ w => (w.exec.toNat, w.pc.toNat)) = (0xFFFFFFFF, 12) := by decide +kernel
/-- R131: a carry out fills the carry predicate. -/
theorem test_saddx_carry : after (.saddx (plain 0 516 520 524 1)) (scal [(8, 0xFFFFFFFF), (12, 1)]) (9, 0)
    (fun _ w => ((w.sr 4).toNat, (w.pr 1).toNat)) = (0, 0xFFFFFFFF) := by decide +kernel
/-- R124's worked case. -/
theorem test_vmad_wide : madOp (plain 0x06 20 10 0 0) 3 24 0x10000FFF0 = 0x100010038 ∧ madOp (plain 0x06 20 10 0 0) 0xFFFFFFFF 24 0x10000FFF0 = 0x10000FFD8
    ∧ madOp (plain 0x02 20 10 0 0) 0xFFFFFFFF 24 0x10000FFF0 = 0x190000FFD8 := by decide +kernel
/-- R90's worked case: the tree sum of 1, 2^-24, 2^-24 and 2^-24. -/
theorem test_fred_tree : after (.fred (plain 0 516 8 0 0)) (onWave fun w => { w with
      exec := 0xF, v := w.v.set 8 ⟨true, 0x3F800000#32 :: List.replicate 31 0x33800000#32⟩ }) (0, 0)
    (fun _ w => ((w.sr 4).toNat, w.fpflags.toNat)) = (0x3F800001, fNX) := by decide +kernel
/-- The worked case of `mxsc` and `pkf8`: the scale of 3000. -/
theorem test_mxsc : after (.mxsc (plain 0 520 4 0 0)) (onWave fun w => { w with
      exec := 0xF, v := w.v.set 4 ⟨true, 0x453B8000#32 :: 0xC0A00000#32 :: 0x3C23D70A#32 :: List.replicate 29 0#32⟩ }) 0
    (fun _ w => (w.sr 8).toNat) = 130 := by decide +kernel
theorem test_pkf8 : [0x453B8000, 0xC0A00000, 0x3C23D70A, 0].map (fun b => (pkf8Elem 0 mRNE 130 (fp32.decode b)).1) = [0x7C, 0xB2, 1, 0] := by decide +kernel
/-- R79's worked cases. -/
theorem test_dyn8 : [0x3F800000, 0xBF400000, 0x40400000, 0x3DCCCCCD, 0x3F820000, 0x442F0000, 0x399D4952, 0xB727C5AC].map
    (fun b => encodeDyn8 (fp32.decode b)) = [(0x60, 0), (0xD0, 0), (0x34, 0), (0x16, fNX), (0x60, fNX), (0x03, fSAT ||| fNX), (0x01, fUF ||| fNX)
      , (0x00, fUF ||| fNX)] := by decide +kernel
/-- R75's worked case. -/
theorem test_trits : encodeT3 0x010000FF01 = 0xC8 ∧ encodeT3 0 = 0x79 ∧ decodeT3 0xC8 = some [1, -1, 0, 0, 1] ∧ decodeT3 0xF5 = none := by decide +kernel
/-- R89's worked case: stochastic rounding to BF16, with 0.5 and then 1 + 2^-9 in lane 1. -/
theorem test_stochastic : srDiscard .bf16 (fp32.decode 0x3F804000) = 0x40000000
    ∧ srAway (0x40000000 :: 0 :: List.replicate 30 0) 0 0 = true
    ∧ srAway (0x40000000 :: 0x40000000 :: List.replicate 30 0) 0 0 = false
    ∧ (srResult .bf16 false (fp32.decode 0x3F804000) true).1 = 0x3F81 := by decide +kernel
/-- R188's worked case: element 37 of the 16 by 4 block. -/
theorem test_stream : streamAddr { sid := 0, wid := 2, qn := 1, write := false, sp := false, ty := 4, base := 0x1000, dims := [(4, 4), (16, 64)], total := 64 } 37
    = 0x1000 + 4 + 576 := by decide +kernel
/-- R280's worked configurations. -/
theorem test_config : cfgOk 0x1CE7E = true ∧ cfgOk 0x1CE7A = true ∧ (arrCfg 0x1CE7E).s = 7 ∧ (arrCfg 0x1CE7A).s = 3 ∧ (arrCfg 0x1CE7E).tri = true := by
  decide +kernel
/-- R261's worked case: the slices of ±1/3 at S = 3. -/
theorem test_slices : [1398101, -1398101].map (fun t => (List.range 3).map fun i => sliceOfT 3 i t) = [[85, 42, 85], [-86, 85, 43]] := by decide +kernel
/-- R343's worked case, with AUX 54 and 50. -/
theorem test_lz : (let z := lzDecode [0x66, 0x61, 0x62, 0x63, 3, 0, 0x3F, 0x7A, 1, 0, 6, 0x20, 0x58, 0, 0] 15 64
    (z.1.length, z.2, z.1.take 4, z.1.getLast?)) = (54, .status 0, [0x61, 0x62, 0x63, 0x61], some 0x58) := by decide +kernel
theorem test_lz_overflow : (lzDecode [0x66, 0x61, 0x62, 0x63, 3, 0, 0x3F, 0x7A, 1, 0, 6, 0x20, 0x58, 0, 0] 15 50).1.length = 50 := by decide +kernel
/-- R334's worked ticket. -/
theorem test_ticket : ticketWord { eid := 0, wid := none, node := 0, asid := 1, queue := some 3, pc := 0, op := .copy 0 0 0 false, written := 54, status := some 0 }
    = 0x36300 := by decide +kernel
/-- R420's worked case: the tile that `ccdc.enc` compresses, and the fill of `ccfc`. -/
theorem test_tile : convertTile 1 0 0 ((List.range 64).flatMap fun p => [BitVec.ofNat 8 (16 + p), 32, 200, 255])
      = some (0x88, [0x10, 0x20, 0xC8, 0xFF] ++ List.replicate 63 1)
    ∧ convertTile 2 0xFF000000 0x88 [] = some (0x40, [0, 0, 0, 0xFF]) := by decide +kernel
/-- The troupe word of R226's worked case, step by step: joined twice, and after an arrival. -/
theorem test_troupe_word : ({ init := true } : TWord).val = 0x80000000 ∧ ({ init := true, members := 2 } : TWord).val = 0x80000002
    ∧ ({ init := true, members := 2, arrived := 1 } : TWord).val = 0x80002002 ∧ ({ init := true, members := 2, phase := 1 } : TWord).val = 0x180000002 := by
  decide +kernel
/-- R433's worked case: `trap 7` with a handler saves the mask and the next PC and makes every lane active. -/
theorem test_trap : after (.trap (plain 0 0 0 0 7)) (onWave (fun w => { w with exec := 0xFF }) handled) (0, 0, 0, 0, 0, 0)
    (fun _ w => (w.pc.toNat, w.epc.toNat, w.eexec.toNat, w.exec.toNat, w.trapRec.code, w.trapRec.info)) = (0x1000, 12, 0xFF, 0xFFFFFFFF, 12, 7) := by decide +kernel
/-- R108's worked case: a set latch is used and the wave goes on. -/
theorem test_park_latch : after (.park (plain 2 0 0 0 0)) (onWave fun w => { w with latch := true }) (true, .halted)
    (fun _ w => (w.latch, w.st)) = (false, .ready) := by decide +kernel

end Sys2Proof.Tests
end

section
/-! SUPPORT. Lanes and lines, as the claims on loads and stores need them: the bits of a lane mask, what a failing lane is, when a core's
own copy spares a load its translation, and where a prefetch leaves its line. -/

namespace Sys2Proof.Machine

/-! ### Lane masks -/

/-- A sum of the powers of two that p admits has their bits. -/
theorem foldl_two_pow_testBit (p : Nat → Bool) (n : Nat) :
    (List.range n).foldl (fun a l => if p l then a + 2 ^ l else a) 0 < 2 ^ n
      ∧ ∀ j, ((List.range n).foldl (fun a l => if p l then a + 2 ^ l else a) 0).testBit j = (decide (j < n) && p j) := by
  induction n with
  | zero => simp
  | succ n ih =>
    obtain ⟨hlt, hbit⟩ := ih
    rw [List.range_succ, List.foldl_append, List.foldl_cons, List.foldl_nil]
    generalize (List.range n).foldl (fun a l => if p l then a + 2 ^ l else a) 0 = x at hlt hbit ⊢
    have hpow : 2 ^ (n + 1) = 2 ^ n + 2 ^ n := by rw [Nat.pow_succ]; omega
    cases hp : p n with
    | false =>
      refine ⟨by simpa using (by omega : x < 2 ^ (n + 1)), fun j => ?_⟩
      obtain rfl | hj := eq_or_ne j n
      · simp [hbit, hp]
      · simp [hbit, show (j < n + 1) = (j < n) from propext (by omega)]
    | true =>
      refine ⟨by simpa using (by omega : x + 2 ^ n < 2 ^ (n + 1)), fun j => ?_⟩
      rw [if_pos rfl, Nat.add_comm]
      obtain hj | rfl | hj := lt_trichotomy j n
      · simp [Nat.testBit_two_pow_add_gt hj, hbit, hj, Nat.lt_succ_of_lt hj]
      · simp [Nat.testBit_two_pow_add_eq, hbit, hp]
      · rw [Nat.testBit_lt_two_pow ((by omega : 2 ^ n + x < 2 ^ (n + 1)).trans_le (Nat.pow_le_pow_right two_pos hj))]
        simp [show ¬ j < n + 1 by omega]

/-- A mask without the lanes of the empty mask. -/
theorem and_not_zero (m : Word) : m &&& ~~~0 = m := BitVec.and_allOnes

/-- A mask has the bits of the lanes that satisfy its predicate. -/
@[simp] theorem maskOf_getLsbD (p : Nat → Bool) (l : Nat) : (maskOf p).getLsbD l = (decide (l < 32) && p l) := by
  rw [maskOf, laneList, BitVec.getLsbD_ofNat, (foldl_two_pow_testBit p 32).2]
  simp

/-- The lanes of a mask that fail are those with a cause. -/
theorem lanesFailing_getLsbD {m : Word} {addr : Nat → Nat} {why : Nat → Option Nat} {l : Nat} (hl : l < 32) :
    (lanesFailing m addr why).1.getLsbD l = true ↔ m.getLsbD l = true ∧ why l ≠ none := by
  simp only [lanesFailing, lane, maskOf_getLsbD, hl, decide_true, Bool.true_and, Bool.and_eq_true, Option.isSome_iff_ne_none]

/-! ### The core's own copy (R14, R170) -/

/-- A copy whose own bits admit a load serves it. -/
theorem State.l1Own_of_l1Serves_eq_none {s : State} {core asid va : Nat} {fam : Option Nat}
    (h : s.l1Serves core asid va fam = none) : s.l1Own core asid va fam = false := by
  unfold State.l1Serves at h
  unfold State.l1Own
  split
  case h_2 => rfl
  case h_1 x hx =>
    rw [hx] at h
    by_contra hown
    simp only [Bool.not_eq_false, Bool.and_eq_true] at hown
    obtain ⟨⟨⟨hlease, hsuits⟩, hgen⟩, hg⟩ := hown
    simp [hlease, hsuits, State.l1Allowed, hgen, hg] at h

/-- A load that no own copy serves is checked as any read (R171). -/
theorem loadCause_of_not_l1Own {s : State} {w : Wave} {hits : Bool} {va size : Nat}
    (h : s.l1Own w.core w.asid va (s.specFam w.node) = false) :
    loadCause s w hits va size = s.laneCheck w.asid va size .read := by
  simp [loadCause, State.loadCheck, h]

/-- A load that an own copy serves passes with a legal address. -/
theorem loadCause_of_l1Own {s : State} {w : Wave} {va size : Nat} (h : s.l1Own w.core w.asid va (s.specFam w.node) = true)
    (hm : mayHit s w va size = true) (hva : va < Config.vaEnd) (ha : va % size = 0) : loadCause s w true va size = none := by
  simp [loadCause, State.loadCheck, h, hm, hva, ha]

/-! ### Prefetched lines (R182) -/

/-- A line made resident is at its home. -/
theorem State.ensureLine_home?_of_none {s : State} {asid va : Nat} {t : Trans} {nt : Bool} (h : s.home? asid (va / 128) = none) :
    ((s.ensureLine asid va t nt).home? asid (va / 128)).isSome = true := by
  simp only [State.ensureLine, h]
  simp [State.home?]

/-- A cluster atomic unit that returns a line moves no line to or from a home. -/
@[simp] theorem State.leaveCluster_home? (s : State) (die : Option Nat) (asid va a l : Nat) :
    (s.leaveCluster die asid va).home? a l = s.home? a l := rfl

/-- A line of HBM that is nowhere on chip comes to its home when it is fetched ahead. -/
theorem State.fillHome_home? {s : State} {die asid va : Nat} {t : Trans} (hu : t.uncached = false) (hpa : t.pa < Config.hbmEnd)
    (hp : s.isParked t.pa = false) (hl : s.lineLocked asid va = false) (hh : s.home? asid (va / 128) = none) :
    ((s.fillHome die asid va t).home? asid (va / 128)).isSome = true := by
  have hdev : State.isDev t.pa = false := by
    have : t.pa < Config.devBase := hpa.trans (by decide)
    simp [State.isDev, this]
  simpa [State.fillHome, hu, hdev, hp, hl] using State.ensureLine_home?_of_none (by simpa using hh)

/-- A prefetch leaves the state as it is where the core's L1 serves the line, and a prefetch to the victim cache also where the line is
at its home or in a victim cache. -/
theorem prefetch_eq_self {c : Ctx} {lvl va : Nat} {s : State}
    (h : (s.l1Serves c.w.core c.w.asid va (s.specFam c.w.node)).isSome = true
      ∨ lvl = 2 ∧ (s.home? c.w.asid (va / 128)).isSome = true) : prefetch c lvl va s = s := by
  cases hown : s.l1Own c.w.core c.w.asid va (s.specFam c.w.node) with
  | true => simp [prefetch, hown]
  | false =>
    cases ht : s.lookup c.w.asid va .read with
    | none => simp [prefetch, hown, ht]
    | some t =>
      obtain hserves | ⟨rfl, hhome⟩ := h
      · simp [prefetch, hown, ht, hserves]
      · simp [prefetch, hown, ht, hhome]

/-- A prefetch to the home level, of a line that the L1 does not serve, is a fill of the home. -/
theorem prefetch_home_of_l1Serves_eq_none {c : Ctx} {va : Nat} {s : State} {t : Trans}
    (h : s.l1Serves c.w.core c.w.asid va (s.specFam c.w.node) = none) (ht : s.lookup c.w.asid va .read = some t) :
    prefetch c 1 va s = s.fillHome (dieOf c.w.core) c.w.asid va t := by
  simp [prefetch, State.l1Own_of_l1Serves_eq_none h, ht, h]

end Sys2Proof.Machine

namespace Sys2Proof.Claims

open Sys2Proof.Machine

/-! ### What a vector access answers (R172) -/

/-- A vector load whose lanes are clear issues them all. -/
theorem vectorLoad_of_loadClear {c : Ctx} {s : State} {kind : AccKind} {hits : Bool} {scope r : Nat} (hd : c.d = some (.v r))
    (h : LoadClear c s (tySize (tyF c.f)) hits (memAddr c (tyF c.f))) :
    vectorLoad c s (tyF c.f) kind hits scope (memAddr c (tyF c.f)) = .done (loaded c s kind hits scope r) := by
  obtain ⟨hmatch, hclear⟩ := h
  simp only [vectorLoad, hmatch, hd, hclear, and_not_zero, loaded, bne_self_eq_false, Bool.false_eq_true, if_false]

/-- An instruction that is a vector load issues its lanes where they are clear. -/
theorem loads_of {i : Fields → Instr} {kind : AccKind} {hits : Bool} {scope : Fields → Nat}
    (h : ∀ f s, exec (i f) s = issue (i f) f s fun c s => vectorLoad c s (tyF f) kind hits (scope f) (memAddr c (tyF f))) :
    Loads i kind hits fun c => scope c.f :=
  fun _ => completes_of h fun _ _ ⟨hd, hclear⟩ => vectorLoad_of_loadClear hd hclear

/-- A vector load with failing lanes issues the others and holds the failing ones for their replay. -/
theorem vectorLoad_of_failing {c : Ctx} {s : State} {ty : Nat} {kind : AccKind} {hits : Bool} {scope r : Nat} {addr : Nat → Nat}
    {b : Word × Nat × Nat} (hd : c.d = some (.v r)) (hmatch : dataMatch s c true false (tySize ty) addr = none)
    (hfail : (lanesFailing c.m addr fun l => loadCause s c.w hits (addr l) (tySize ty)) = b) (hb : b.1 ≠ 0) :
    let g := groupOf s c.w
    let t := issueLoads g.2 c g.1 (c.m &&& ~~~b.1) ty kind hits scope addr
    vectorLoad c s ty kind hits scope addr = .replay
      ((openLanding t.1 c.w g.1 (.vec r (tyWords ty)) true true t.2).noteLanes c.w.asid (tySize ty) b.1 addr)
      b.2.1 b.2.2 b.1 b.1 (some g.1) := by
  have hbad : (b.1 != 0) = true := by simpa using hb
  simp only [vectorLoad, hmatch, hd, hfail, hbad, if_true]

/-- A vector store with failing lanes issues the others, counts them as outstanding and leaves the failing ones to their replay. -/
theorem vectorStore_of_failing {c : Ctx} {s : State} {ty : Nat} {release : Bool} {scope : Nat} {addr : Nat → Nat}
    {b : Word × Nat × Nat} (hmatch : dataMatch s c false true (tySize ty) addr = none)
    (hfail : laneFaults s c.w.asid c.m (tySize ty) .write addr = b) (hb : b.1 ≠ 0)
    (hroom : outstFull c.w (maskCount (c.m &&& ~~~b.1)) = false) :
    let g := groupOf s c.w
    vectorStore c s ty release scope addr = .replay
      ((addOutst (issueStores g.2 c g.1 (c.m &&& ~~~b.1) ty release scope addr) c.w.wid (maskCount (c.m &&& ~~~b.1))).noteLanes
        c.w.asid (tySize ty) b.1 addr)
      b.2.1 b.2.2 b.1 b.1 (some g.1) := by
  have hbad : (b.1 != 0) = true := by simpa using hb
  simp only [vectorStore, hmatch, hfail, hroom, hbad, if_true, Bool.false_eq_true, if_false]

/-! ### The obligations -/

/-- Settles O17: the lanes that pass are issued (`vectorLoad_of_loadClear`), `lds` ends by whether its one lane's value came at once,
and a prefetch goes by whether the L1 serves the line and whether it has a home on chip. -/
theorem loadsIssueTheirLanes : Obligations.LoadsIssueTheirLanes := by
  unfold Obligations.LoadsIssueTheirLanes
  refine ⟨?ld, ?ldnt, ?lda, ?lds, ?prf, ?served, ?toHome, ?toVictim⟩
  case ld => exact loads_of (scope := fun _ => 0) fun _ _ => rfl
  case ldnt => exact loads_of (scope := fun _ => 0) fun _ _ => rfl
  case lda => exact loads_of (scope := fun f => f.m 5 3) fun _ _ => rfl
  case lds =>
    intro f s c n h hd hmatch hcause
    rw [show exec (.lds f) s = execLds f s from rfl, execLds, issue_ready h]
    simp only [hmatch, hcause, hd]
    generalize issueLoads (start s).fresh.2 c (start s).fresh.1 1 (tyF f) (.load false true false) true 0 (fun _ => scalAddr c) = t
    obtain ⟨u, vs⟩ := t
    match vs with
    | [] => rfl
    | [_] => rfl
    | _ :: _ :: _ => rfl
  case prf =>
    intro f s c h hmatch
    obtain rfl := ready_f h
    rw [show exec (.prf c.f) s = execPrf c.f s from rfl, execPrf, issue_ready h]
    simp only [hmatch, finish_done]
    rfl
  case served => exact fun c lvl va s t _ h => prefetch_eq_self (.inl h)
  case toHome =>
    intro c va s t ht hserves hh hhome hnever hpa hp hl
    rw [prefetch_home_of_l1Serves_eq_none hserves ht]
    exact State.fillHome_home? (by simp [Trans.uncached, hhome, hnever]) hpa hp hl hh
  case toVictim => exact fun c va s h => prefetch_eq_self (.inr ⟨rfl, h⟩)

/-- Settles O20: `vectorLoad_of_failing` and `vectorStore_of_failing` with the lanes that `lanesFailing_getLsbD` tells, and the two cases
of the core's own copy. -/
theorem failingLanesAreReplayed : Obligations.FailingLanesAreReplayed := by
  unfold Obligations.FailingLanesAreReplayed
  refine ⟨?ld, ?st, fun s asid m size k addr l hl => lanesFailing_getLsbD hl, fun m addr why l hl => lanesFailing_getLsbD hl
    , fun s w va size h => loadCause_of_not_l1Own h, fun s w va size h hm hva ha => loadCause_of_l1Own h hm hva ha⟩
  case ld =>
    intro f s c r h hd hmatch b hb
    rw [show exec (.ld f) s = execLd f s from rfl, execLd, issue_ready h, vectorLoad_of_failing hd hmatch rfl hb]
  case st =>
    intro f s c h hmatch b hb hroom
    rw [show exec (.st f) s = execSt f s from rfl, execSt, issue_ready h, vectorStore_of_failing hmatch rfl hb hroom]

end Sys2Proof.Claims
end

section
/-! SUPPORT. Words and fields: the bits of a word and its fields determine each other, the opcode map of R44 and the constructors
correspond, and bytes hold the number they are written from. -/

namespace Sys2Proof

/-! ### Bytes (R5) -/

@[simp] theorem leBytes_length (n v : Nat) : (leBytes n v).length = n := by
  induction n generalizing v with
  | zero => rfl
  | succ n ih => simp [leBytes, ih]

/-- Reading back n bytes of a number gives its low 8n bits. -/
@[simp] theorem leNat_leBytes (n v : Nat) : leNat (leBytes n v) = v % 256 ^ n := by
  induction n generalizing v with
  | zero => simp [leBytes, leNat, Nat.mod_one]
  | succ n ih => rw [leBytes, leNat, ih, Nat.pow_succ', Nat.mod_mul, BitVec.toNat_ofNat]

/-- The bytes of a word hold the word. -/
theorem ofNat_leNat_leBytes_toNat {k : Nat} (n : Nat) (w : BitVec k) (h : 2 ^ k = 256 ^ n) :
    BitVec.ofNat k (leNat (leBytes n w.toNat)) = w := by
  rw [leNat_leBytes, ← h, Nat.mod_eq_of_lt w.isLt, BitVec.ofNat_toNat, BitVec.setWidth_eq]

end Sys2Proof

namespace Sys2Proof.Machine

/-! ### The fields of a word (R24) -/

@[simp] theorem opdOf_opdBits (o : Opd) : opdOf (opdBits o) = o := by
  obtain ⟨i, n⟩ := o
  have hi : (BitVec.ofBool i ++ n).getLsbD 10 = i := by rw [BitVec.getLsbD_append]; simp
  have hn : (BitVec.ofBool i ++ n).extractLsb' 0 10 = n := BitVec.extractLsb'_append_eq_right
  simp only [opdOf, opdBits, hi, hn]

@[simp] theorem opdBits_opdOf (b : BitVec 11) : opdBits (opdOf b) = b := by
  have hi : BitVec.ofBool (b.getLsbD 10) = b.extractLsb' 10 1 := by
    ext k hk
    obtain rfl : k = 0 := by omega
    simp
  rw [opdBits, opdOf, hi]
  exact BitVec.extractLsb'_append_extractLsb' (w := 1) (len := 10)

/-- The fields of the word that fields make, its class and operation, and its reserved byte. -/
theorem wordOf_bits {cls op : Nat} (f : Fields) (hc : cls < 32) (ho : op < 32) :
    classOf (wordOf cls op f) = cls ∧ opNumOf (wordOf cls op f) = op ∧ fieldsOf (wordOf cls op f) = f
      ∧ (wordOf cls op f).extractLsb' 0 8 = 0#8 := by
  refine ⟨?_, ?_, ?_, ?_⟩
  · simp (disch := decide) only [classOf, wordOf, BitVec.extractLsb'_append_eq_of_le]
    simp [Nat.mod_eq_of_lt hc]
  · simp (disch := decide) only [opNumOf, wordOf, BitVec.extractLsb'_append_eq_of_le, BitVec.extractLsb'_append_eq_of_add_le]
    simp [Nat.mod_eq_of_lt ho]
  · have bit (w : BitVec 96) (i : Nat) : w.getLsbD i = (w.extractLsb' i 1).getLsbD 0 := by simp
    simp (disch := decide) only [fieldsOf, bit, wordOf, BitVec.extractLsb'_append_eq_of_le, BitVec.extractLsb'_append_eq_of_add_le]
    simp
  · exact BitVec.extractLsb'_append_eq_right

/-- A word without reserved bits in HINT is the word of its class, operation and fields. -/
theorem wordOf_fieldsOf {w : BitVec 96} (h : w.extractLsb' 0 8 = 0#8) : wordOf (classOf w) (opNumOf w) (fieldsOf w) = w := by
  have bit (i : Nat) : BitVec.ofBool (w.getLsbD i) = w.extractLsb' i 1 := by
    ext k hk
    obtain rfl : k = 0 := by omega
    simp
  simp only [wordOf, classOf, opNumOf, fieldsOf, opdBits_opdOf, bit, ← h, BitVec.ofNat_toNat, BitVec.setWidth_eq]
  simp only [BitVec.extractLsb'_append_extractLsb'_eq_extractLsb']
  exact BitVec.extractLsb'_eq_self

/-! ### The opcode map (R44) -/

/-- The constructor of a major opcode has that class and operation, and the fields. -/
theorem opOf_of_ctorOf {cls op : Nat} {f : Fields} {i : Instr} (h : ctorOf cls op f = some i) : opOf i = some (cls, op, f) := by
  simp only [ctorOf, ctor0, ctor1, ctor2, ctor3, ctor4, ctor5, ctor6, ctor7, ctor8, ctor9, ctor10, ctor11, ctor12, ctor13, ctor14, ctor15, ctor16,
    ctor17, ctor18, ctor19, ctor20, ctor31] at h
  split at h
  all_goals try split at h
  all_goals simp only [Option.some.injEq, reduceCtorEq] at h
  all_goals try split at h
  all_goals (subst h; rfl)

/-- A well-formed instruction is what its major opcode and its fields name: where several forms share an operation, MOD tells them
apart. -/
theorem ctorOf_of_opOf {i : Instr} {cls op : Nat} {f : Fields} {sh : Shape} (ho : opOf i = some (cls, op, f)) (hs : shape i = some sh)
    (hm : sh.modOk = true) : ctorOf cls op f = some i := by
  cases i
  all_goals cases ho
  all_goals try rfl
  all_goals
    cases hs
    simp only [renShape, Fields.m, Bool.and_eq_true, beq_iff_eq] at hm
  case bkmodeAcq => simp [ctorOf, ctor17, Fields.m, show f.mod.toNat % 4 = 0 by omega]
  case bkmodeAll => simp [ctorOf, ctor17, Fields.m, show f.mod.toNat % 4 = 1 by omega]
  case bkmodeOne => simp [ctorOf, ctor17, Fields.m, show f.mod.toNat % 4 = 2 by omega]
  case bkmodeRel => simp [ctorOf, ctor17, Fields.m, show f.mod.toNat % 4 = 3 by omega]
  all_goals
    simp [ctorOf, ctor12, ctor15, ctor17, ctor18, ctor19, Fields.m]
    omega

/-- The major opcode of an instruction lies in the ten bits that a word has for it. -/
theorem opOf_lt {i : Instr} {cls op : Nat} {f : Fields} (h : opOf i = some (cls, op, f)) : cls < 32 ∧ op < 32 := by
  cases i <;> cases h <;> decide

/-- An instruction with a major opcode is well formed when its word passes steps 3 and 4 of R45, or its hint form. -/
theorem wellFormed_of_opOf {i : Instr} {cls op : Nat} {f : Fields} (h : opOf i = some (cls, op, f)) :
    wellFormed i = true ↔ ∃ sh, shape i = some sh ∧ (if cls == 31 then hintOk sh f else shapeOk sh f) = true := by
  unfold wellFormed
  split
  · cases h
  · cases h
  · simp only [h]
    cases shape i <;> simp

/-- The word of an instruction with a major opcode. -/
theorem encodeWord_of_opOf {i : Instr} {cls op : Nat} {f : Fields} (h : opOf i = some (cls, op, f)) :
    encodeWord i = some (wordOf cls op f) := by
  unfold encodeWord
  split
  · cases h
  · cases h
  · simp [h]

/-- A wave instruction has a major opcode, or it is a word that names none. -/
theorem isWaveInstr_cases {i : Instr} (h : isWaveInstr i = true) :
    (∃ w, i = .reservedWord w) ∨ (∃ w, i = .hintNop w) ∨ ∃ cls op f, opOf i = some (cls, op, f) := by
  unfold isWaveInstr at h
  split at h
  · exact .inl ⟨_, rfl⟩
  · exact .inr (.inl ⟨_, rfl⟩)
  · obtain ⟨⟨cls, op, f⟩, ho⟩ := Option.isSome_iff_exists.1 h
    exact .inr (.inr ⟨cls, op, f, ho⟩)

/-- MOD is assigned where a word passes steps 3 and 4 of R45, or its hint form. -/
theorem modOk_of_ok {sh : Shape} {f : Fields} {b : Bool} (h : (if b then hintOk sh f else shapeOk sh f) = true) : sh.modOk = true := by
  cases b
  · simp only [Bool.false_eq_true, if_false, shapeOk, Bool.and_eq_true] at h
    tauto
  · simp only [if_true, hintOk, shapeOk, Bool.and_eq_true] at h
    tauto

/-- The word that a well-formed instruction's opcode and fields make is legal, and decodes to it. -/
theorem decodeWord_wordOf {i : Instr} {cls op : Nat} {f : Fields} (ho : opOf i = some (cls, op, f)) (hw : wellFormed i = true) :
    decodeWord (wordOf cls op f) = i := by
  obtain ⟨sh, hs, hok⟩ := (wellFormed_of_opOf ho).1 hw
  obtain ⟨hc, hop⟩ := opOf_lt ho
  obtain ⟨eclass, eop, ef, elow⟩ := wordOf_bits f hc hop
  have hctor := ctorOf_of_opOf ho hs (modOk_of_ok hok)
  have hlegal : legalWord (wordOf cls op f) = true := by simp only [legalWord, eclass, eop, ef, elow, hctor, hs, hok]; decide
  simp only [decodeWord, hlegal, eclass, eop, ef, hctor, if_true]

/-- A legal word is that of the instruction that its opcode and fields name, which is well formed. -/
theorem legalWord_spec {w : BitVec 96} (h : legalWord w = true) :
    ∃ i, decodeWord w = i ∧ encodeWord i = some w ∧ wellFormed i = true := by
  have h' := h
  unfold legalWord at h'
  dsimp only at h'
  split at h'
  · rename_i i hi
    split at h'
    · rename_i sh hs
      obtain ⟨hlow, hok⟩ := Bool.and_eq_true_iff.1 h'
      have ho := opOf_of_ctorOf hi
      refine ⟨i, by simp only [decodeWord, h, hi, if_true], ?_, (wellFormed_of_opOf ho).2 ⟨sh, hs, hok⟩⟩
      rw [encodeWord_of_opOf ho, wordOf_fieldsOf (by simpa using hlow)]
    · cases h'
  · cases h'

/-- A word that decodes to no operation is reserved, or a hint that does nothing. -/
theorem decodeWord_of_not_legal {w : BitVec 96} (h : legalWord w = false) :
    decodeWord w = if classOf w == 31 then .hintNop w else .reservedWord w := by
  simp [decodeWord, h]

/-- Every word is the word of the instruction that it decodes to. -/
theorem encodeWord_decodeWord (w : BitVec 96) : encodeWord (decodeWord w) = some w ∧ wellFormed (decodeWord w) = true := by
  cases h : legalWord w with
  | true =>
    obtain ⟨i, hi, he, hw⟩ := legalWord_spec h
    exact hi ▸ ⟨he, hw⟩
  | false =>
    rw [decodeWord_of_not_legal h]
    split
    · rename_i hc
      exact ⟨rfl, by simp only [wellFormed, h, hc]; rfl⟩
    · rename_i hc
      exact ⟨rfl, by simpa [wellFormed, h] using hc⟩

/-- A well-formed wave instruction has a word, which decodes to it. -/
theorem exists_encodeWord {i : Instr} (hi : isWaveInstr i = true) (hw : wellFormed i = true) :
    ∃ w, encodeWord i = some w ∧ decodeWord w = i := by
  obtain ⟨w, rfl⟩ | ⟨w, rfl⟩ | ⟨cls, op, f, ho⟩ := isWaveInstr_cases hi
  · obtain ⟨hl, hc⟩ : legalWord w = false ∧ classOf w ≠ 31 := by simpa [wellFormed] using hw
    exact ⟨w, rfl, by simp [decodeWord_of_not_legal hl, hc]⟩
  · obtain ⟨hl, hc⟩ : legalWord w = false ∧ classOf w = 31 := by simpa [wellFormed] using hw
    exact ⟨w, rfl, by simp [decodeWord_of_not_legal hl, hc]⟩
  · exact ⟨_, encodeWord_of_opOf ho, decodeWord_wordOf ho hw⟩

/-! ### Kite words (R388, R389) -/

/-- The constructor that an operation and SUB name has that operation and the fields. -/
theorem kiteOp_of_kiteCtor {op : Nat} {k : KFields} {i : Instr} (h : kiteCtor op k = some i) : kiteOp i = some (op, k) := by
  unfold kiteCtor at h
  split at h
  all_goals try split at h
  all_goals cases h
  all_goals rfl

/-- A legal microinstruction is what its operation and SUB name. -/
theorem kiteCtor_of_kiteOp {i : Instr} {op : Nat} {k : KFields} (h : kiteOp i = some (op, k)) (hok : kiteFieldsOk i = true) :
    kiteCtor op k = some i := by
  cases i
  all_goals cases h
  all_goals try rfl
  all_goals simp only [kiteFieldsOk, Bool.and_eq_true, beq_iff_eq, decide_eq_true_eq] at hok
  all_goals simp [kiteCtor, hok]

/-- A microinstruction is well formed when its fields are legal. -/
theorem wellFormed_of_kiteOp {i : Instr} {op : Nat} {k : KFields} (h : kiteOp i = some (op, k)) : wellFormed i = kiteFieldsOk i := by
  cases i
  all_goals cases h
  all_goals rfl

theorem kiteOp_lt {i : Instr} {op : Nat} {k : KFields} (h : kiteOp i = some (op, k)) : op < 32 := by
  cases i
  all_goals cases h
  all_goals decide

/-- The 64-bit word of an operation and its fields (R388). -/
def kiteWordOf (op : Nat) (k : KFields) : BitVec 64 :=
  BitVec.ofNat 5 op ++ k.kd ++ k.ka ++ k.kb ++ k.sub ++ 0#14 ++ k.imm

/-- The fields of a Kite word (R388). -/
def kiteFieldsOf (w : BitVec 64) : KFields :=
  { kd := w.extractLsb' 56 3, ka := w.extractLsb' 53 3, kb := w.extractLsb' 50 3, sub := w.extractLsb' 46 4, imm := w.extractLsb' 0 32 }

/-- What the decoder makes of a Kite word: its reserved bits, its operation and its fields decide. -/
theorem decodeKiteWord_eq_ok {w : BitVec 64} {i : Instr} :
    decodeKiteWord w = .ok i ↔
      w.extractLsb' 32 14 = 0#14 ∧ kiteCtor (w.extractLsb' 59 5).toNat (kiteFieldsOf w) = some i ∧ kiteFieldsOk i = true := by
  rw [show decodeKiteWord w = if w.extractLsb' 32 14 != 0#14 then .error .kiteIllegal
      else match kiteCtor (w.extractLsb' 59 5).toNat (kiteFieldsOf w) with
        | some i => if kiteFieldsOk i then .ok i else .error .kiteIllegal
        | none => .error .kiteIllegal from rfl]
  split
  · rename_i hres
    simp [bne_iff_ne.1 hres]
  · rename_i hres
    have hzero : w.extractLsb' 32 14 = 0#14 := by simpa using hres
    cases kiteCtor (w.extractLsb' 59 5).toNat (kiteFieldsOf w) with
    | none => simp
    | some j =>
      dsimp only
      split
      · rename_i hj
        exact ⟨fun h => Except.ok.inj h ▸ ⟨hzero, rfl, hj⟩, fun ⟨_, h, _⟩ => congrArg _ (Option.some.inj h)⟩
      · rename_i hj
        exact ⟨nofun, fun ⟨_, h, hi⟩ => absurd (Option.some.inj h ▸ hi) hj⟩

/-- The operation, the fields and the reserved bits of the word that they make. -/
theorem kiteWordOf_bits {op : Nat} (k : KFields) (h : op < 32) :
    ((kiteWordOf op k).extractLsb' 59 5).toNat = op ∧ kiteFieldsOf (kiteWordOf op k) = k ∧ (kiteWordOf op k).extractLsb' 32 14 = 0#14 := by
  refine ⟨?_, ?_, ?_⟩
  · simp (disch := decide) only [kiteWordOf, BitVec.extractLsb'_append_eq_of_le]
    simp [Nat.mod_eq_of_lt h]
  · simp (disch := decide) only [kiteFieldsOf, kiteWordOf, BitVec.extractLsb'_append_eq_of_le, BitVec.extractLsb'_append_eq_of_add_le]
    simp
  · simp (disch := decide) only [kiteWordOf, BitVec.extractLsb'_append_eq_of_le, BitVec.extractLsb'_append_eq_of_add_le]
    simp

/-- A Kite word without reserved bits is the word of its operation and fields. -/
theorem kiteWordOf_kiteFieldsOf {w : BitVec 64} (h : w.extractLsb' 32 14 = 0#14) :
    kiteWordOf (w.extractLsb' 59 5).toNat (kiteFieldsOf w) = w := by
  simp only [kiteWordOf, kiteFieldsOf, ← h, BitVec.ofNat_toNat, BitVec.setWidth_eq]
  simp only [BitVec.extractLsb'_append_extractLsb'_eq_extractLsb']
  exact BitVec.extractLsb'_eq_self

/-- A well-formed microinstruction has a word, which decodes to it. -/
theorem exists_encodeKiteWord {i : Instr} (hi : isKiteInstr i = true) (hw : wellFormed i = true) :
    ∃ w, encodeKiteWord i = some w ∧ decodeKiteWord w = .ok i := by
  obtain ⟨⟨op, k⟩, ho⟩ := Option.isSome_iff_exists.1 hi
  have hok := (wellFormed_of_kiteOp ho).symm.trans hw
  obtain ⟨eop, ek, eres⟩ := kiteWordOf_bits k (kiteOp_lt ho)
  exact ⟨kiteWordOf op k, by rw [encodeKiteWord, ho]; rfl, decodeKiteWord_eq_ok.2 ⟨eres, by rw [eop, ek, kiteCtor_of_kiteOp ho hok], hok⟩⟩

/-- A Kite word that decodes is the word of a well-formed microinstruction. -/
theorem encodeKiteWord_of_decodeKiteWord {w : BitVec 64} {i : Instr} (h : decodeKiteWord w = .ok i) :
    encodeKiteWord i = some w ∧ wellFormed i = true ∧ isKiteInstr i = true := by
  obtain ⟨hres, hc, hok⟩ := decodeKiteWord_eq_ok.1 h
  have ho := kiteOp_of_kiteCtor hc
  refine ⟨?_, (wellFormed_of_kiteOp ho).trans hok, by rw [isKiteInstr, ho]; rfl⟩
  rw [encodeKiteWord, ho]
  exact congrArg some (kiteWordOf_kiteFieldsOf hres)

/-! ### Bytes and instructions (R25) -/

/-- The twelve bytes of a word, and what follows them, decode to its instruction and leave the rest. -/
theorem decode_leBytes_append (w : BitVec 96) (rest : List Byte) : decode (leBytes 12 w.toNat ++ rest) = .ok (decodeWord w, rest) := by
  have hlen : (leBytes 12 w.toNat).length = 12 := leBytes_length ..
  have htake : (leBytes 12 w.toNat ++ rest).take 12 = leBytes 12 w.toNat := List.take_left' hlen
  have hdrop : (leBytes 12 w.toNat ++ rest).drop 12 = rest := List.drop_left' hlen
  rw [decode, if_neg (by simp), htake, hdrop, ofNat_leNat_leBytes_toNat 12 w rfl]

/-- The bytes of an instruction with a word are those of the word. -/
theorem encode_of_encodeWord {i : Instr} {w : BitVec 96} (h : encodeWord i = some w) : encode i = leBytes 12 w.toNat := by
  simp only [encode, h]

end Sys2Proof.Machine

namespace Sys2Proof.Claims

open Sys2Proof.Machine

/-- Settles O52: the instruction has a word (`exists_encodeWord`), whose bytes hold it (`decode_leBytes_append`). -/
theorem decodingAnEncodedWordGivesItBack : Obligations.DecodingAnEncodedWordGivesItBack := by
  unfold Obligations.DecodingAnEncodedWordGivesItBack
  intro i hi hw
  obtain ⟨w, he, hd⟩ := exists_encodeWord hi hw
  refine ⟨⟨w, he, hd⟩, ?_, fun rest => ?_⟩
  · rw [encode_of_encodeWord he, leBytes_length]
  · rw [encode_of_encodeWord he, decode_leBytes_append, hd]

/-- Settles O53: `encodeWord_decodeWord` for the 96-bit words, `exists_encodeKiteWord` and `encodeKiteWord_of_decodeKiteWord` for the
Kite words. -/
theorem wordsAndInstructionsCorrespond : Obligations.WordsAndInstructionsCorrespond := by
  unfold Obligations.WordsAndInstructionsCorrespond
  refine ⟨encodeWord_decodeWord, fun i => exists_encodeKiteWord, fun w i => encodeKiteWord_of_decodeKiteWord, fun bs h => ?_, fun bs h => ?_⟩
  · rw [decode, if_pos h]
  · rw [decodeKite, if_pos h]

/-- Settles O54: the decoder evaluated on each word. -/
theorem workedWordsDecode : Obligations.WorkedWordsDecode := by
  unfold Obligations.WorkedWordsDecode
  and_intros
  all_goals rfl

end Sys2Proof.Claims
end

section
/-! SUPPORT. The issue of a hint and of a word without a meaning, and what a fetch reads where nothing is held on chip. -/

namespace Sys2Proof.Machine

/-! ### Completion by a trap (R430) -/

/-- A trap other than that of `trap` is taken at the instruction's own PC. -/
theorem finish_trap {c : Ctx} {s : State} {code cause addr : Nat} {mask : Word} {opnd info : Nat} (h : code ≠ kTRAP) :
    finish c s (.trap code cause addr mask opnd info)
      = s.takeTrap { c.w with supp := false } (s.waveRec c.w code cause addr mask opnd info) c.w.pc := by
  have : (code == kTRAP) = false := beq_false_of_ne h
  simp only [finish, this, Bool.false_eq_true, if_false]

/-! ### Fetching with nothing on chip (R25, R175) -/

/-- Room in a core's L1 for an instruction line takes no byte from memory. -/
@[simp] theorem roomI_mem (s : State) (core : Nat) : (roomI s core).mem = s.mem := by
  simp only [roomI, State.choose]
  split
  · cases (s.ilines.filter fun x => x.core == core)[Config.freeNat s.free % (s.ilines.filter fun x => x.core == core).length]? <;> rfl
  · rfl

/-- With no line resident or noted and no migration's break, nothing that is read is open through an alias. -/
theorem State.aliased_of_nothing_held {s : State} {asid va : Nat} (t : Trans) (hh : s.homes = []) (hn : s.names = [])
    (ho : s.opened asid va = false) : s.aliased asid va t = false := by
  simp [State.aliased, State.namesOf, hh, hn, ho]

/-- A frame of HBM has no device register. -/
theorem State.isDev_of_lt {pa : Nat} (h : pa < 2 ^ 39) : State.isDev pa = false := by
  have : ¬ Config.devBase ≤ pa := Nat.not_le.2 (h.trans_le (by decide))
  simp [State.isDev, this]

/-- With nothing held on chip or on its way, a committed byte of HBM is that of memory. -/
theorem State.committed_of_nothing_held {s : State} {asid va : Nat} {t : Trans} (hh : s.homes = []) (hn : s.names = [])
    (hw : s.portWrites = []) (hp : s.parkedPuts = []) (ho : s.opened asid va = false) (hpa : t.pa < 2 ^ 39)
    (hown : s.isOwn t.pa = false) : s.committed asid va t = s.mem.get t.pa := by
  simp [State.committed, State.isDev_of_lt hpa, State.aliased_of_nothing_held t hh hn ho, hown, State.home?, hh, State.phys, State.memGet, hw, hp]

/-- Bytes of one line lie in one page. -/
theorem State.opened_line (s : State) (asid va : Nat) {i : Nat} (hi : i < 128) : s.opened asid (va / 128 * 128 + i) = s.opened asid va := by
  rw [State.opened, State.opened, show (va / 128 * 128 + i) / 8192 = va / 8192 by omega]

/-- A fetch of a line, with nothing held on chip, reads the bytes of its frame. -/
theorem fetchLine_of_nothing_held {s : State} {core asid va : Nat} {t : Trans} (hi : s.ilines = []) (hh : s.homes = []) (hw : s.portWrites = [])
    (hp : s.parkedPuts = []) (hn : s.names = []) (hc : s.laneCheck asid va 1 .fetch = none) (hl : s.lookup asid va .fetch = some t)
    (hpa : t.pa < 2 ^ 39) (ho : s.opened asid va = false) (hown : ∀ k < 128, s.isOwn (t.pa / 128 * 128 + k) = false) :
    ∃ u, fetchLine s core asid va = .ok ((List.range 128).map fun i => s.mem.get (t.pa / 128 * 128 + i), u) ∧ u.mem = s.mem := by
  have hdata : ((List.range 128).map fun i => (s.leaveCluster (some (dieOf core)) asid va).committed asid (va / 128 * 128 + i)
      { t with pa := t.pa / 128 * 128 + i }) = (List.range 128).map fun i => s.mem.get (t.pa / 128 * 128 + i) := by
    refine List.map_congr_left fun i hi => ?_
    have hi : i < 128 := List.mem_range.1 hi
    exact State.committed_of_nothing_held (s := s.leaveCluster (some (dieOf core)) asid va) hh hn hw hp
      ((s.opened_line asid va hi).trans ho) (by dsimp only; omega) (hown i hi)
  simp only [fetchLine, hi, List.find?_nil, hc, hl]
  rw [hdata]
  exact ⟨_, rfl, by split <;> simp [State.leaveCluster]⟩

/-- The bytes from an offset of a line. -/
theorem take_drop_map_range {α : Type} (g : Nat → α) {n o k : Nat} (h : o + k ≤ n) :
    (((List.range n).map g).drop o).take k = (List.range k).map fun i => g (o + i) := by
  apply List.ext_getElem
  · simp; omega
  · intro i h1 h2
    simp

/-! ### Turns (R93, R95, R388) -/

/-- A step takes the first turn of the schedule. -/
theorem step_of_turns {s : State} {t : Turn} {ts : List Turn} (h : s.turns = t :: ts) : step s = runTurn t { s with turns := ts } := by
  simp only [step, nextTurn, h]

/-- A fetched word is executed for its wave. -/
theorem runWave_of_word {s u : State} {w : Wave} {b : BitVec 96} (h : fetch s w = .word b u) :
    runWave s w = exec (decodeWord b) { u with cur := some w.wid } := by
  simp only [runWave, h]

/-- An issue cycle runs the wave that the selector chooses. -/
theorem issueCycle_of_selected {s : State} {core quad : Nat} {w : Wave}
    (h : selectWave ((candidates s core quad).foldl markReady s) core quad = some w) :
    issueCycle s core quad = runWave
      ((takeUnit (countWaits ((candidates s core quad).foldl markReady s) core quad w.wid) w).setWave { w with startAt := 0 })
      { w with startAt := 0 } := by
  simp only [issueCycle, h]

/-- An issue cycle without a Ready wave marks the candidates and runs none. -/
theorem issueCycle_of_none {s : State} {core quad : Nat} (h : selectWave ((candidates s core quad).foldl markReady s) core quad = none) :
    issueCycle s core quad = .next ((candidates s core quad).foldl markReady s) := by
  simp only [issueCycle, h]

/-- A Kite's turn runs the microinstruction of its ray. -/
theorem kiteTurn_of_word {s t : State} {rid core : Nat} {r : Ray} {b : BitVec 64} {i : Instr} (hr : s.ray? rid = some r)
    (hplace : r.place = .kite core) (hstop : s.plat.stopped = false) (hctx : ctxRuns s r.asid = true) (hpark : s.anyParked = false)
    (hdead : s.deadCores.contains core = false) (hfetch : kiteFetch s r = .word b t) (hdec : decodeKiteWord b = .ok i) :
    kiteTurn s rid = exec i { t with curRay := some rid } := by
  simp only [kiteTurn, hr, hplace, hstop, hctx, hpark, hdead, hfetch, hdec]
  rfl

end Sys2Proof.Machine

namespace Sys2Proof.Claims

open Sys2Proof.Machine

/-! ### Hints and words without a meaning (R45, R47) -/

/-- A hint that cannot act goes on at PC + 12. -/
theorem issueHint_of_not_go {i : Instr} {f : Fields} {s : State} {w : Wave} {body : Ctx → State → State}
    (hw : s.cur.bind s.wave? = some w) (hs : stepDue w = false) (hp : pcMatch (start s) w = none)
    (hgo : ∀ c, prepare i f w (start s) ≠ .go c) : ∃ c : Ctx, c.w = w ∧ c.pops = [] ∧ issueHint i f s body = .next (ends c (start s)) := by
  unfold start at hp hgo
  unfold issueHint
  simp only [hw, hs, hp, Bool.false_eq_true, if_false]
  exact ⟨_, rfl, rfl, rfl⟩

/-- A hint that acts does what its body does, and pops no queue. -/
theorem issueHint_ready {i : Instr} {f : Fields} {s : State} {c : Ctx} {body : Ctx → State → State} (h : ready i f s = some c) :
    issueHint i f s body = .next (ends { c with pops := [] } (body c (start s))) := by
  obtain ⟨w, hw, hs, hp, hc⟩ := ready_spec h
  unfold start at hp hc
  simp [issueHint, hw, hs, hp, hc, ends, finish, start]

/-- A word without a meaning does what it does for the selected wave. -/
theorem issueWord_selected {s : State} {w : Wave} {a : State → Act} (hw : s.cur.bind s.wave? = some w) (hs : stepDue w = false)
    (hp : pcMatch (start s) w = none) : ∃ c : Ctx, c.w = w ∧ c.pops = [] ∧ issueWord s a = .next (finish c (start s) (a (start s))) := by
  unfold start at hp
  unfold issueWord
  simp only [hw, hs, hp, Bool.false_eq_true, if_false]
  exact ⟨_, rfl, rfl, rfl⟩

/-- Settles O12: the trap of the word's issue, which `finish_trap` takes at the wave's PC. -/
theorem reservedWordsFault : Obligations.ReservedWordsFault := by
  unfold Obligations.ReservedWordsFault
  intro b s w hw hs hp
  obtain ⟨c, rfl, -, h⟩ := issueWord_selected (a := fun _ => .trap kILLINST 0 0 0 0 0) hw hs hp
  rw [show exec (.reservedWord b) s = issueWord s fun _ => .trap kILLINST 0 0 0 0 0 from rfl, h, finish_trap (by decide)]

/-- Settles O11: a hint is issued by `issueHint`, which completes it in every case. -/
theorem hintsNeverStop : Obligations.HintsNeverStop := by
  unfold Obligations.HintsNeverStop
  refine ⟨?_, ?_, fun f s c h => ?_, fun b s w hw hs hp => issueWord_selected hw hs hp⟩
  · rintro i (rfl | rfl | rfl) f s w hw hs hp hgo
    · exact issueHint_of_not_go (body := fun _ s => s) hw hs hp hgo
    · exact issueHint_of_not_go (body := fun c s => s.setWave { c.wave s with hpri := f.e 7 0 + 1 }) hw hs hp hgo
    · exact issueHint_of_not_go (body := fun _ s => s) hw hs hp hgo
  · rintro i (rfl | rfl) f s c h
    all_goals exact issueHint_ready (body := fun _ s => s) h
  · exact issueHint_ready (body := fun c s => s.setWave { c.wave s with hpri := f.e 7 0 + 1 }) h

/-- Settles O50: a turn is what `runTurn` makes of it, and a fetch with nothing on chip reads its frame (`fetchLine_of_nothing_held`). -/
theorem aStepRunsTheDecodedInstruction : Obligations.AStepRunsTheDecodedInstruction := by
  unfold Obligations.AStepRunsTheDecodedInstruction
  refine ⟨?issue, ?idle, ?kite, ?event, ?tick, ?bytes, ?frame⟩
  case issue =>
    intro s core quad ts w b u hts m v hsel hfetch
    rw [step_of_turns hts]
    exact (issueCycle_of_selected hsel).trans (runWave_of_word hfetch)
  case idle =>
    intro s core quad ts hts hsel
    rw [step_of_turns hts]
    exact issueCycle_of_none hsel
  case kite =>
    intro s rid ts r core b t i hts hr hplace hstop hctx hpark hdead hfetch hdec
    rw [step_of_turns hts]
    exact kiteTurn_of_word hr hplace hstop hctx hpark hdead hfetch hdec
  case event => exact fun s i ts hts => step_of_turns hts
  case tick => exact fun s ts hts => step_of_turns hts
  case bytes =>
    intro bs hlen
    rw [decode, if_neg (by omega), List.take_of_length_le hlen.le, List.drop_eq_nil_of_le hlen.le]
  case frame =>
    intro s w t hi hh hw hp hn hpc hoff hc hl hpa ho hown
    obtain ⟨u, hu, hmem⟩ := fetchLine_of_nothing_held (core := w.core) hi hh hw hp hn hc hl hpa ho hown
    have hfit : w.pc.toNat % 128 + 12 ≤ 128 := by omega
    refine ⟨u, ?_, hmem⟩
    simp only [fetch, hpc, hu, hfit, take_drop_map_range _ hfit, if_true, Nat.add_assoc]
    rfl

end Sys2Proof.Claims
end

section
/-! SUPPORT. The registers of a wave under each write, and the issue of a wave instruction case by case: one equation for each check of
R45 that decides it. -/

namespace Sys2Proof.Machine

/-! ### Registers (R28, R38) -/

/-- A masked write of a vector register keeps the lanes outside the mask, and every other register. -/
theorem Wave.vl_wv (w : Wave) {n k l : Nat} {m : Word} (g : Nat → Word) (hl : l < 32) (h : k ≠ n ∨ m.getLsbD l = false) :
    (w.wv n m g).vl k l = w.vl k l := by
  unfold Wave.wv
  split
  · rename_i r hr
    by_cases hnk : k = n
    · subst hnk
      have hm : lane m l = false := h.resolve_left (by simp)
      obtain ⟨hlt, rfl⟩ := List.getElem?_eq_some_iff.1 hr
      simp [Wave.vl, hlt, VReg.put, lanesOf, laneList, hl, hm]
    · simp [Wave.vl, Ne.symm hnk]
  · rfl

/-- A write of a predicate register changes that one alone (R28). -/
theorem Wave.pr_wp_ne (w : Wave) {n k : Nat} (v : Word) (h : k ≠ n) : (w.wp n v).pr k = w.pr k := by
  unfold Wave.wp
  split
  · rfl
  · split
    · rename_i h8
      obtain rfl : n = 8 := by simpa using h8
      simp [Wave.pr, h]
    · simp [Wave.pr, h.symm]

/-- A bit that a predicate write keeps. -/
theorem Wave.getLsbD_pr_wp (w : Wave) {n l : Nat} {v : Word} (h : v.getLsbD l = (w.pr n).getLsbD l) (k : Nat) :
    ((w.wp n v).pr k).getLsbD l = (w.pr k).getLsbD l := by
  by_cases hk : k = n
  · subst hk
    unfold Wave.wp
    split
    · rfl
    · split
      · rename_i h8
        obtain rfl : k = 8 := by simpa using h8
        simpa [Wave.pr] using h
      · rename_i h0 h8
        simp only [Wave.pr, h0, h8, Bool.false_eq_true, if_false] at h ⊢
        simp only [List.getD_eq_getElem?_getD, List.getElem?_set, if_true] at h ⊢
        split
        · simpa using h
        · rename_i hlt
          rw [List.getElem?_eq_none (by omega)]
  · rw [Wave.pr_wp_ne w v hk]

/-! ### The issue (R45) -/

/-- A wave instruction other than a hint and `talloc` is issued, and does nothing where its guard holds it back (R37). -/
theorem exec_eq_issue {i : Instr} {cls op : Nat} {f : Fields} (h : opOf i = some (cls, op, f)) (hc : cls ≠ 31) (ht : i ≠ .talloc f) :
    ∃ body, ∀ s, exec i s = issue i f s body := by
  cases i
  all_goals cases h
  case talloc => exact absurd rfl ht
  case hprf | hpri | hbranch => exact absurd rfl hc
  all_goals
    simp only [exec, execAstr, execAstw, execDred, execDrsqe, execFadd, execFclass, execFcmp, execFcos, execFex2, execFfma, execFlg2,
      execFmax, execFmin, execFmul, execFrcp, execFred, execFrsq, execFsin, execFsub, fpFunc, execDadd, execDclass, execDcmp, execDfma,
      execDmax, execDmin, execDmul, execDrcpe, execDsub, execMand, execMandn, execMfirst, execMmov, execMnot, execMor, execMpopc,
      execMxor, execSadd, execSand, execSdiv, execSmax, execSmin, execSmul, execSmulh, execSor, execSrem, execSshl, execSshr, execSsra,
      execSsub, execSxor, execVadd, execVand, execVmax, execVmin, execVmul, execVmulh, execVor, execVshl, execVshr, execVsra, execVsub,
      execVxor]
    exact ⟨_, fun _ => rfl⟩

/-- Every wave instruction but a hint is issued. -/
theorem exec_eq_issueOr {i : Instr} {cls op : Nat} {f : Fields} (h : opOf i = some (cls, op, f)) (hc : cls ≠ 31) :
    ∃ skip body, ∀ s, exec i s = issueOr i f s skip body := by
  by_cases ht : i = .talloc f
  · subst ht
    simp only [exec]
    exact ⟨_, _, fun _ => rfl⟩
  · obtain ⟨body, hb⟩ := exec_eq_issue h hc ht
    exact ⟨_, body, hb⟩

/-- A hint is issued as one (R47). -/
theorem exec_eq_issueHint {i : Instr} {op : Nat} {f : Fields} (h : opOf i = some (31, op, f)) : ∃ body, ∀ s, exec i s = issueHint i f s body := by
  cases i
  all_goals cases h
  all_goals
    simp only [exec]
    exact ⟨_, fun _ => rfl⟩

/-! ### The codes of steps 5 and 7 (R45) -/

/-- The codes that the checks of an operand field raise. -/
def IsOpndCode (k : Nat) : Prop := k = kILLOPND ∨ k = kREGBOUND

theorem IsOpndCode.ne_kTRAP {k : Nat} (h : IsOpndCode k) : k ≠ kTRAP := by
  obtain rfl | rfl := h <;> decide

/-- Step 5 raises an illegal operand or a register out of bounds. -/
theorem isOpndCode_of_opndCheck {allot : Nat} {u : OpUse} {o : Opd} {k : Nat} (h : opndCheck allot u o = some k) : IsOpndCode k := by
  unfold opndCheck at h
  dsimp only at h
  repeat' split at h
  all_goals cases h
  all_goals first | exact .inl rfl | exact .inr rfl

/-- Step 7 raises an illegal operand or a register out of bounds. -/
theorem isOpndCode_of_opndResolve {allot : Nat} {xr : Word} {u : OpUse} {o : Opd} {k : Nat} (h : opndResolve allot xr u o = .error k) :
    IsOpndCode k := by
  unfold opndResolve at h
  dsimp only at h
  repeat' split at h
  all_goals cases h
  all_goals first | exact .inl rfl | exact .inr rfl

theorem isOpndCode_of_step5 {sh : Shape} {f : Fields} {allot k o : Nat} (h : step5 sh f allot = some (k, o)) : IsOpndCode k := by
  unfold step5 at h
  split at h
  · rename_i x hx
    cases h
    obtain ⟨⟨i, u, o⟩, -, hk⟩ := List.exists_of_findSome?_eq_some hx
    obtain ⟨_, hcheck, hpair⟩ := Option.map_eq_some_iff.1 hk
    cases hpair
    exact isOpndCode_of_opndCheck hcheck
  · split at h
    · cases h
    · cases h
      exact .inl rfl

theorem isOpndCode_of_step7 {sh : Shape} {f : Fields} {w : Wave} {k o : Nat} (h : step7 sh f w = some (k, o)) : IsOpndCode k := by
  obtain ⟨⟨i, u, o⟩, -, hk⟩ := List.exists_of_findSome?_eq_some h
  dsimp only at hk
  split at hk
  · rename_i hr
    cases hk
    exact isOpndCode_of_opndResolve hr
  · cases hk

/-! ### The checks in order (R45) -/

section
variable {i : Instr} {f : Fields} {w : Wave} {s : State} {sh : Shape}

theorem prepare_of_not_shapeOk (hs : shape i = some sh) (h : shapeOk sh f = false) : prepare i f w s = .stop (.trap kILLINST 0 0 0 0 0) := by
  simp [prepare, hs, h]

theorem prepare_of_step5 {k o : Nat} (hs : shape i = some sh) (h : shapeOk sh f = true) (h5 : step5 sh f w.allot = some (k, o)) :
    prepare i f w s = .stop (.trap k 0 0 0 o 0) := by
  simp [prepare, hs, h, h5]

theorem prepare_of_acts_none (hs : shape i = some sh) (h : shapeOk sh f = true) (h5 : step5 sh f w.allot = none)
    (ha : acts sh.rule f (w.exec &&& guardOf w f) = none) :
    prepare i f w s = .stop (.trap kCONVERGE 0 0 0 0 (w.exec &&& guardOf w f).toNat) := by
  simp [prepare, hs, h, h5, ha]

theorem prepare_of_step7 {k o : Nat} (hs : shape i = some sh) (h : shapeOk sh f = true) (h5 : step5 sh f w.allot = none)
    (ha : acts sh.rule f (w.exec &&& guardOf w f) = some true) (h7 : step7 sh f w = some (k, o)) :
    prepare i f w s = .stop (.trap k 0 0 0 o 0) := by
  simp [prepare, hs, h, h5, ha, h7]

/-- A live set that names a register outside the allotment stops its instruction, which names the set's last register (R381, R397). -/
theorem prepare_of_liveRegs {base k : Nat} {r : ROp} {u : OpUse} (hs : shape i = some sh) (h : shapeOk sh f = true)
    (h5 : step5 sh f w.allot = none) (ha : acts sh.rule f (w.exec &&& guardOf w f) = some true) (h7 : step7 sh f w = none)
    (hlive : isLive i = true) (hd : resolved w 0 sh.d f.d = some (.v base)) (himm : sh.imm = false) (hb : resolved w 2 sh.b f.b = some r)
    (hu : sh.b = some u) (hk : (maskBits (SrcVal.w (readOp w u r) 0)).getLast? = some k) (hout : w.allot ≤ base + k) :
    prepare i f w s = .stop (.trap kREGBOUND 0 0 0 ((base + k) % 1024) 0) := by
  have hb' : resolved w 2 (some u) f.b = some r := hu ▸ hb
  simp [prepare, hs, h, h5, ha, h7, liveRegs, hlive, hd, himm, hu, hb', hk, Option.filter, hout, opndRef]

/-- Reading the sources never holds an instruction back by its guard. -/
theorem readSources_ne_skip {c : Ctx} : readSources i s c ≠ .skip := by
  intro h
  unfold readSources at h
  dsimp only at h
  repeat' split at h
  all_goals cases h

/-- An instruction is skipped just when it passes steps 1 to 5 and its guard holds it back. -/
theorem prepare_eq_skip_iff : prepare i f w s = .skip ↔ ∃ sh, shape i = some sh ∧ shapeOk sh f = true ∧ step5 sh f w.allot = none
    ∧ acts sh.rule f (w.exec &&& guardOf w f) = some false := by
  constructor
  · intro h
    unfold prepare at h
    split at h
    · cases h
    · rename_i sh hs
      split at h
      · cases h
      · rename_i hok
        split at h
        · cases h
        · rename_i h5
          dsimp only at h
          split at h
          · rename_i ha
            exact ⟨sh, hs, by simpa using hok, h5, ha⟩
          · cases h
          · split at h
            · cases h
            · split at h
              · cases h
              · split at h
                · cases h
                · exact absurd h readSources_ne_skip
  · rintro ⟨sh, hs, hok, h5, ha⟩
    simp [prepare, hs, hok, h5, ha]

end

end Sys2Proof.Machine

namespace Sys2Proof.Claims

open Sys2Proof.Machine

section
variable {i : Instr} {cls op : Nat} {f : Fields} {s : State} {w : Wave}

/-- An instruction that a check stops does what the check says. -/
theorem exec_of_stop {a : Act} (ho : opOf i = some (cls, op, f)) (hc : cls ≠ 31) (hw : s.cur.bind s.wave? = some w)
    (hs : stepDue w = false) (hp : pcMatch (start s) w = none) (h : prepare i f w (start s) = .stop a) :
    ∃ c : Ctx, c.w = w ∧ c.pops = [] ∧ exec i s = .next (finish c (start s) a) := by
  obtain ⟨skip, body, he⟩ := exec_eq_issueOr ho hc
  unfold start at hp h
  rw [he, issueOr]
  simp only [hw, hs, hp, h, Bool.false_eq_true, if_false]
  exact ⟨_, rfl, rfl, rfl⟩

/-- An instruction that a check traps takes the trap at its own PC. -/
theorem exec_of_trap {k opnd info : Nat} (ho : opOf i = some (cls, op, f)) (hc : cls ≠ 31) (hw : s.cur.bind s.wave? = some w)
    (hs : stepDue w = false) (hp : pcMatch (start s) w = none) (h : prepare i f w (start s) = .stop (.trap k 0 0 0 opnd info))
    (hk : k ≠ kTRAP) : exec i s = .next ((start s).takeTrap { w with supp := false } ((start s).waveRec w k 0 0 0 opnd info) w.pc) := by
  obtain ⟨c, rfl, -, he⟩ := exec_of_stop ho hc hw hs hp h
  rw [he, finish_trap hk]

/-- An instruction with an effect where its guard holds it back goes on where that effect is to do nothing. -/
theorem issueOr_skip {skip body : Ctx → State → Act} (hw : s.cur.bind s.wave? = some w) (hs : stepDue w = false)
    (hp : pcMatch (start s) w = none) (h : prepare i f w (start s) = .skip)
    (hskip : skip { w := w, node := (start s).nodeOf w, f := f, sh := { rule := .wave, modOk := true, extOk := true }, m := 0 } (start s)
      = .done (start s)) :
    issueOr i f s skip body = .next (ends
      { w := w, node := (start s).nodeOf w, f := f, sh := { rule := .wave, modOk := true, extOk := true }, m := 0 } (start s)) := by
  unfold start at hp h hskip
  simp only [issueOr, hw, hs, hp, h, hskip, Bool.false_eq_true, if_false]
  rfl

/-- An instruction that its guard holds back goes on at PC + 12. -/
theorem exec_of_skip (ho : opOf i = some (cls, op, f)) (ht : i ≠ .talloc f) (hw : s.cur.bind s.wave? = some w)
    (hs : stepDue w = false) (hp : pcMatch (start s) w = none) (h : prepare i f w (start s) = .skip) :
    ∃ c : Ctx, c.w = w ∧ c.pops = [] ∧ exec i s = .next (ends c (start s)) := by
  by_cases hc : cls = 31
  · have hgo (c : Ctx) : prepare i f w (start s) ≠ .go c := by simp [h]
    obtain ⟨body, he⟩ := exec_eq_issueHint (hc ▸ ho)
    exact (he s).symm ▸ issueHint_of_not_go hw hs hp hgo
  · obtain ⟨body, he⟩ := exec_eq_issue ho hc ht
    exact ⟨_, rfl, rfl, (he s).trans (issue_skip hw hs hp h)⟩

end

/-! ### The guard (R37) -/

/-- The wave that a ready instruction runs for is the selected one. -/
theorem ready_wave {i : Instr} {f : Fields} {s : State} {c : Ctx} (h : ready i f s = some c) :
    (start s).wave? c.w.wid = some c.w ∧ s.cur = some c.w.wid := by
  obtain ⟨w, hw, -, -, hp⟩ := ready_spec h
  obtain ⟨sh, -, -, -, -, -, rfl, -⟩ := prepare_go hp
  obtain ⟨wid, hcur, hwave⟩ := Option.bind_eq_some_iff.1 hw
  have hid : c.w.wid = wid := by simpa using List.find?_some hwave
  exact ⟨hid ▸ hwave, hid ▸ hcur⟩

/-- Vector results leave the lanes outside the mask. -/
theorem putVec_keeps_lanes {c : Ctx} {s : State} {n r l : Nat} {m : Word} {g : Nat → Nat} {w : Wave} (hd : c.d = some (.v r)) (hl : l < 32)
    (hm : m.getLsbD l = false) (hw : s.wave? c.w.wid = some w) :
    ∃ v, (c.putVec s n m g).wave? c.w.wid = some v ∧ ∀ k, v.vl k l = w.vl k l := by
  have hid : w.wid = c.w.wid := by simpa using List.find?_some hw
  have hwave : c.wave s = w := by simp [Ctx.wave, hw]
  have hgrp (is : List Nat) (x : Wave) : (is.foldl (fun w i => w.wv (r + i) m fun l => wordI (g l) i) x).wid = x.wid
      ∧ ∀ k, (is.foldl (fun w i => w.wv (r + i) m fun l => wordI (g l) i) x).vl k l = x.vl k l := by
    induction is generalizing x with
    | nil => exact ⟨rfl, fun _ => rfl⟩
    | cons i is ih =>
      obtain ⟨h1, h2⟩ := ih (x.wv (r + i) m fun l => wordI (g l) i)
      refine ⟨h1.trans (by unfold Wave.wv; split <;> rfl), fun k => (h2 k).trans (x.vl_wv _ hl (.inr hm))⟩
  obtain ⟨h1, h2⟩ := hgrp (List.range n) w
  refine ⟨w.wvGrp r n m fun i l => wordI (g l) i, ?_, h2⟩
  simp only [Ctx.putVec, hd, hwave]
  have hset : (w.wvGrp r n m fun i l => wordI (g l) i).wid = c.w.wid := h1.trans hid
  rw [← hset]
  exact State.wave?_setWave_self (hset ▸ hw)

/-- Predicate results leave the lanes outside the mask. -/
theorem putPred_keeps_lanes {c : Ctx} {s : State} {r l : Nat} {m v : Word} {w : Wave} (hd : c.d = some (.p r)) (hl : l < 32)
    (hm : m.getLsbD l = false) (hw : s.wave? c.w.wid = some w) :
    ∃ u, (c.putPred s m v).wave? c.w.wid = some u ∧ ∀ k, (u.pr k).getLsbD l = (w.pr k).getLsbD l := by
  have hid : w.wid = c.w.wid := by simpa using List.find?_some hw
  have hwave : c.wave s = w := by simp [Ctx.wave, hw]
  have hset : (w.wp r ((w.pr r &&& ~~~m) ||| (v &&& m))).wid = c.w.wid :=
    Eq.trans (by unfold Wave.wp; split <;> [rfl; (split <;> rfl)]) hid
  refine ⟨_, ?_, w.getLsbD_pr_wp (n := r) (v := (w.pr r &&& ~~~m) ||| (v &&& m)) (by simp [-BitVec.getLsbD_eq_getElem, hl, hm])⟩
  simp only [Ctx.putPred, hd, hwave]
  rw [← hset]
  exact State.wave?_setWave_self (hset ▸ hw)

/-- Settles O55: the guard and its rules by their definitions, the outcomes of a guard by the checks' equations. -/
theorem guardsSelectWhatActs : Obligations.GuardsSelectWhatActs := by
  unfold Obligations.GuardsSelectWhatActs
  refine ⟨fun _ _ => rfl, ?_, ?_, ?_, ?_, ?_, ?_, fun _ _ _ _ => prepare_eq_skip_iff
    , fun i cls op f s w ho ht hw hs hp h => exec_of_skip ho ht hw hs hp h, ?_
    , fun c s n m g r l hd hl hm w hw => putVec_keeps_lanes hd hl hm hw, fun c s v m r l hd hl hm w hw => putPred_keeps_lanes hd hl hm hw⟩
  · intro w f hpred
    cases hn : f.neg <;> simp [guardOf, hpred, hn, Wave.pr, allLanes]
  · intro i f s c h hrp
    obtain ⟨w, -, -, -, hp⟩ := ready_spec h
    obtain ⟨sh, -, -, -, -, -, rfl, -, -, -, hm, -⟩ := prepare_go hp
    simpa only [hrp] using hm
  · intro f m
    simp [acts, bne, beq_eq_decide]
  · intro f m
    simp [acts, bne, beq_eq_decide]
  · intro f m
    simp [acts]
  · intro i cls op f s w sh ho hc hw hs hp hsh hok h5 hrule h0 h1
    have hnone : acts sh.rule f (w.exec &&& guardOf w f) = none := by
      have h1' : w.exec &&& guardOf w f ≠ allLanes := h1
      rw [hrule, acts]
      simp only [beq_iff_eq, h0, h1', if_false]
    exact exec_of_trap ho hc hw hs hp (prepare_of_acts_none hsh hok h5 hnone) (by decide)
  · intro f s w hw hs hp h hdet
    rw [show exec (.talloc f) s = execTalloc f s from rfl, execTalloc]
    refine ⟨_, rfl, rfl, issueOr_skip hw hs hp h ?_⟩
    simp only [Ctx.det, hdet]
    rfl

/-! ### Sources, destinations and completion (R39, R40, R430, R431) -/

/-- FLAGS of a wave's record tell its state and its family (R424). -/
theorem waveFlags_bits (s : State) (w : Wave) : s.waveFlags w % 8 / 4 = (if w.hnd then 1 else 0)
    ∧ s.waveFlags w % 4 / 2 = (if s.nonSpec (s.nodeOf w) then 1 else 0) := by
  unfold State.waveFlags
  cases w.hnd <;> cases s.nonSpec (s.nodeOf w) <;> decide

/-- The completion of a wave that pops nothing and is not stepping. -/
theorem ends_of_no_pops {c : Ctx} {t : State} {w : Wave} (hw : t.wave? c.w.wid = some w) (hp : c.pops = []) (hs : w.stepping = false) :
    ends c t = t.setWave { retire w with pc := w.pc + 12, st := .ready } := by
  have hid : w.wid = c.w.wid := by simpa using List.find?_some hw
  simp only [ends, finish, hp, popAll, List.foldl_nil, hw]
  refine afterStep_id fun v hv => ?_
  have hself := State.wave?_setWave_self (s := t) (w := { retire w with pc := w.pc + 12, st := .ready }) (v := w) (hid ▸ hw)
  rw [show ({ retire w with pc := w.pc + 12, st := .ready } : Wave).wid = c.w.wid from hid, hv] at hself
  cases hself
  exact hs

/-- Settles O56: the equation of each check decides the trap (`exec_of_trap`), and the checks of registers by their definitions. -/
theorem checksComeInTheOrderGiven : Obligations.ChecksComeInTheOrderGiven := by
  unfold Obligations.ChecksComeInTheOrderGiven
  refine ⟨?order, ?full, ?empty, ?dest, ?unresolved, ?ended, fun c t w hw hp hs => ends_of_no_pops hw hp hs⟩
  case order =>
    intro i cls op f s w sh ho hc hw hs hp hsh traps m
    refine ⟨fun h => ?_, fun k o h h5 => ?_, fun h h5 ha => ?_, fun k o h h5 ha h7 => ?_, ?_⟩
    · exact exec_of_trap ho hc hw hs hp (prepare_of_not_shapeOk hsh h) (by decide)
    · exact exec_of_trap ho hc hw hs hp (prepare_of_step5 hsh h h5) (isOpndCode_of_step5 h5).ne_kTRAP
    · exact exec_of_trap ho hc hw hs hp (prepare_of_acts_none hsh h h5 ha) (by decide)
    · exact exec_of_trap ho hc hw hs hp (prepare_of_step7 hsh h h5 ha h7) (isOpndCode_of_step7 h7).ne_kTRAP
    · intro base r u k hi h h5 ha h7 hd himm hb hu hk hout
      have hlive : isLive i = true := by obtain rfl | rfl | rfl := hi <;> rfl
      exact exec_of_trap ho hc hw hs hp (prepare_of_liveRegs hsh h h5 ha h7 hlive hd himm hb hu hk hout) (by decide)
  case full =>
    intro s w place u n fe qs h
    simp [readSrc, h]
  case empty =>
    intro s w place u n qs h
    simp [readSrc, h, kEMPTY]
  case dest =>
    intro s w m u n
    cases h : regsFull w u (.v n) <;> simp [destCheck, h]
  case unresolved =>
    intro s w r epc h
    have hcond : (w.hnd || s.handlerOf w == 0) = true := by simpa using h
    refine ⟨s.waveFlags w, ?_, waveFlags_bits s w⟩
    rw [State.takeTrap, if_pos hcond]
    rfl
  case ended =>
    intro s wid w hw hheld
    simp [State.endTrapped, hw, hheld]

end Sys2Proof.Claims
end

section
/-! SUPPORT. The frame of the register instructions: what a result may change of its wave and of the machine, how such changes
compose, and that completion adds no other. -/

namespace Sys2Proof.Machine

open Sys2Proof.Claims

/-! ### What one write changes of a wave (R28, R38) -/

theorem Wave.wv_eq (w : Wave) (n : Nat) (m : Word) (g : Nat → Word) : w.wv n m g = { w with v := (w.wv n m g).v } := by
  unfold Wave.wv
  split <;> rfl

theorem Wave.wp_eq (w : Wave) (n : Nat) (x : Word) : w.wp n x = { w with exec := (w.wp n x).exec, p := (w.wp n x).p } := by
  unfold Wave.wp
  split
  · rfl
  · split <;> rfl

@[simp] theorem Wave.allot_wv (w : Wave) (n : Nat) (m : Word) (g : Nat → Word) : (w.wv n m g).allot = w.allot := by
  unfold Wave.wv Wave.allot
  split <;> simp

/-- A masked write keeps the full bits. -/
@[simp] theorem Wave.vfull_wv (w : Wave) (n : Nat) (m : Word) (g : Nat → Word) (r : Nat) : (w.wv n m g).vfull r = w.vfull r := by
  unfold Wave.wv
  split
  · rename_i x hx
    obtain ⟨hlt, rfl⟩ := List.getElem?_eq_some_iff.1 hx
    by_cases hr : r = n
    · subst hr
      simp [Wave.vfull, hlt, VReg.put]
    · simp [Wave.vfull, Ne.symm hr]
  · rfl

/-- A write of an S register keeps the others. -/
theorem Wave.sr_ws_ne (w : Wave) {n r : Nat} (v : Word) (h : r ≠ n) : (w.ws n v).sr r = w.sr r := by
  simp [Wave.ws, Wave.sr, h.symm]

/-- A write of an index register keeps the others. -/
theorem Wave.xr_wx_ne (w : Wave) {n r : Nat} (v : Word) (h : r ≠ n) : (w.wx n v).xr r = w.xr r := by
  simp [Wave.wx, Wave.xr, h.symm]

/-- What an instruction's results may change of its wave: its destination in the lanes of a mask, a carry predicate e and the flags,
which it keeps where K, and otherwise only sets. -/
structure WaveTouch (d : Option ROp) (n : Nat) (m : Word) (e : Option Nat) (K : Prop) (w v : Wave) : Prop where
  regs : RegsKept w v d n m e
  flags : K → v.fpflags = w.fpflags
  gains : ∀ b, w.fpflags.getLsbD b = true → v.fpflags.getLsbD b = true
  pc : v.pc = w.pc
  stepping : v.stepping = w.stepping
  wid : v.wid = w.wid

section
variable {d : Option ROp} {n : Nat} {m : Word} {e : Option Nat} {K : Prop} {w v u : Wave}

theorem WaveTouch.refl (w : Wave) : WaveTouch d n m e K w w where
  regs := by and_intros <;> intros <;> rfl
  flags _ := rfl
  gains _ h := h
  pc := rfl
  stepping := rfl
  wid := rfl

theorem WaveTouch.trans (h : WaveTouch d n m e K w v) (k : WaveTouch d n m e K v u) : WaveTouch d n m e K w u where
  regs := by
    obtain ⟨hl, hfull, hallot, hs, hx, hp, hq, hmode, hhnd, htr, hepc, hee, htp, hla, hrm, hco⟩ := h.regs
    obtain ⟨kl, kfull, kallot, ks, kx, kp, kq, kmode, khnd, ktr, kepc, kee, ktp, kla, krm, kco⟩ := k.regs
    exact ⟨fun r l h32 h => (kl r l h32 h).trans (hl r l h32 h), fun r => (kfull r).trans (hfull r), kallot.trans hallot
      , fun r h => (ks r h).trans (hs r h), fun r h => (kx r h).trans (hx r h), fun r h1 h2 => (kp r h1 h2).trans (hp r h1 h2)
      , kq.trans hq, kmode.trans hmode, khnd.trans hhnd, ktr.trans htr, kepc.trans hepc, kee.trans hee, ktp.trans htp, kla.trans hla
      , krm.trans hrm, kco.trans hco⟩
  flags hK := (k.flags hK).trans (h.flags hK)
  gains b hb := k.gains b (h.gains b hb)
  pc := k.pc.trans h.pc
  stepping := k.stepping.trans h.stepping
  wid := k.wid.trans h.wid

/-- Steps that each touch a wave touch it together. -/
theorem WaveTouch.foldl {α : Type} {g : Wave → α → Wave} (is : List α) (h : ∀ x, ∀ i ∈ is, WaveTouch d n m e K x (g x i)) (w : Wave) :
    WaveTouch d n m e K w (is.foldl g w) := by
  induction is generalizing w with
  | nil => exact .refl w
  | cons i is ih =>
    exact (h w i (by simp)).trans (ih (fun x j hj => h x j (List.mem_cons_of_mem _ hj)) _)

theorem WaveTouch.wvGrp (k : Nat) (g : Nat → Nat → Word) (w : Wave) : WaveTouch (some (.v k)) n m e K w (w.wvGrp k n m g) := by
  refine WaveTouch.foldl _ (fun x i hi => ?_) w
  have hi : i < n := List.mem_range.1 hi
  refine ⟨⟨fun r l hl h => x.vl_wv _ hl ?_, x.vfull_wv _ _ _, x.allot_wv _ _ _, ?_⟩, fun _ => ?_, fun _ h => ?_, ?_, ?_, ?_⟩
  · obtain h | h | h := h k rfl
    · exact .inl (by omega)
    · exact .inl (by omega)
    · exact .inr h
  all_goals rw [Wave.wv_eq]
  · and_intros <;> intros <;> rfl
  · exact h

theorem WaveTouch.wp {k : Nat} (x : Word) (h : d = some (.p k) ∨ e = some k) (w : Wave) : WaveTouch d n m e K w (w.wp k x) := by
  have hp : ∀ r, d ≠ some (.p r) → e ≠ some r → (w.wp k x).pr r = w.pr r := by
    intro r hd he
    refine w.pr_wp_ne x ?_
    rintro rfl
    exact h.elim hd he
  rw [Wave.wp_eq] at hp ⊢
  refine ⟨⟨fun _ _ _ _ => rfl, fun _ => rfl, rfl, fun _ _ => rfl, fun _ _ => rfl, hp, ?_⟩, fun _ => rfl, fun _ h => h, rfl, rfl, rfl⟩
  and_intros <;> rfl

theorem WaveTouch.wScalar (r : ROp) (x : Nat) (w : Wave) : WaveTouch (some r) n m e K w (w.wScalar r n x) := by
  unfold Wave.wScalar
  split
  · rename_i k
    refine WaveTouch.foldl _ (fun w i hi => ?_) w
    have hi : i < n := List.mem_range.1 hi
    refine ⟨⟨fun _ _ _ _ => rfl, fun _ => rfl, rfl, fun r h => w.sr_ws_ne _ ?_, ?_⟩, fun _ => rfl, fun _ h => h, rfl, rfl, rfl⟩
    · have := h k rfl
      omega
    · and_intros <;> intros <;> rfl
  · rename_i k
    refine ⟨⟨fun _ _ _ _ => rfl, fun _ => rfl, rfl, fun _ _ => rfl, fun r h => w.xr_wx_ne _ ?_, ?_⟩, fun _ => rfl, fun _ h => h, rfl, rfl, rfl⟩
    · rintro rfl
      exact h rfl
    · and_intros <;> intros <;> rfl
  · exact .wp _ (.inl rfl) w
  · exact .refl w

/-- The flags of a float result (R86). -/
theorem WaveTouch.addFlags (x : Word) (w : Wave) : WaveTouch d n m e False w { w with fpflags := w.fpflags ||| x } where
  regs := by and_intros <;> intros <;> rfl
  flags h := h.elim
  gains b h := by rw [BitVec.getLsbD_or, h, Bool.true_or]
  pc := rfl
  stepping := rfl
  wid := rfl

/-- The outstanding count and the range mask are no registers. -/
theorem WaveTouch.counts (x : Nat) (y : Word) (w : Wave) : WaveTouch d n m e K w { w with outst := x, range := y } where
  regs := by and_intros <;> intros <;> rfl
  flags _ := rfl
  gains _ h := h
  pc := rfl
  stepping := rfl
  wid := rfl

end

/-! ### What an instruction's results change of the machine -/

/-- What the results of an instruction may change of the machine: its wave, as `WaveTouch` says, and its queues. -/
structure Touches (c : Ctx) (n : Nat) (e : Option Nat) (K : Prop) (s t : State) : Prop where
  only : OnlyWave c.w.wid s t
  wave : ∀ w, s.wave? c.w.wid = some w → ∃ v, t.wave? c.w.wid = some v ∧ WaveTouch c.d n c.m e K w v

section
variable {c : Ctx} {n : Nat} {e : Option Nat} {K : Prop} {s t u : State}

theorem Touches.refl (s : State) : Touches c n e K s s := ⟨⟨rfl, fun _ _ => rfl⟩, fun w hw => ⟨w, hw, .refl w⟩⟩

theorem Touches.trans (h : Touches c n e K s t) (k : Touches c n e K t u) : Touches c n e K s u where
  only := by
    obtain ⟨hs, hw⟩ := h.only
    obtain ⟨ks, kw⟩ := k.only
    refine ⟨?_, fun j hj => (kw j hj).trans (hw j hj)⟩
    have hk := congrArg (fun x : State => { x with waves := s.waves, streams := s.streams, nextId := s.nextId }) ks
    exact hk.trans hs
  wave w hw := by
    obtain ⟨v, hv, hwv⟩ := h.wave w hw
    obtain ⟨x, hx, hvx⟩ := k.wave v hv
    exact ⟨x, hx, hwv.trans hvx⟩

/-- A wave that is found has the number it is found under. -/
theorem State.wid_of_wave? {k : Nat} {w : Wave} (h : s.wave? k = some w) : w.wid = k := by simpa using List.find?_some h

/-- A wave that is found may be touched. -/
theorem Touches.setWave_of {w v : Wave} (hw : s.wave? c.w.wid = some w) (h : WaveTouch c.d n c.m e K w v) :
    Touches c n e K s (s.setWave v) := by
  have hid : v.wid = c.w.wid := h.wid.trans (State.wid_of_wave? hw)
  refine ⟨⟨rfl, fun k hk => State.wave?_setWave_ne (hid ▸ hk)⟩, fun x hx => ⟨v, ?_, ?_⟩⟩
  · rw [← hid]
    exact State.wave?_setWave_self (hid ▸ hw)
  · rwa [← Option.some.inj (hw.symm.trans hx)]

/-- A wave that is not there has no results. -/
theorem Touches.setWave_of_none {v : Wave} (hw : s.wave? c.w.wid = none) (hid : v.wid = c.w.wid) : Touches c n e K s (s.setWave v) := by
  refine ⟨⟨rfl, fun k hk => State.wave?_setWave_ne (hid ▸ hk)⟩, fun x hx => ?_⟩
  cases hw.symm.trans hx

/-- Results written into the wave. -/
theorem Touches.setWave {v : Wave} (h : WaveTouch c.d n c.m e K (c.wave s) v) : Touches c n e K s (s.setWave v) := by
  cases hw : s.wave? c.w.wid with
  | none => exact .setWave_of_none hw (h.wid.trans (by simp [Ctx.wave, hw]))
  | some w => exact .setWave_of hw (by simpa [Ctx.wave, hw] using h)

/-- A queue's entries and positions are no registers. -/
theorem Touches.setStream (x : Stream) (k : Nat) : Touches c n e K s ({ s with nextId := k }.setStream x) :=
  ⟨⟨rfl, fun _ _ => rfl⟩, fun w hw => ⟨w, hw, .refl w⟩⟩

/-- A push changes a queue and the wave's outstanding count. -/
theorem Touches.pushQ (q : Nat) (m : Word) (vals : List Nat) : Touches c n e K s (pushQ s c.w q m vals) := by
  unfold Machine.pushQ
  split
  · exact .refl s
  · rename_i x hx
    dsimp only
    generalize ht : State.setStream _ _ = t
    have h : Touches c n e K s t := ht ▸ .setStream _ _
    split
    · rename_i w hw
      exact h.trans (.setWave_of hw (.counts _ _ w))
    · exact h

/-- A pop changes a queue and the wave's range mask. -/
theorem Touches.popOne (m : Word) (q : Nat) : Touches c n e K s (popOne s c.w m q) := by
  unfold Machine.popOne
  split
  · rename_i x hx
    dsimp only
    generalize ht : State.setStream _ _ = t
    have h : Touches c n e K s t := ht ▸ .setStream (s := s) _ s.nextId
    split
    · rename_i w hw
      exact h.trans (.setWave_of hw (.counts _ _ w))
    · exact h
  · exact .refl s

theorem Touches.popAll (m : Word) (qs : List Nat) : Touches c n e K s (popAll s c.w m qs) := by
  induction qs generalizing s with
  | nil => exact .refl s
  | cons q qs ih => exact (Touches.popOne m q).trans ih

/-! ### Results (R38, R86, R146, R156) -/

theorem Touches.putScalar (x : Nat) : Touches c n e K s (c.putScalar s n x) := by
  unfold Ctx.putScalar
  split
  · rename_i r hd
    exact .setWave (hd ▸ .wScalar r x _)
  · exact .refl s

theorem Touches.putVec (g : Nat → Nat) : Touches c n e K s (c.putVec s n c.m g) := by
  unfold Ctx.putVec
  split
  · rename_i k hd
    exact .setWave (hd ▸ .wvGrp k _ _)
  · exact .pushQ _ _ _
  · exact .refl s

theorem Touches.putPred (x : Word) : Touches c n e K s (c.putPred s c.m x) := by
  unfold Ctx.putPred
  split
  · rename_i k hd
    exact .setWave (.wp _ (.inl hd) _)
  · exact .refl s

theorem Touches.addFlags (fl : Flags) : Touches c n e False s (c.addFlags s fl) := .setWave (.addFlags _ _)

theorem Touches.putFlagged (g : Nat → Nat × Flags) : Touches c n e False s (c.putFlagged s n g) := (Touches.putVec _).trans (.addFlags _)

theorem Touches.fpTest (dbl : Bool) (comb : Nat) (g : Nat → Nat → Bool × Flags) : Touches c n e False s (fpTest dbl c s comb g) :=
  (Touches.putPred _).trans (.addFlags _)

theorem Touches.putGroup (g : Nat → Nat → Nat × Flags) : Touches c n e False s (c.putGroup s n g) := by
  refine Touches.trans ?_ (.addFlags _)
  split
  · rename_i k hd
    exact .setWave (hd ▸ .wvGrp k _ _)
  · exact .refl s

/-- A reduction's result in a scalar register or in the active lanes, with its flags (R151, R157). -/
theorem Touches.putReduced (x : Nat) (fl : Flags) :
    Touches c n e False s (c.addFlags (match c.d with | some (.s _) => c.putScalar s n x | _ => c.putVec s n c.m fun _ => x) fl) := by
  refine Touches.trans ?_ (.addFlags _)
  split
  · exact .putScalar _
  · exact .putVec _

/-- A carry beside a result (R131). -/
theorem Touches.carry {k : Nat} (h : Touches c n (some k) K s t) (x : Word) :
    Touches c n (some k) K s (t.setWave ((c.wave t).wp k x)) := h.trans (.setWave (.wp _ (.inr rfl) _))

end

end Sys2Proof.Machine

namespace Sys2Proof.Claims

open Sys2Proof.Machine

/-- An instruction that touches no more than its results may is completed with that frame. -/
theorem ends_frame {c : Ctx} {w : Wave} {n : Nat} {e : Option Nat} {K : Prop} {s t : State} (h : Touches c n e K s t) (hw : s.wave? c.w.wid = some w)
    (hs : w.stepping = false) : OnlyWave c.w.wid s (ends c t) ∧ ∃ v, (ends c t).wave? c.w.wid = some v ∧ v.pc = w.pc + 12 ∧ v.st = .ready
      ∧ RegsKept w v c.d n c.m e ∧ (K → v.fpflags = w.fpflags)
      ∧ (∀ b, w.fpflags.getLsbD b = true → v.fpflags.getLsbD b = true) := by
  have hpop : Touches c n e K s (popAll t c.w c.m c.pops) := h.trans (.popAll _ _)
  obtain ⟨v, hv, hwv⟩ := hpop.wave w hw
  have hstep : v.stepping = false := hwv.stepping.trans hs
  have hid : v.wid = c.w.wid := hwv.wid.trans (State.wid_of_wave? hw)
  let u : Wave := { retire v with pc := v.pc + 12, st := .ready }
  have hset : ((popAll t c.w c.m c.pops).setWave u).wave? c.w.wid = some u := hid ▸ State.wave?_setWave_self (w := u) (hid.symm ▸ hv)
  have hends : ends c t = (popAll t c.w c.m c.pops).setWave u := by
    simp only [ends, finish, hv]
    refine afterStep_id fun x hx => ?_
    cases hset.symm.trans hx
    exact hstep
  rw [hends]
  obtain ⟨honly, hothers⟩ := hpop.only
  refine ⟨⟨honly, fun k hk => (State.wave?_setWave_ne (hid.symm ▸ hk)).trans (hothers k hk)⟩, u, hset, ?_⟩
  exact ⟨congrArg (· + 12) hwv.pc, rfl, hwv.regs, hwv.flags, hwv.gains⟩

end Sys2Proof.Claims
end

section
/-! SUPPORT. The register instructions change only their destination (O59): one lemma for each operation that several of them
share, and one for what a body touches. -/

namespace Sys2Proof.Machine

section
variable {c : Ctx} {n : Nat} {e : Option Nat} {K : Prop} {s t : State}

/-- What writes fewer words touches no more. -/
theorem Touches.mono {k : Nat} (h : Touches c n e K s t) (hn : n ≤ k) : Touches c k e K s t where
  only := h.only
  wave w hw := by
    obtain ⟨v, hv, hwv⟩ := h.wave w hw
    obtain ⟨hl, hfull, hallot, hs, hrest⟩ := hwv.regs
    refine ⟨v, hv, { hwv with regs := ⟨fun r l hl32 h => hl r l hl32 fun k hk => ?_, hfull, hallot, fun r h => hs r fun k hk => ?_, hrest⟩ }⟩
    · obtain h | h | h := h k hk
      · exact .inl h
      · exact .inr (.inl (by omega))
      · exact .inr (.inr h)
    · exact (h k hk).imp id fun h => by omega

end

end Sys2Proof.Machine

namespace Sys2Proof.Claims

open Sys2Proof.Machine

section
variable {i : Fields → Instr} {n : Fields → Nat} {e : Fields → Option Nat} {ok : Ctx → Prop} {K : Prop}

/-- An instruction that completes and touches no more than its results may writes only these. -/
theorem writesOnly_of (h : ∀ f s c, ready (i f) f s = some c → ok c →
    ∃ t, exec (i f) s = .next (ends c t) ∧ Touches c (n f) (e f) K (start s) t) : WritesOnly (i, n) e ok K := by
  intro f s c t hr hs hok hexec
  obtain ⟨u, hu, htouch⟩ := h f s c hr hok
  dsimp only at hexec hr ⊢
  rw [hu] at hexec
  cases hexec
  exact ends_frame htouch (ready_wave hr).1 hs

end

/-! ### Scalar and lane integer operations (R112 to R135) -/

theorem scalarOps_writesOnly : ∀ x ∈ scalarOps, WritesOnly x (fun _ => none) (fun _ => True) True := by
  simp only [scalarOps, List.forall_mem_cons, List.not_mem_nil, false_implies, implies_true, and_true]
  and_intros
  all_goals
    refine writesOnly_of fun f s c h _ => ?_
    simp only [exec, execMand, execMor, execMxor, execMandn, execMnot, execMmov, execMpopc, execMfirst, execSadd, execSsub, execSmul, execSmulh
      , execSdiv, execSrem, execSand, execSor, execSxor, execSshl, execSshr, execSsra, execSmin, execSmax, execScmp, execSsel, execSli, execSmov
      , execSbfe, execSbfi, execSclz, execSpopc, maskOp, siaOp, siaShift, issue_ready h]
    exact ⟨_, rfl, .putScalar _⟩

theorem laneOps_writesOnly : ∀ x ∈ laneOps, WritesOnly x (fun _ => none) (fun _ => True) True := by
  have hvec : ∀ x ∈ laneOps.dropLast, WritesOnly x (fun _ => none) (fun _ => True) True := by
    simp only [laneOps, List.dropLast, List.forall_mem_cons, List.not_mem_nil, false_implies, implies_true, and_true]
    and_intros
    all_goals
      refine writesOnly_of fun f s c h _ => ?_
      simp only [exec, execVadd, execVsub, execVmul, execVmulh, execVmad, execVand, execVor, execVxor, execVshl, execVshr, execVsra, execVmin
        , execVmax, execVabs, execVsel, execVbfe, execVbfi, execVpopc, execVclz, execVmov, viaOp, viaShift, issue_ready h]
      exact ⟨_, rfl, .putVec _⟩
  have hcmp : WritesOnly (.vcmp, one) (fun _ => none) (fun _ => True) True := by
    refine writesOnly_of fun f s c h _ => ?_
    simp only [exec, execVcmp, issue_ready h]
    exact ⟨_, rfl, .putPred _⟩
  exact List.forall_mem_append.2 ⟨hvec, List.forall_mem_singleton.2 hcmp⟩

/-- Where the deterministic check does not trap, those that combine lanes write as the others do. -/
theorem crossOps_writesOnly : ∀ x ∈ crossOps, WritesOnly x (fun _ => none) (fun c => c.contDet = false) True := by
  simp only [crossOps, List.forall_mem_cons, List.not_mem_nil, false_implies, implies_true, and_true]
  refine ⟨?mlane, ?vote, ?vbcast, ?vshfl, ?vscan⟩
  case mlane | vote =>
    refine writesOnly_of fun f s c h hok => ?_
    simp only [exec, execMlane, execVote, issue_ready h, hok]
    exact ⟨_, rfl, .putScalar _⟩
  case vbcast | vshfl | vscan =>
    refine writesOnly_of fun f s c h hok => ?_
    simp only [exec, execVbcast, execVshfl, execVscan, issue_ready h, hok]
    exact ⟨_, rfl, .putVec _⟩

/-! ### Float and conversion operations (R143 to R157) -/

/-- `dfrx` writes two words of the mantissa or one of the exponent (R150). -/
theorem dfrx_writesOnly : WritesOnly (.dfrx, two) (fun _ => none) (fun _ => True) False := by
  refine writesOnly_of fun f s c h _ => ?_
  simp only [exec, execDfrx, issue_ready h]
  exact ⟨_, rfl, (Touches.putFlagged _).mono (by unfold two; split <;> omega)⟩

/-- `cvt` writes two words of a 64-bit destination format, one of another, and none where a format is reserved (R152). -/
theorem cvt_writesOnly : WritesOnly (.cvt, fun f => if (fmtOf (f.e 9 5)).any (·.bits == 64) then 2 else 1) (fun _ => none)
    (fun _ => True) False := by
  refine writesOnly_of fun f s c h _ => ?_
  simp only [exec, execCvt, issue_ready h]
  cases fmtOf (f.e 4 0) with
  | none => exact ⟨_, rfl, .refl _⟩
  | some src =>
    cases fmtOf (f.e 9 5) with
    | none => exact ⟨_, rfl, .refl _⟩
    | some dst => exact ⟨_, rfl, .putFlagged _⟩

/-- The tests write a predicate (R146, R147). -/
theorem fpTests_writeOnly : ∀ x ∈ [(Instr.dcmp, one), (.dclass, one), (.fcmp, one), (.fclass, one)],
    WritesOnly x (fun _ => none) (fun _ => True) False := by
  simp only [List.forall_mem_cons, List.not_mem_nil, false_implies, implies_true, and_true]
  and_intros
  all_goals
    refine writesOnly_of fun f s c h _ => ?_
    simp only [exec, execDcmp, execDclass, execFcmp, execFclass, fpCmp, fpClass, issue_ready h]
    exact ⟨_, rfl, .fpTest _ _ _⟩

theorem floatOps_writesOnly : ∀ x ∈ floatOps, WritesOnly x (fun _ => none) (fun _ => True) False := by
  have htest := fpTests_writeOnly
  simp only [List.forall_mem_cons, List.not_mem_nil, false_implies, implies_true, and_true] at htest
  obtain ⟨hdcmp, hdclass, hfcmp, hfclass⟩ := htest
  simp only [floatOps, List.forall_mem_cons, List.not_mem_nil, false_implies, implies_true, and_true]
  refine ⟨?_, ?_, ?_, ?_, ?_, ?_, ?_, ?_, ?_, dfrx_writesOnly, hdcmp, hdclass
    , ?_, ?_, ?_, ?_, ?_, ?_, ?_, ?_, ?_, ?_, ?_, ?_, ?_, hfcmp, hfclass, cvt_writesOnly
    , ?_, ?_, ?_, ?_, ?upd8, ?upf8⟩
  case upd8 | upf8 =>
    refine writesOnly_of fun f s c h _ => ?_
    simp only [exec, execUpd8, execUpf8, issue_ready h]
    exact ⟨_, rfl, .putGroup _⟩
  all_goals
    refine writesOnly_of fun f s c h _ => ?_
    simp only [exec, execDadd, execDsub, execDmul, execDfma, execDmin, execDmax, execDrcpe, execDrsqe, execDldx, execFadd, execFsub, execFmul
      , execFfma, execFmin, execFmax, execFrcp, execFrsq, execFex2, execFlg2, execFsin, execFcos, execFdot2, execPkd8, execPkt3, execUpt3
      , execPkf8, fpArith, fpFunc, fpMinMax, issue_ready h]
    exact ⟨_, rfl, .putFlagged _⟩

/-- `cvs` writes one word, and none where its format is reserved (R87). -/
theorem cvs_writesOnly : WritesOnly (.cvs, one) (fun _ => none) (fun c => c.contDet = false) False := by
  refine writesOnly_of fun f s c h hok => ?_
  simp only [exec, execCvs, issue_ready h, hok]
  cases fmtOf (f.e 9 5) with
  | none => exact ⟨_, rfl, .refl _⟩
  | some g => exact ⟨_, rfl, .putFlagged _⟩

theorem crossFloatOps_writesOnly : ∀ x ∈ crossFloatOps, WritesOnly x (fun _ => none) (fun c => c.contDet = false) False := by
  simp only [crossFloatOps, List.forall_mem_cons, List.not_mem_nil, false_implies, implies_true, and_true]
  refine ⟨cvs_writesOnly, ?mxsc, ?dred, ?fred⟩
  all_goals
    refine writesOnly_of fun f s c h hok => ?_
    simp only [exec, execMxsc, execDred, execFred, fpRed, issue_ready h, hok]
    exact ⟨_, rfl, .putReduced _ _⟩

/-! ### Additions with carry (R131) -/

theorem carryOps_writesOnly : ∀ x ∈ carryOps, WritesOnly x (fun f => some (f.e 2 0)) (fun _ => True) True := by
  simp only [carryOps, List.forall_mem_cons, List.not_mem_nil, false_implies, implies_true, and_true]
  refine ⟨?saddx, ?vaddx⟩
  case saddx =>
    refine writesOnly_of fun f s c h _ => ?_
    simp only [exec, execSaddx, issue_ready h]
    exact ⟨_, rfl, (Touches.putScalar _).carry _⟩
  case vaddx =>
    refine writesOnly_of fun f s c h _ => ?_
    simp only [exec, execVaddx, issue_ready h]
    exact ⟨_, rfl, (Touches.putVec _).carry _⟩

/-- A lane result is in no predicate register. -/
theorem putVec_keeps_pr {c : Ctx} {s : State} {w : Wave} (hw : s.wave? c.w.wid = some w) (n : Nat) (g : Nat → Nat) :
    ∃ v, (c.putVec s n c.m g).wave? c.w.wid = some v ∧ v.stepping = w.stepping ∧ ∀ r, v.pr r = w.pr r := by
  obtain ⟨v, hv, hwv⟩ := (Touches.putVec (n := n) (e := none) (K := True) g).wave w hw
  obtain ⟨-, -, -, -, -, hpr, -⟩ := hwv.regs
  refine ⟨v, hv, hwv.stepping, fun r => ?_⟩
  by_cases hd : c.d = some (.p r)
  · simp only [Ctx.putVec, hd] at hv
    rw [Option.some.inj (hw.symm.trans hv)]
  · exact hpr r hd (by simp)

/-- Completion keeps the predicate registers. -/
theorem ends_keeps_pr {c : Ctx} {s : State} {w : Wave} (hw : s.wave? c.w.wid = some w) (hs : w.stepping = false) :
    ∃ v, (ends c s).wave? c.w.wid = some v ∧ ∀ r, v.pr r = w.pr r := by
  obtain ⟨-, v, hv, -, -, hregs, -⟩ := ends_frame (c := { c with d := none }) (n := 0) (e := none) (K := True) (.refl s) hw hs
  obtain ⟨-, -, -, -, -, hpr, -⟩ := hregs
  exact ⟨v, hv, fun r => hpr r (by simp) (by simp)⟩

/-- A carry beside a lane result changes no bit that its word keeps. -/
theorem putCarry_keeps_bits {c : Ctx} {s : State} {w : Wave} {k : Nat} {x : Word} (hw : s.wave? c.w.wid = some w)
    (hs : w.stepping = false) (hx : ∀ l, c.m.getLsbD l = false → x.getLsbD l = (w.pr k).getLsbD l) (n : Nat) (g : Nat → Nat) :
    ∃ v, (ends c ((c.putVec s n c.m g).setWave ((c.wave (c.putVec s n c.m g)).wp k x))).wave? c.w.wid = some v
      ∧ ∀ l, c.m.getLsbD l = false → (v.pr k).getLsbD l = (w.pr k).getLsbD l := by
  obtain ⟨u, hu, hstep, hpr⟩ := putVec_keeps_pr hw n g
  have hwp : WaveTouch none 0 0 (some k) True u (u.wp k x) := .wp x (.inr rfl) u
  have hid : (u.wp k x).wid = c.w.wid := hwp.wid.trans (State.wid_of_wave? hu)
  have hset : ((c.putVec s n c.m g).setWave (u.wp k x)).wave? c.w.wid = some (u.wp k x) :=
    hid ▸ State.wave?_setWave_self (w := u.wp k x) (hid.symm ▸ hu)
  obtain ⟨v, hv, hvpr⟩ := ends_keeps_pr hset (hwp.stepping.trans (hstep.trans hs))
  refine ⟨v, ?_, fun l hl => ?_⟩
  · rwa [Ctx.wave, hu, Option.getD_some]
  · rw [hvpr, Wave.getLsbD_pr_wp u ((hx l hl).trans (by rw [hpr])), hpr]

/-- A carry is written in the lanes that act (R131). -/
theorem vaddx_keeps_carries {f : Fields} {s t : State} {c : Ctx} (h : ready (.vaddx f) f s = some c) (hs : c.w.stepping = false)
    (hexec : execVaddx f s = .next t) :
    ∃ v, t.wave? c.w.wid = some v ∧ ∀ l, c.m.getLsbD l = false → (v.pr (f.e 2 0)).getLsbD l = (c.w.pr (f.e 2 0)).getLsbD l := by
  rw [execVaddx, issue_ready h] at hexec
  cases hexec
  refine putCarry_keeps_bits (ready_wave h).1 hs (fun l hl => ?_) 1 _
  by_cases h32 : l < 32
  · simp [-BitVec.getLsbD_eq_getElem, hl, h32]
  · rw [BitVec.getLsbD_of_ge _ _ (by omega), BitVec.getLsbD_of_ge _ _ (by omega)]

/-- Settles O59, by what each body touches (`Touches`) and what completion adds (`ends_frame`). -/
theorem registerInstructionsChangeOnlyTheirDestination : Obligations.RegisterInstructionsChangeOnlyTheirDestination := by
  unfold Obligations.RegisterInstructionsChangeOnlyTheirDestination
  exact ⟨List.forall_mem_append.2 ⟨scalarOps_writesOnly, laneOps_writesOnly⟩, floatOps_writesOnly, crossOps_writesOnly
    , crossFloatOps_writesOnly, carryOps_writesOnly, fun f s c t h hs hexec => vaddx_keeps_carries h hs hexec⟩

end Sys2Proof.Claims
end

section
/-! SUPPORT. What loads and stores change of the machine (O60): the records of a list that is modified, what reaching memory leaves
alone, the lanes an instruction issues, and what one performed store writes. -/

namespace Sys2Proof.Machine

open Sys2Proof.Claims

/-! ### Records -/

/-- A search that does not tell a changed record from the old one finds it changed. -/
theorem find?_modify {α : Type} {p q : α → Bool} {g : α → α} (h : ∀ x, p x = true → q (g x) = q x) (l : List α) :
    (modify p g l).find? q = (l.find? q).map fun x => if p x then g x else x := by
  have hq : (q ∘ fun x => if p x then g x else x) = q := by
    funext x
    by_cases hp : p x = true
    · simp [hp, h x hp]
    · simp [hp]
  rw [modify, List.find?_map, hq]

/-- A line that is found has the numbers it is found under. -/
theorem State.key_of_home? {s : State} {asid line : Nat} {h : HomeLine} (hh : s.home? asid line = some h) : h.asid = asid ∧ h.line = line := by
  simpa using List.find?_some hh

/-- The line that is changed. -/
theorem State.home?_modHome_self {s : State} {asid line : Nat} {h : HomeLine} {g : HomeLine → HomeLine} (hh : s.home? asid line = some h)
    (hg : ∀ x, (g x).asid = x.asid ∧ (g x).line = x.line) : (s.modHome asid line g).home? asid line = some (g h) := by
  obtain ⟨ha, hl⟩ := State.key_of_home? hh
  rw [State.home?] at hh
  rw [State.home?, State.modHome, find?_modify (fun x _ => by simp [hg]), hh]
  simp [ha, hl]

/-- Changing a line leaves the others. -/
theorem State.home?_modHome_ne {s : State} {asid line a l : Nat} {g : HomeLine → HomeLine} (h : (a, l) ≠ (asid, line))
    (hg : ∀ x, (g x).asid = x.asid ∧ (g x).line = x.line) : (s.modHome asid line g).home? a l = s.home? a l := by
  rw [State.home?, State.modHome, find?_modify (fun x _ => by simp [hg])]
  cases hx : s.home? a l with
  | none => simpa [State.home?] using hx
  | some x =>
    obtain ⟨rfl, rfl⟩ := State.key_of_home? hx
    rw [State.home?] at hx
    have hne : (x.asid == asid && x.line == line) = false := by simpa using h
    simp only [hx, Option.map_some, hne, Bool.false_eq_true, if_false]

/-- A family that is found has the number it is found under. -/
theorem State.fid_of_fam? {s : State} {k : Nat} {f : Family} (h : s.fam? k = some f) : f.fid = k := by simpa using List.find?_some h

theorem State.fam?_setFam_self {s : State} {f g : Family} (h : s.fam? f.fid = some g) : (s.setFam f).fam? f.fid = some f := by
  have hfid := State.fid_of_fam? h
  rw [State.fam?] at h
  rw [State.fam?, State.setFam, find?_modify (fun x hx => by simp [beq_iff_eq.1 hx]), h]
  simp [hfid]

theorem State.fam?_setFam_ne {s : State} {f : Family} {k : Nat} (h : k ≠ f.fid) : (s.setFam f).fam? k = s.fam? k := by
  rw [State.fam?, State.setFam, find?_modify (fun x hx => by simp [beq_iff_eq.1 hx])]
  cases hx : s.fam? k with
  | none => simpa [State.fam?] using hx
  | some x =>
    have hfid := State.fid_of_fam? hx
    rw [State.fam?] at hx
    have hne : (x.fid == f.fid) = false := by simpa [hfid] using h
    simp only [hx, Option.map_some, hne, Bool.false_eq_true, if_false]

theorem State.spad?_setSpad_self {s : State} {p q : Spad} (h : s.spad? p.node p.core = some q) :
    (s.setSpad p).spad? p.node p.core = some p := by
  have hkey : q.node = p.node ∧ q.core = p.core := by simpa using List.find?_some h
  rw [State.spad?] at h
  rw [State.spad?, State.setSpad, find?_modify (fun x hx => by simpa using hx), h]
  simp [hkey]

/-- The family into whose version a node writes is speculative (R240). -/
theorem State.st_of_specFam {s : State} {n k : Nat} {f : Family} (h : s.specFam n = some k) (hf : s.fam? k = some f) :
    (f.st == .direct) = false := by
  unfold State.specFam at h
  split at h
  · split at h
    · rename_i g hg
      split at h
      · cases h
      · rename_i hst
        cases h
        obtain ⟨j, -, hj⟩ := Option.bind_eq_some_iff.1 hg
        obtain rfl := State.fid_of_fam? hj
        cases hj.symm.trans hf
        simpa using hst
    · cases h
  · cases h

/-! ### Bytes -/

/-- A version holds the byte written last, and of the others what it held (R240). -/
theorem ovGet_ovSet (m : List (Nat × Byte)) (a : Nat) (b : Byte) (p : Nat) : ovGet (ovSet m a b) p = if p = a then some b else ovGet m p := by
  induction m with
  | nil =>
    by_cases h : a = p
    · simp [ovSet, ovGet, h]
    · simp [ovSet, ovGet, h, Ne.symm h]
  | cons x m ih =>
    obtain ⟨y, c⟩ := x
    unfold ovSet
    split
    · by_cases h : a = p
      · simp [ovGet, h]
      · simp [ovGet, h, Ne.symm h]
    · split
      · rename_i hy
        subst hy
        by_cases h : a = p
        · simp [ovGet, h]
        · simp [ovGet, h, Ne.symm h]
      · rename_i hy
        simp only [ovGet, ih]
        by_cases h : y = p
        · subst h
          simp [Ne.symm hy]
        · simp [h]

/-- Bytes written into a version at rising addresses. -/
theorem ovGet_ovSet_bytes (m : List (Nat × Byte)) (a : Nat) (bs : List Byte) (p : Nat) :
    ovGet (((List.range bs.length).zip bs).foldl (fun m ib => ovSet m (a + ib.1) ib.2) m) p
      = if a ≤ p ∧ p < a + bs.length then some (bs.getD (p - a) 0) else ovGet m p := by
  induction bs using List.reverseRecOn generalizing p with
  | nil =>
    have : ¬ (a ≤ p ∧ p < a) := by omega
    simp [this]
  | append_singleton bs b ih =>
    have hzip : (List.range (bs ++ [b]).length).zip (bs ++ [b]) = (List.range bs.length).zip bs ++ [(bs.length, b)] := by
      rw [List.length_append, List.length_singleton, List.range_succ, List.zip_append (by simp)]
      rfl
    rw [hzip, List.foldl_append, List.foldl_cons, List.foldl_nil, ovGet_ovSet, ih]
    by_cases hp : p = a + bs.length
    · simp [hp]
    · by_cases hin : a ≤ p ∧ p < a + bs.length
      · have h1 : a ≤ p ∧ p < a + (bs ++ [b]).length := by simp; omega
        rw [if_neg hp, if_pos hin, if_pos h1, List.getD_append _ _ _ _ (by omega)]
      · have h1 : ¬ (a ≤ p ∧ p < a + (bs ++ [b]).length) := by simp; omega
        rw [if_neg hp, if_neg hin, if_neg h1]

/-- Bytes put in place of as many of a list. -/
theorem getD_splice {d bs : List Byte} {o : Nat} (h : o + bs.length ≤ d.length) (i : Nat) :
    (d.take o ++ bs ++ d.drop (o + bs.length)).getD i 0 = if o ≤ i ∧ i < o + bs.length then bs.getD (i - o) 0 else d.getD i 0 := by
  have ho : (d.take o).length = o := by simp; omega
  by_cases h1 : i < o
  · have : ¬ (o ≤ i ∧ i < o + bs.length) := by omega
    rw [if_neg this, List.append_assoc, List.getD_append _ _ _ _ (by omega)]
    simp [List.getD_eq_getElem?_getD, h1]
  · by_cases h2 : i < o + bs.length
    · rw [if_pos (by omega), List.append_assoc, List.getD_append_right _ _ _ _ (by omega), ho, List.getD_append _ _ _ _ (by omega)]
    · have : ¬ (o ≤ i ∧ i < o + bs.length) := by omega
      rw [if_neg this, List.getD_append_right _ _ _ _ (by simp; omega)]
      simp only [List.getD_eq_getElem?_getD, List.getElem?_drop, List.length_append, ho]
      congr 2
      omega

/-- What a byte of a canonical memory reads as after bytes are written. -/
theorem Memory.get_setBytes {m : Memory} (h : m.wf = true) (a : Nat) (bs : List Byte) (p : Nat) :
    (m.setBytes a bs).get p = if a ≤ p ∧ p < a + bs.length then bs.getD (p - a) 0 else m.get p := by
  split
  · rename_i hp
    obtain ⟨i, rfl⟩ := Nat.exists_eq_add_of_le hp.1
    have hi : i < bs.length := by omega
    rw [Memory.get_setBytes_inside h a bs i hi, Nat.add_sub_cancel_left]
    rfl
  · exact Memory.get_setBytes_outside h a bs p (by omega)

/-! ### What reaching memory leaves alone -/

/-- Two states differ in the copies, names and tags that an access leaves on its way, and in no group's parking. -/
structure Aside (s t : State) : Prop where
  only : { t with plat := { t.plat with groups := s.plat.groups }, names := s.names, tlb := s.tlb, l1 := s.l1, free := s.free
                  clusters := s.clusters } = s
  parked : ∀ pa, t.isParked pa = s.isParked pa

section
variable {s t u : State}

theorem Aside.refl (s : State) : Aside s s := ⟨rfl, fun _ => rfl⟩

theorem Aside.trans (h : Aside s t) (k : Aside t u) : Aside s u where
  only := by
    have hk := congrArg (fun x : State => { x with plat := { x.plat with groups := s.plat.groups }, names := s.names, tlb := s.tlb
                                                   l1 := s.l1, free := s.free, clusters := s.clusters }) k.only
    exact hk.trans h.only
  parked pa := (k.parked pa).trans (h.parked pa)

theorem Aside.foldl {α : Type} {g : State → α → State} (h : ∀ s x, Aside s (g s x)) (l : List α) (s : State) : Aside s (l.foldl g s) := by
  induction l generalizing s with
  | nil => exact .refl s
  | cons x l ih => exact (h s x).trans (ih _)

theorem Aside.homes (h : Aside s t) : t.homes = s.homes := by
  have ho := congrArg State.homes h.only
  exact ho
theorem Aside.mem (h : Aside s t) : t.mem = s.mem := by
  have ho := congrArg State.mem h.only
  exact ho
theorem Aside.spads (h : Aside s t) : t.spads = s.spads := by
  have ho := congrArg State.spads h.only
  exact ho
theorem Aside.waves (h : Aside s t) : t.waves = s.waves := by
  have ho := congrArg State.waves h.only
  exact ho
theorem Aside.redos (h : Aside s t) : t.redos = s.redos := by
  have ho := congrArg State.redos h.only
  exact ho
theorem Aside.nodes (h : Aside s t) : t.nodes = s.nodes := by
  have ho := congrArg State.nodes h.only
  exact ho
theorem Aside.fams (h : Aside s t) : t.fams = s.fams := by
  have ho := congrArg State.fams h.only
  exact ho

theorem Aside.isOwn (h : Aside s t) (pa : Nat) : t.isOwn pa = s.isOwn pa := by
  have ho := congrArg (fun x : State => x.isOwn pa) h.only
  exact ho

/-- A tag changes the tags of its group's share alone. -/
theorem Group.takes_only (g : Group) (pa : Nat) (bank : Bool) : { g.takes pa bank with tags := g.tags } = g := by
  unfold Group.takes
  dsimp only
  split <;> split <;> rfl

theorem Group.takes_parked (g : Group) (pa : Nat) (bank : Bool) : (g.takes pa bank).parked = g.parked := by
  have ho := congrArg Group.parked (g.takes_only pa bank)
  exact ho

theorem Group.takes_holds (g : Group) (pa : Nat) (bank : Bool) (q : Nat) : (g.takes pa bank).holds q = g.holds q := by
  have ho := congrArg (fun x : Group => x.holds q) (g.takes_only pa bank)
  exact ho

/-- The group of an address once one is set. -/
theorem State.groupAt_setGroup (s : State) (g : Group) (pa : Nat) :
    (s.setGroup g).groupAt pa = if g.holds pa then some g else s.groupAt pa := by
  by_cases h : g.holds pa = true
  · simp [State.groupAt, State.setGroup, h]
  · rw [if_neg h]
    simp only [State.groupAt, State.setGroup, List.find?_cons, h, List.find?_filter]
    congr 1
    funext x
    by_cases hx : x.holds pa = true
    · have hne : (x.stack == g.stack && x.half == g.half) = false := by
        by_contra hc
        simp only [Group.holds, Bool.and_eq_true, beq_iff_eq, Bool.not_eq_false] at h hx hc
        exact h ⟨hc.1.symm.trans hx.1, hc.2.symm.trans hx.2⟩
      simp [hx, hne]
    · simp [hx]

/-- The group that an access tags is the one of its address. -/
theorem State.groupOr_eq (s : State) (pa : Nat) : s.groupOr (pa / 2 ^ 36 % 8) (pa / 2 ^ 35 % 2) = (s.groupAt pa).getD
    { stack := pa / 2 ^ 36 % 8, half := pa / 2 ^ 35 % 2, mode := if s.plat.startup then .test else .reserve } := rfl

/-- A tag parks nothing. -/
theorem State.isParked_setGroup_takes (s : State) (pa : Nat) (bank : Bool) (q : Nat) :
    (s.setGroup ((s.groupOr (pa / 2 ^ 36 % 8) (pa / 2 ^ 35 % 2)).takes pa bank)).isParked q = s.isParked q := by
  generalize hg : s.groupOr (pa / 2 ^ 36 % 8) (pa / 2 ^ 35 % 2) = g
  have hkey : g.holds pa = true := by
    rw [← hg, State.groupOr_eq]
    cases hpa : s.groupAt pa with
    | none => simp [Group.holds]
    | some x => exact List.find?_some (p := fun x : Group => x.holds pa) hpa
  simp only [State.isParked, State.groupAt_setGroup, Group.takes_holds]
  by_cases h : g.holds q = true
  · have hq : s.groupAt q = s.groupAt pa := by
      simp only [Group.holds, Bool.and_eq_true, beq_iff_eq] at h hkey
      simp only [State.groupAt, Group.holds, ← h.1, ← h.2, hkey.1, hkey.2]
    rw [if_pos h, hq]
    simp only [Group.takes_parked, ← hg, State.groupOr_eq]
    cases s.groupAt pa <;> rfl
  · rw [if_neg h]

theorem Aside.noteTag (s : State) (pa : Nat) (bank : Bool) : Aside s (s.noteTag pa bank) where
  only := by
    unfold State.noteTag
    dsimp only
    split <;> rfl
  parked q := by
    unfold State.noteTag
    dsimp only
    split
    · rfl
    · exact s.isParked_setGroup_takes pa bank q

/-- An address below the ports has no peer (R161). -/
theorem State.sendFlit_of_lt {pa : Nat} (h : pa < Config.portBase) : s.sendFlit pa = s := by
  simp [State.sendFlit, peerOf, Nat.not_le.2 h]

theorem Aside.reach {x : Trans} {asid va : Nat} (h : x.pa < Config.portBase) : Aside s (s.reach asid va x) := by
  unfold State.reach
  rw [State.sendFlit_of_lt h]
  refine (Aside.noteTag s x.pa x.bank).trans ?_
  dsimp only
  split
  · exact .refl _
  · exact ⟨rfl, fun _ => rfl⟩

theorem Aside.noteWalk (s : State) (asid va : Nat) : Aside s (s.noteWalk asid va) := by
  unfold State.noteWalk
  split
  · exact .refl s
  · split
    · exact .foldl (fun s pa => .noteTag s pa false) _ s
    · exact .refl s

theorem Aside.tlbFill (s : State) (asid va : Nat) : Aside s (s.tlbFill asid va) := by
  unfold State.tlbFill
  split
  · exact .refl s
  · split
    · refine (Aside.noteWalk s asid va).trans ?_
      dsimp only
      split
      · exact .refl _
      · exact ⟨rfl, fun _ => rfl⟩
    · exact .noteWalk s asid va

theorem Aside.roomL1 (s : State) (core : Nat) : Aside s (s.roomL1 core) := by
  unfold State.roomL1 State.choose
  dsimp only
  split
  · split
    all_goals
      rename_i heq
      obtain ⟨-, rfl⟩ := Prod.mk.inj heq
      exact ⟨rfl, fun _ => rfl⟩
  · exact .refl s

theorem Aside.leaveCluster (s : State) (die : Option Nat) (asid va : Nat) : Aside s (s.leaveCluster die asid va) := ⟨rfl, fun _ => rfl⟩

/-- Where the part holds fewer lines than one slice may, a slice has room. -/
theorem Aside.roomFor {va : Nat} {x : Trans} {nt : Bool} (h : s.homes.length < Config.sliceLines) : Aside s (s.roomFor va x nt) := by
  unfold State.roomFor
  split
  · exact .roomL1 s x.core
  · have hlen := List.length_filter_le (State.inSlice (State.sliceOf va x)) s.homes
    rw [State.roomSlice, if_neg (by omega)]
    exact .refl s

end

/-! ### The lanes that an instruction issues (R177, R183, R196) -/

/-- A state that differs from another by accesses in flight, with no byte changed: each new access satisfies P. -/
structure Issues (P : Access → Prop) (s t : State) : Prop where
  mem : t.mem = s.mem
  homes : t.homes = s.homes
  spads : t.spads = s.spads
  accs : ∀ a ∈ t.accs, a ∈ s.accs ∨ P a

section
variable {P : Access → Prop} {s t u : State}

theorem Issues.refl (s : State) : Issues P s s := ⟨rfl, rfl, rfl, fun _ => .inl⟩

theorem Issues.trans (h : Issues P s t) (k : Issues P t u) : Issues P s u where
  mem := k.mem.trans h.mem
  homes := k.homes.trans h.homes
  spads := k.spads.trans h.spads
  accs a ha := (k.accs a ha).elim (h.accs a) .inr

theorem Issues.foldl {α : Type} {g : State → α → State} {l : List α} (h : ∀ x ∈ l, ∀ s, Issues P s (g s x)) (s : State) :
    Issues P s (l.foldl g s) := by
  induction l generalizing s with
  | nil => exact .refl s
  | cons x l ih => exact (h x (by simp) s).trans (ih (fun y hy => h y (List.mem_cons_of_mem _ hy)) _)

/-- As `Issues.foldl`, where values are gathered beside. -/
theorem Issues.foldl_fst {α β : Type} {g : State × β → α → State × β} {l : List α} (h : ∀ x ∈ l, ∀ s, Issues P s.1 (g s x).1)
    (s : State × β) : Issues P s.1 (l.foldl g s).1 := by
  induction l generalizing s with
  | nil => exact .refl s.1
  | cons x l ih => exact (h x (by simp) s).trans (ih (fun y hy => h y (List.mem_cons_of_mem _ hy)) _)

theorem Issues.addAccess {a : Access} (h : ∀ id since pc fam, P { a with id := id, since := since, pc := pc, fam := fam }) (s : State) :
    Issues P s (addAccess s a) where
  mem := rfl
  homes := rfl
  spads := rfl
  accs x hx := by
    obtain hx | hx := List.mem_append.1 hx
    · exact .inl hx
    · obtain rfl := List.mem_singleton.1 hx
      exact .inr (h _ _ _ _)

theorem Issues.groupOf (s : State) (w : Wave) : Issues P s (groupOf s w).2 := by
  unfold Machine.groupOf
  split
  · exact .refl s
  · exact ⟨rfl, rfl, rfl, fun _ => .inl⟩

theorem Issues.openLanding (s : State) (w : Wave) (gid : Nat) (dest : LandDest) (load held : Bool) (vals : List (Nat × Nat)) :
    Issues P s (openLanding s w gid dest load held vals) := by
  unfold Machine.openLanding
  split <;> dsimp only <;> split <;> exact ⟨rfl, rfl, rfl, fun _ => .inl⟩

theorem Issues.addOutst (s : State) (wid n : Nat) : Issues P s (addOutst s wid n) := by
  unfold Machine.addOutst
  split
  · exact ⟨rfl, rfl, rfl, fun _ => .inl⟩
  · exact .refl s

end

/-- What an instruction's lanes issue to the global space: an access of a lane of its mask, at the lane's address. -/
def IssuedBy (c : Ctx) (kind : AccKind) (scope : Nat) (a : Access) : Prop :=
  a.wid = c.w.wid ∧ a.kind = kind ∧ a.scope = scope ∧ a.space = .glob ∧ c.m.getLsbD a.lane = true ∧ a.addr = memAddr c (tyF c.f) a.lane
    ∧ a.size = tySize (tyF c.f)

theorem issues_issueLoads (c : Ctx) (s : State) (gid : Nat) (kind : AccKind) (hits : Bool) (scope : Nat) :
    Issues (IssuedBy c kind scope) s (issueLoads s c gid c.m (tyF c.f) kind hits scope (memAddr c (tyF c.f))).1 := by
  refine Issues.foldl_fst (fun l hl st => ?_) (s, [])
  obtain ⟨-, hm⟩ := List.mem_filter.1 hl
  dsimp only
  split
  · exact .refl _
  · exact .addAccess (fun _ _ _ _ => ⟨rfl, rfl, rfl, rfl, hm, rfl, rfl⟩) _

theorem issues_loaded (c : Ctx) (s : State) (kind : AccKind) (hits : Bool) (scope r : Nat) :
    Issues (IssuedBy c kind scope) s (loaded c s kind hits scope r) :=
  ((Issues.groupOf s c.w).trans (issues_issueLoads c _ _ kind hits scope)).trans (.openLanding ..)

theorem issues_issueStores (c : Ctx) (s : State) (gid : Nat) (rel : Bool) (scope : Nat) :
    Issues (fun a => IssuedBy c (.store rel) scope a ∧ a.data = storeData c (tyF c.f) a.lane) s
      (issueStores s c gid c.m (tyF c.f) rel scope (memAddr c (tyF c.f))) := by
  refine Issues.foldl (fun l hl s => ?_) s
  obtain ⟨-, hm⟩ := List.mem_filter.1 hl
  exact .addAccess (fun _ _ _ _ => ⟨⟨rfl, rfl, rfl, rfl, hm, rfl, rfl⟩, rfl⟩) _

theorem issues_stored (c : Ctx) (s : State) (rel : Bool) (scope : Nat) :
    Issues (fun a => IssuedBy c (.store rel) scope a ∧ a.data = storeData c (tyF c.f) a.lane) s (stored c s rel scope) :=
  ((Issues.groupOf s c.w).trans (issues_issueStores c _ _ rel scope)).trans (.addOutst ..)

/-! ### A performed store (R183, R196, R236, R240) -/

/-- Where no part of the device is written, a store brings its line to its place and writes there. -/
theorem performStore_glob {s : State} {a : Access} {t : Trans} {rel : Bool} (hk : a.kind = .store rel) (hg : a.space = .glob)
    (hpa : t.pa < 2 ^ 39) : performStore s a t = nowPerformed
      (((atPlace s a t).writeVal a.asid (s.specFam a.node) a.addr t (leBytes a.size a.data)).noteWrite a.asid a.addr a.size true) a
      (s.gwctOf a.asid a.addr t) := by
  have hdev : State.isDev t.pa = false := State.isDev_of_lt hpa
  simp [performStore, hk, hg, putBytes, hdev]

/-- A store of a family that is not speculative writes the committed value. -/
theorem State.writeVal_none (s : State) (asid va : Nat) (t : Trans) (bs : List Byte) :
    s.writeVal asid none va t bs = s.writeCommitted asid va t bs := rfl

/-- A line that is on chip is where a store finds it: only its place in the order of eviction and its translation are renewed. -/
theorem atPlace_resident {s : State} {a : Access} {t : Trans} {h : HomeLine} {rel : Bool} (hk : a.kind = .store rel)
    (hh : s.home? a.asid (a.addr / 128) = some h) (hvc : h.vc = false) (hhome : t.home ≠ 3) :
    ∃ g : HomeLine → HomeLine, (∀ x, (g x).asid = x.asid ∧ (g x).line = x.line ∧ (g x).data = x.data ∧ (g x).dirty = x.dirty)
      ∧ atPlace s a t = (s.leaveCluster (some (dieOf a.core)) a.asid a.addr).modHome a.asid (a.addr / 128) g := by
  have hh' : (s.leaveCluster (some (dieOf a.core)) a.asid a.addr).home? a.asid (a.addr / 128) = some h := hh
  unfold atPlace
  simp only [beq_eq_false_iff_ne.2 hhome, hk]
  split
  · rename_i h3
    cases h3
  · split
    · exact ⟨id, fun _ => ⟨rfl, rfl, rfl, rfl⟩, by simp [State.modHome, modify]⟩
    · simp only [State.ensureLine, hh', hvc, Bool.false_eq_true, if_false]
      refine ⟨_, fun _ => ?_, rfl⟩
      exact ⟨rfl, rfl, rfl, rfl⟩

/-- A line with bytes written at an offset, which are newer than those of its frame. -/
def HomeLine.put (h : HomeLine) (o : Nat) (bs : List Byte) : HomeLine :=
  { h with dirty := true, data := h.data.take o ++ bs ++ h.data.drop (o + bs.length) }

theorem HomeLine.put_key (o : Nat) (bs : List Byte) (h : HomeLine) : (h.put o bs).asid = h.asid ∧ (h.put o bs).line = h.line := ⟨rfl, rfl⟩

/-- The committed value of a line at its home is written there. -/
theorem State.writeCommitted_resident {s : State} {asid va : Nat} {t : Trans} {h : HomeLine} (hh : s.home? asid (va / 128) = some h)
    (hhome : t.home ≠ 3) (hpa : t.pa < Config.portBase) (bs : List Byte) :
    s.writeCommitted asid va t bs = s.modHome asid (va / 128) (·.put (va % 128) bs) := by
  simp [State.writeCommitted, HomeLine.put, hh, hhome, Nat.not_le.2 hpa]

/-- A page that is never cached is written in its frame. -/
theorem State.writeCommitted_uncached {s : State} {asid va : Nat} {t : Trans} (hhome : t.home = 3) (bs : List Byte) :
    s.writeCommitted asid va t bs = s.memPut t.pa bs t.bank := by
  unfold State.writeCommitted
  split <;> simp [hhome]

/-- A store to a line at its home changes that line alone. -/
theorem performStore_resident {s : State} {a : Access} {t : Trans} {h : HomeLine} {rel : Bool} (hk : a.kind = .store rel)
    (hg : a.space = .glob) (hh : s.home? a.asid (a.addr / 128) = some h) (hvc : h.vc = false) (hlen : h.data.length = 128)
    (hspan : a.addr % 128 + a.size ≤ 128) (hhome : t.home ≠ 3) (hpa : t.pa < 2 ^ 39) (hfam : s.specFam a.node = none) :
    (performStore s a t).mem = s.mem ∧ (performStore s a t).spads = s.spads
      ∧ (∀ asid line, (asid, line) ≠ (a.asid, a.addr / 128) → (performStore s a t).home? asid line = s.home? asid line)
      ∧ ∃ h', (performStore s a t).home? a.asid (a.addr / 128) = some h' ∧ h'.data.length = 128 ∧ h'.dirty = true
        ∧ ∀ i < 128, h'.data.getD i 0 = if a.addr % 128 ≤ i ∧ i < a.addr % 128 + a.size then
            (leBytes a.size a.data).getD (i - a.addr % 128) 0 else h.data.getD i 0 := by
  obtain ⟨g, hg', hat⟩ := atPlace_resident hk hh hvc hhome
  have hkey : ∀ x, (g x).asid = x.asid ∧ (g x).line = x.line := fun x => ⟨(hg' x).1, (hg' x).2.1⟩
  have hh' : (s.leaveCluster (some (dieOf a.core)) a.asid a.addr).home? a.asid (a.addr / 128) = some h := hh
  have hplace := State.home?_modHome_self hh' hkey
  rw [performStore_glob hk hg hpa, hfam, State.writeVal_none, hat, State.writeCommitted_resident hplace hhome (hpa.trans (by decide))]
  refine ⟨rfl, rfl, fun asid line hne => ?_, _, State.home?_modHome_self hplace (HomeLine.put_key _ _), ?_, rfl, fun i _ => ?_⟩
  · exact (State.home?_modHome_ne hne (HomeLine.put_key _ _)).trans (State.home?_modHome_ne hne hkey)
  · simp [HomeLine.put, (hg' h).2.2.1, hlen]
    omega
  · have hspan' : a.addr % 128 + (leBytes a.size a.data).length ≤ h.data.length := by simpa [hlen] using hspan
    simpa [HomeLine.put, (hg' h).2.2.1] using getD_splice hspan' i

/-- A store to a page that is never cached reaches its frame. -/
theorem atPlace_uncached {s : State} {a : Access} {t : Trans} (hhome : t.home = 3) (hpa : t.pa < 2 ^ 39) : Aside s (atPlace s a t) := by
  simp only [atPlace, hhome, beq_self_eq_true, if_true]
  exact ((Aside.leaveCluster s _ a.asid a.addr).trans (.noteWalk _ a.asid a.addr)).trans (.reach (hpa.trans (by decide)))

/-- A write of HBM where no channel failure parks it changes no line on chip, and memory only where the frame is not the part's own. -/
theorem State.memPut_of_lt {s : State} {pa : Nat} (hpa : pa < 2 ^ 39) (hparked : s.isParked pa = false) (bs : List Byte) (bank : Bool) :
    (s.memPut pa bs bank).homes = s.homes
      ∧ (s.memPut pa bs bank).mem = if s.isOwn pa = true then s.mem else s.mem.setBytes pa bs := by
  have hport : ¬ pa ≥ Config.portBase := Nat.not_le.2 (hpa.trans (by decide))
  unfold State.memPut
  rw [if_neg hport]
  split
  · exact ⟨rfl, rfl⟩
  · simp only [hparked]
    exact ⟨(Aside.noteTag s pa bank).homes, rfl⟩

/-- A store to a page that is never cached writes its bytes in memory, unless the frame is the part's own. -/
theorem performStore_uncached {s : State} {a : Access} {t : Trans} {rel : Bool} (hk : a.kind = .store rel) (hg : a.space = .glob)
    (hhome : t.home = 3) (hpa : t.pa < 2 ^ 39) (hfam : s.specFam a.node = none) (hwf : s.mem.wf = true) (hparked : s.isParked t.pa = false) :
    (performStore s a t).homes = s.homes ∧ ∀ p, (performStore s a t).mem.get p =
      if s.isOwn t.pa = false ∧ t.pa ≤ p ∧ p < t.pa + a.size then (leBytes a.size a.data).getD (p - t.pa) 0 else s.mem.get p := by
  have hat : Aside s (atPlace s a t) := atPlace_uncached hhome hpa
  obtain ⟨hhomes, hmem⟩ := State.memPut_of_lt hpa ((hat.parked t.pa).trans hparked) (leBytes a.size a.data) t.bank
  rw [hat.homes] at hhomes
  rw [hat.mem, hat.isOwn] at hmem
  rw [performStore_glob hk hg hpa, hfam, State.writeVal_none, State.writeCommitted_uncached hhome]
  refine ⟨hhomes, fun p => (congrArg (·.get p) hmem).trans ?_⟩
  cases s.isOwn t.pa with
  | true => simp
  | false => simpa using Memory.get_setBytes hwf t.pa (leBytes a.size a.data) p

/-! ### Stores of a speculative family (R240) -/

/-- A line may be brought to its home, with no other changed in its bytes. -/
structure AtHome (s t : State) : Prop where
  aside : Aside s { t with homes := s.homes }
  lines : ∀ asid line h, s.home? asid line = some h → ∃ h', t.home? asid line = some h' ∧ h'.data = h.data ∧ h'.dirty = h.dirty

theorem AtHome.of_aside {s t : State} (h : Aside s t) : AtHome s t where
  aside := by rwa [← h.homes]
  lines asid line x hx := ⟨x, by rwa [State.home?, h.homes], rfl, rfl⟩

theorem AtHome.trans {s t u : State} (h : AtHome s t) (k : AtHome t u) : AtHome s u where
  aside := by
    refine h.aside.trans ⟨?_, k.aside.parked⟩
    have hk := congrArg (fun x : State => { x with homes := s.homes }) k.aside.only
    exact hk
  lines asid line x hx := by
    obtain ⟨y, hy, hyd, hyb⟩ := h.lines asid line x hx
    obtain ⟨z, hz, hzd, hzb⟩ := k.lines asid line y hy
    exact ⟨z, hz, hzd.trans hyd, hzb.trans hyb⟩

theorem AtHome.modHome {s : State} {asid line : Nat} {g : HomeLine → HomeLine}
    (hg : ∀ x, (g x).asid = x.asid ∧ (g x).line = x.line ∧ (g x).data = x.data ∧ (g x).dirty = x.dirty) :
    AtHome s (s.modHome asid line g) where
  aside := .refl s
  lines a l h hh := by
    have hkey : ∀ x, (g x).asid = x.asid ∧ (g x).line = x.line := fun x => ⟨(hg x).1, (hg x).2.1⟩
    by_cases hal : (a, l) = (asid, line)
    · cases hal
      exact ⟨g h, State.home?_modHome_self hh hkey, (hg h).2.2⟩
    · exact ⟨h, (State.home?_modHome_ne hal hkey).trans hh, rfl, rfl⟩

/-- A line that is nowhere on chip comes beside the others. -/
theorem AtHome.cons {s t : State} {x : HomeLine} (h : Aside s t) (hx : s.home? x.asid x.line = none) :
    AtHome s { t with homes := x :: t.homes } where
  aside := by
    have ha : Aside s { t with homes := s.homes } := by rwa [← h.homes]
    exact ha
  lines asid line y hy := by
    refine ⟨y, ?_, rfl, rfl⟩
    have hne : (x.asid == asid && x.line == line) = false := by
      by_contra hc
      simp only [Bool.not_eq_false, Bool.and_eq_true, beq_iff_eq] at hc
      obtain ⟨rfl, rfl⟩ := hc
      cases hx.symm.trans hy
    rw [State.home?] at hy ⊢
    simpa [hne, h.homes] using hy

theorem AtHome.ensureLine {s : State} {asid va : Nat} {t : Trans} {nt : Bool} (hpa : t.pa < 2 ^ 39)
    (hroom : s.homes.length < Config.sliceLines) : AtHome s (s.ensureLine asid va t nt) := by
  unfold State.ensureLine
  dsimp only
  split
  · split
    · exact (AtHome.of_aside (.roomFor hroom)).trans (.modHome fun _ => ⟨rfl, rfl, rfl, rfl⟩)
    · exact .modHome fun _ => ⟨rfl, rfl, rfl, rfl⟩
  · rename_i hnone
    exact .cons (((Aside.roomFor hroom).trans (.tlbFill _ asid va)).trans (.reach (hpa.trans (by decide)))) hnone

theorem AtHome.atPlace {s : State} {a : Access} {t : Trans} (hpa : t.pa < 2 ^ 39) (hroom : s.homes.length < Config.sliceLines) :
    AtHome s (atPlace s a t) := by
  by_cases hhome : t.home = 3
  · exact .of_aside (atPlace_uncached hhome hpa)
  · have hleave : AtHome s (s.leaveCluster (some (dieOf a.core)) a.asid a.addr) := .of_aside (.leaveCluster ..)
    unfold Machine.atPlace
    simp only [beq_eq_false_iff_ne.2 hhome, Bool.false_eq_true, if_false]
    split
    · exact hleave
    · exact hleave.trans (.ensureLine hpa hroom)

/-- A store of a speculative family changes its version alone. -/
theorem performStore_speculative {s : State} {a : Access} {t : Trans} {k : Nat} {f : Family} {rel : Bool} (hk : a.kind = .store rel)
    (hg : a.space = .glob) (hpa : t.pa < 2 ^ 39) (hfam : s.specFam a.node = some k) (hf : s.fam? k = some f)
    (hroom : s.homes.length < Config.sliceLines) :
    (performStore s a t).mem = s.mem ∧ (performStore s a t).waves = s.waves ∧ (performStore s a t).spads = s.spads
      ∧ (performStore s a t).redos = s.redos ∧ (performStore s a t).nodes = s.nodes
      ∧ (∀ asid line h, s.home? asid line = some h → ∃ h', (performStore s a t).home? asid line = some h'
          ∧ h'.data = h.data ∧ h'.dirty = h.dirty)
      ∧ (∀ j, j ≠ k → (performStore s a t).fam? j = s.fam? j)
      ∧ ∃ g, (performStore s a t).fam? k = some g ∧ { g with writes := f.writes } = f
        ∧ ∀ p, ovGet g.writes p = if a.addr ≤ p ∧ p < a.addr + a.size then some ((leBytes a.size a.data).getD (p - a.addr) 0)
            else ovGet f.writes p := by
  have hat : AtHome s (atPlace s a t) := .atPlace hpa hroom
  have hfams : ∀ j, (atPlace s a t).fam? j = s.fam? j := fun j => by rw [State.fam?, State.fam?, ← hat.aside.fams]
  have hf' := (hfams k).trans hf
  obtain rfl := State.fid_of_fam? hf
  rw [performStore_glob hk hg hpa, hfam]
  simp only [State.writeVal, Option.bind_some, hf', State.st_of_specFam hfam hf, Bool.false_eq_true, if_false]
  generalize hw : List.foldl _ f.writes _ = ws
  have hself : ((atPlace s a t).setFam { f with writes := ws }).fam? f.fid = some { f with writes := ws } := State.fam?_setFam_self hf'
  refine ⟨hat.aside.mem, hat.aside.waves, hat.aside.spads, hat.aside.redos, hat.aside.nodes, hat.lines, fun j hj => ?_, _, hself, rfl
    , fun p => ?_⟩
  · exact (State.fam?_setFam_ne (s := atPlace s a t) (f := { f with writes := ws }) hj).trans (hfams j)
  · subst hw
    simpa using ovGet_ovSet_bytes f.writes a.addr (leBytes a.size a.data) p

/-! ### Stores to a scratchpad (R196) -/

/-- A write in a scratchpad that meets no troupe word. -/
theorem spWrite_of_no_words {s : State} {n k off size v : Nat} {p : Spad} (hp : s.spad? n k = some p) (hw : wordsMet p off size = []) :
    (spWrite s n k off size v).spad? n k = some { p with bytes := p.bytes.setBytes off (leBytes size v) } := by
  obtain ⟨rfl, rfl⟩ : p.node = n ∧ p.core = k := by simpa using List.find?_some hp
  simp only [spWrite, hp, hw, List.foldl_nil]
  exact State.spad?_setSpad_self (p := { p with bytes := p.bytes.setBytes off (leBytes size v) }) hp

/-- A write in a scratchpad changes scratchpads, and takes open bytes for the troupe words that it meets. -/
theorem spWrite_only (s : State) (n k off size v : Nat) : { spWrite s n k off size v with spads := s.spads, free := s.free } = s := by
  unfold spWrite
  split
  · rename_i p _
    dsimp only
    generalize p.bytes.setBytes off (leBytes size v) = m
    have hfold : { ((wordsMet p off size).foldl (fun (m, s) o => let b := freeBytes s 8; (m.setBytes o b.1, b.2)) (m, s)).2 with
        free := s.free } = s :=
      List.foldlRecOn (motive := fun x : Memory × State => { x.2 with free := s.free } = s) _ _ rfl fun _ hx _ _ => hx
    have h := congrArg (fun x : State => { x with spads := s.spads }) hfold
    exact h
  · rfl

/-- A store to a scratchpad writes its bytes there alone. -/
theorem performStore_spad {s : State} {a : Access} {t : Trans} {k : Nat} {rel : Bool} (hk : a.kind = .store rel) (hs : a.space = .spad k) :
    (performStore s a t).mem = s.mem ∧ (performStore s a t).homes = s.homes
      ∧ ∀ p, s.spad? a.node k = some p → p.bytes.wf = true → wordsMet p a.addr a.size = [] →
        ∃ q, (performStore s a t).spad? a.node k = some q ∧ ∀ o, q.bytes.get o =
          if a.addr ≤ o ∧ o < a.addr + a.size then (leBytes a.size a.data).getD (o - a.addr) 0 else p.bytes.get o := by
  have hperf : performStore s a t = nowPerformed (spWrite s a.node k a.addr a.size a.data) a 0 := by simp [performStore, hk, hs]
  have honly := spWrite_only s a.node k a.addr a.size a.data
  have hmem := congrArg State.mem honly
  have hhomes := congrArg State.homes honly
  rw [hperf]
  refine ⟨hmem, hhomes, fun p hp hwf hwords => ⟨_, spWrite_of_no_words hp hwords, fun o => ?_⟩⟩
  simpa using Memory.get_setBytes hwf a.addr (leBytes a.size a.data) o

/-! ### The obligation -/

/-- Settles O60, by what an instruction's lanes issue (`Issues`) and by where a store is performed: in its line, in its frame, in its
family's version or in a scratchpad. -/
theorem memoryChangesOnlyAtTheAccessedBytes : Obligations.MemoryChangesOnlyAtTheAccessedBytes := by
  unfold Obligations.MemoryChangesOnlyAtTheAccessedBytes
  refine ⟨fun c s kind hits scope r => ?loads, fun c s rel scope => ?stores, ?resident, ?uncached, ?speculative, ?spad⟩
  case loads =>
    obtain ⟨hmem, hhomes, hspads, haccs⟩ := issues_loaded c s kind hits scope r
    exact ⟨hmem, hhomes, hspads, haccs⟩
  case stores =>
    obtain ⟨hmem, hhomes, hspads, haccs⟩ := issues_stored c s rel scope
    refine ⟨hmem, hhomes, hspads, fun a ha => (haccs a ha).imp id fun hp => ?_⟩
    obtain ⟨⟨hwid, hkind, hscope, hspace, hm, haddr, hsize⟩, hdata⟩ := hp
    exact ⟨hwid, hkind, hscope, hspace, hm, haddr, hsize, hdata⟩
  case resident => exact fun s a t h rel hk hg hh hvc hlen hspan hhome hpa hfam => performStore_resident hk hg hh hvc hlen hspan hhome hpa hfam
  case uncached => exact fun s a t rel hk hg hhome hpa hfam hwf hparked => performStore_uncached hk hg hhome hpa hfam hwf hparked
  case speculative => exact fun s a t k f rel hk hg hpa hfam hf hroom => performStore_speculative hk hg hpa hfam hf hroom
  case spad => exact fun s a t k rel hk hs => performStore_spad hk hs

end Sys2Proof.Machine
end

section
/-! SUPPORT. What answers a next state (O51): every event, and every instruction whose wave or ray is chosen; and that fetching keeps
the waves and the rays. -/

namespace Sys2Proof.Machine

/-! ### Answers -/

/-- A next state is answered. -/
def Answers (o : Host.Outcome State Fault Refusal) : Prop := ∃ t, o = .next t

theorem answers_next (t : State) : Answers (.next t) := ⟨t, rfl⟩

/-! ### Instructions (R45, R388) -/

theorem issueOr_answers {i : Instr} {f : Fields} {s : State} {skip body : Ctx → State → Act} (h : (s.cur.bind s.wave?).isSome = true) :
    Answers (issueOr i f s skip body) := by
  fun_cases issueOr i f s skip body
  case case1 hnone => simp [hnone] at h
  all_goals exact answers_next _

theorem issueOr_of_no_wave {i : Instr} {f : Fields} {s : State} {skip body : Ctx → State → Act} (h : s.cur.bind s.wave? = none) :
    issueOr i f s skip body = .fault .noWave := by
  simp only [issueOr, h]

theorem issueHint_answers {i : Instr} {f : Fields} {s : State} {body : Ctx → State → State} (h : (s.cur.bind s.wave?).isSome = true) :
    Answers (issueHint i f s body) := by
  fun_cases issueHint i f s body
  case case1 hnone => simp [hnone] at h
  all_goals exact answers_next _

theorem issueHint_of_no_wave {i : Instr} {f : Fields} {s : State} {body : Ctx → State → State} (h : s.cur.bind s.wave? = none) :
    issueHint i f s body = .fault .noWave := by
  simp only [issueHint, h]

theorem issueWord_answers {s : State} {a : State → Act} (h : (s.cur.bind s.wave?).isSome = true) : Answers (issueWord s a) := by
  fun_cases issueWord s a
  case case1 hnone => simp [hnone] at h
  all_goals exact answers_next _

theorem issueWord_of_no_wave {s : State} {a : State → Act} (h : s.cur.bind s.wave? = none) : issueWord s a = .fault .noWave := by
  simp only [issueWord, h]

theorem kiteStep_answers {i : Instr} {s : State} {body : Binding → Ray → State → KAct} (h : (s.curRay.bind s.ray?).isSome = true) :
    Answers (kiteStep i s body) := by
  fun_cases kiteStep i s body
  case case1 hnone => simp [hnone] at h
  all_goals exact answers_next _

theorem kiteStep_of_no_ray {i : Instr} {s : State} {body : Binding → Ray → State → KAct} (h : s.curRay.bind s.ray? = none) :
    kiteStep i s body = .fault .noRay := by
  simp only [kiteStep, h]

/-- Every wave instruction is issued, as a hint, as a word without a meaning or as any other (R45, R47). -/
theorem exec_wave_cases {i : Instr} (h : isWaveInstr i = true) :
    (∃ f skip body, ∀ s, exec i s = issueOr i f s skip body) ∨ (∃ f body, ∀ s, exec i s = issueHint i f s body)
      ∨ ∃ a, ∀ s, exec i s = issueWord s a := by
  obtain ⟨b, rfl⟩ | ⟨b, rfl⟩ | ⟨cls, op, f, ho⟩ := isWaveInstr_cases h
  · simp only [exec]
    exact .inr (.inr ⟨_, fun _ => rfl⟩)
  · simp only [exec]
    exact .inr (.inr ⟨_, fun _ => rfl⟩)
  · by_cases hc : cls = 31
    · subst hc
      obtain ⟨body, hb⟩ := exec_eq_issueHint ho
      exact .inr (.inl ⟨f, body, hb⟩)
    · obtain ⟨skip, body, hb⟩ := exec_eq_issueOr ho hc
      exact .inl ⟨f, skip, body, hb⟩

/-- A wave instruction answers when its wave is chosen. -/
theorem exec_wave_answers {i : Instr} {s : State} (hi : isWaveInstr i = true) (h : (s.cur.bind s.wave?).isSome = true) : Answers (exec i s) := by
  obtain ⟨f, skip, body, hb⟩ | ⟨f, body, hb⟩ | ⟨a, ha⟩ := exec_wave_cases hi
  · exact hb s ▸ issueOr_answers h
  · exact hb s ▸ issueHint_answers h
  · exact ha s ▸ issueWord_answers h

/-- A wave instruction without a wave is a fault. -/
theorem exec_wave_of_no_wave {i : Instr} {s : State} (hi : isWaveInstr i = true) (h : s.cur.bind s.wave? = none) : exec i s = .fault .noWave := by
  obtain ⟨f, skip, body, hb⟩ | ⟨f, body, hb⟩ | ⟨a, ha⟩ := exec_wave_cases hi
  · exact (hb s).trans (issueOr_of_no_wave h)
  · exact (hb s).trans (issueHint_of_no_wave h)
  · exact (ha s).trans (issueWord_of_no_wave h)

/-- Every Kite microinstruction is a step of a ray (R388). -/
theorem exec_eq_kiteStep {i : Instr} (h : isKiteInstr i = true) : ∃ body, ∀ s, exec i s = kiteStep i s body := by
  cases i
  all_goals cases h
  all_goals
    simp only [exec]
    exact ⟨_, fun _ => rfl⟩

/-- Every event of the part answers: each of its cases ends in a next state. -/
theorem exec_event_answers {i : Instr} (hw : isWaveInstr i = false) (hk : isKiteInstr i = false) (s : State) : Answers (exec i s) := by
  cases i
  all_goals cases hw
  all_goals cases hk
  case hostAtomic asid va op size arg cmp =>
    show Answers (execHostAtomic asid va op size arg cmp s)
    fun_cases execHostAtomic asid va op size arg cmp s <;> exact answers_next _
  all_goals
    simp only [exec, execPowerOn, execFunctionReset, execCreate, execDoorbell, execReplyRelease, execReplyEnd, execReplyStep, execGen,
      execGenerationRaiseComplete, execQctlResume, execQctlRerun, execQctlSkip, execCtxSave, execCtxRestore, execCtxDestroy,
      execCtxSlice, execCtxUnslice, execMigrate, execMigrationComplete, execRegisterWrite, execHostWrite, execHostRead,
      execSpdmRequest, execPeerFlit, execSwitchStepAbort, execLinkLaneFailure, execChannelFailure, execChannelTrafficResume,
      execRebuildComplete, execDataloss, execCoreMachineCheck, execBankParityError, execThermalThrottle, execThermalShutdown,
      execWatchdogExpiry, execSaveComplete, execSaveTimeout, execRestoreComplete, execParkTimeout, execWaveOverdue,
      execL1LeaseExpiry, execClusterLineIdle, execRedoOverflowMove, execNodePassedOver, execLongLatencyResult, execAcknowledgement,
      execLoadAtHome, execStoreAtHome, execAtomicAtPlace, execRedoContribution, execDeferredAtomic, execGangForwardArrival,
      execGangReleaseMessage, execStreamFetch, execStreamStore, execHaltingEnd, execShadowBankSwap, execSpill, execShadowBankRearm,
      execRingSlotRead, execNodeDispatch, execWavePlacement, execHoldCommit, execTaskRetirement, execEngineEntryStart,
      execEngineEntryComplete, execPlaneLoadComplete, execArrayContributionApply, execBankCommandPerform, execBredJobStart,
      execBredJobComplete, execKiteRayTake, execRaySuspend, execContGroupClose, execBinAppend, execPassCloseProcess,
      execLeaseClockTick, execFunctionalUnitFree, execArrayCommandStart, execRecoveryImageLoad, execHostLinkTraining]
    repeat' (first | with_reducible exact answers_next _ | split)

end Sys2Proof.Machine
end

section
/-! SUPPORT. Every turn of the schedule answers (O51): a fetch keeps the waves and the rays, so that the wave or the ray of a turn is
still there when its word is performed. -/

namespace Sys2Proof.Machine

/-! ### A fetch keeps the waves (R25, R175) -/

theorem roomI_waves (s : State) (core : Nat) : (roomI s core).waves = s.waves := by
  unfold roomI State.choose
  dsimp only
  split
  · split
    all_goals
      rename_i heq
      obtain ⟨-, rfl⟩ := Prod.mk.inj heq
      rfl
  · rfl

theorem fetchLine_waves {s t : State} {core asid va : Nat} {d : List Byte} (h : fetchLine s core asid va = .ok (d, t)) : t.waves = s.waves := by
  unfold fetchLine at h
  dsimp only at h
  split at h
  · cases h
    rfl
  · split at h
    · cases h
    · split at h
      · cases h
      · cases h
        dsimp only
        split
        · rfl
        · exact roomI_waves _ core

theorem fetch_waves {s t : State} {w : Wave} {b : BitVec 96} (h : fetch s w = .word b t) : t.waves = s.waves := by
  unfold fetch at h
  dsimp only at h
  split at h
  · cases h
  · split at h
    · cases h
    · rename_i hd
      split at h
      · cases h
        exact fetchLine_waves hd
      · split at h
        · cases h
        · rename_i hd2
          cases h
          exact (fetchLine_waves hd2).trans (fetchLine_waves hd)

/-! ### A read at homes keeps the rays (R249, R401) -/

theorem Aside.rays {s t : State} (h : Aside s t) : t.rays = s.rays := by
  have ho := congrArg State.rays h.only
  exact ho

theorem State.memPut_rays (s : State) (pa : Nat) (bs : List Byte) (bank : Bool) : (s.memPut pa bs bank).rays = s.rays := by
  have ho := congrArg State.rays (s.memPut_only pa bs bank)
  exact ho

theorem State.evict_rays (s : State) (h : HomeLine) : (s.evict h).rays = s.rays := by
  show (s.writeBack h).rays = s.rays
  unfold State.writeBack
  split
  · exact s.memPut_rays ..
  · rfl

theorem State.toVictim_rays (s : State) (h : HomeLine) : (s.toVictim h).rays = s.rays := by
  unfold State.toVictim State.choose
  dsimp only
  split
  · exact s.evict_rays h
  · dsimp only [State.modHome, State.raiseMark]
    split
    · split
      all_goals
        rename_i heq
        obtain ⟨-, rfl⟩ := Prod.mk.inj heq
      · exact State.evict_rays _ _
      · rfl
    · rfl

theorem State.roomSlice_rays (s : State) (slice : Nat) (nt : Bool) : (s.roomSlice slice nt).rays = s.rays := by
  unfold State.roomSlice State.choose
  dsimp only
  split
  · split
    all_goals
      rename_i heq
      obtain ⟨-, rfl⟩ := Prod.mk.inj heq
    · split
      · exact State.evict_rays _ _
      · exact State.toVictim_rays _ _
    · rfl
  · rfl

theorem State.roomFor_rays (s : State) (va : Nat) (t : Trans) (nt : Bool) : (s.roomFor va t nt).rays = s.rays := by
  unfold State.roomFor
  split
  · exact (Aside.roomL1 s t.core).rays
  · exact s.roomSlice_rays _ nt

theorem State.reach_rays (s : State) (asid va : Nat) (t : Trans) : (s.reach asid va t).rays = s.rays := by
  have hflit := congrArg State.rays ((s.noteTag t.pa t.bank).sendFlit_only t.pa)
  have htag := (Aside.noteTag s t.pa t.bank).rays
  unfold State.reach
  dsimp only
  split
  · exact hflit.trans htag
  · exact hflit.trans htag

theorem State.ensureLine_rays (s : State) (asid va : Nat) (t : Trans) (nt : Bool) : (s.ensureLine asid va t nt).rays = s.rays := by
  unfold State.ensureLine
  dsimp only
  split
  · split
    · exact s.roomFor_rays va t nt
    · rfl
  · exact (State.reach_rays _ asid va t).trans ((Aside.tlbFill _ asid va).rays.trans (s.roomFor_rays va t nt))

theorem readHome_rays (nt : Bool) (s : State) (asid va : Nat) (t : Trans) : (readHome nt s asid va t).rays = s.rays := by
  unfold readHome
  split
  · rfl
  · exact State.ensureLine_rays _ asid va t nt

/-- What every step of a fold that may fail keeps, the whole fold keeps. -/
theorem foldlM_keeps {α β ε : Type} {g : β → α → Except ε β} {P : β → Prop} (h : ∀ x a y, g x a = .ok y → P x → P y) (l : List α)
    {x y : β} (hl : l.foldlM g x = .ok y) (hx : P x) : P y := by
  induction l generalizing x with
  | nil =>
    cases hl
    exact hx
  | cons a l ih =>
    rw [List.foldlM_cons] at hl
    cases ha : g x a with
    | error e => simp [ha, bind, Except.bind] at hl
    | ok z =>
      simp only [ha, bind, Except.bind] at hl
      exact ih hl (h x a z ha hx)

theorem homeRead_rays {s t : State} {asid va n : Nat} {fam : Option Nat} {nt : Bool} {bs : List Byte}
    (h : homeRead s asid fam va n nt = .ok (bs, t)) : t.rays = s.rays := by
  refine foldlM_keeps (P := fun x : List Byte × State => x.2.rays = s.rays) (fun x p y hy hx => ?_) _ h rfl
  dsimp only at hy
  split at hy
  · cases hy
  · split at hy
    · cases hy
    · cases hy
      exact (readHome_rays nt _ asid _ _).trans hx

theorem rayRead_rays {s t : State} {r : Ray} {fam : Option Nat} {a n : Nat} {bs : List Byte} (h : rayRead s r fam a n = .ok (bs, t)) :
    t.rays = s.rays := by
  unfold rayRead at h
  split at h
  · rename_i hr
    have hopen : ∀ (u : State) (undef : Bool) (d : List Byte), (u.openBytes undef d).2.rays = u.rays := by
      intro u undef d
      unfold State.openBytes
      split <;> rfl
    have ht := congrArg (fun x : List Byte × State => x.2.rays) (Except.ok.inj h)
    exact ht.symm.trans ((hopen _ _ _).trans (homeRead_rays hr))
  · cases h

/-- A ray that reads its copies again stays the ray that it is (R394). -/
theorem reloadRay_rays {s t : State} {b : Binding} {r x : Ray} (h : reloadRay s b r = .ok (x, t)) : x.rid = r.rid ∧ t.rays = s.rays := by
  unfold reloadRay at h
  simp only [bind, Except.bind] at h
  split at h
  · split at h
    · rename_i hnode
      split at h
      · split at h
        · rename_i hinst
          cases h
          exact ⟨rfl, (rayRead_rays hinst).trans (rayRead_rays hnode)⟩
        · cases h
      · cases h
        exact ⟨rfl, rayRead_rays hnode⟩
    · cases h
  · split at h
    · split at h
      · rename_i hinst
        cases h
        exact ⟨rfl, rayRead_rays hinst⟩
      · cases h
    · cases h
      exact ⟨rfl, rfl⟩

/-- A ray whose word is fetched is still there (R388). -/
theorem kiteFetch_ray {s t : State} {r : Ray} {b : BitVec 64} (hr : s.ray? r.rid = some r) (h : kiteFetch s r = .word b t) :
    (t.ray? r.rid).isSome = true := by
  have hset : ∀ (u : State) (x : Ray), x.rid = r.rid → u.rays = s.rays → ((u.setRay x).ray? r.rid).isSome = true := by
    intro u x hx hu
    rw [State.ray?] at hr
    rw [State.ray?, State.setRay, find?_modify (fun y hy => by simpa [hx] using hy), hu, hr]
    rfl
  unfold kiteFetch at h
  split at h
  · cases h
  · split at h
    · cases h
    · split at h
      · cases h
      · rename_i x u hload
        have hkeep : x.rid = r.rid ∧ u.rays = s.rays := by
          split at hload
          · exact reloadRay_rays hload
          · cases hload
            exact ⟨rfl, rfl⟩
        dsimp only at h
        split at h
        · cases h
        · split at h
          · rename_i hread
            cases h
            have hrays := rayRead_rays hread
            rw [State.ray?, hrays]
            exact hset u x hkeep.1 hkeep.2
          · cases h

/-! ### Turns (R93, R95, R388) -/

theorem runAccess_answers (s : State) (id : Nat) : Answers (runAccess s id) := by
  unfold runAccess
  split
  · exact answers_next s
  · split
    · exact exec_event_answers (i := .acknowledgement id) rfl rfl s
    · exact exec_event_answers (i := .deferredAtomic id) rfl rfl s
    · split
      case h_1 => exact exec_event_answers (i := .loadAtHome id) rfl rfl s
      case h_2 => exact exec_event_answers (i := .redoContribution id) rfl rfl s
      case h_3 | h_4 | h_5 | h_6 | h_7 => exact exec_event_answers (i := .atomicAtPlace id) rfl rfl s
      case h_8 | h_9 | h_10 | h_11 => exact exec_event_answers (i := .storeAtHome id) rfl rfl s

/-- A piece of work answers as the event that it stands for. -/
theorem runWork_answers (x : Work) (s : State) : Answers (runWork x s) := by
  cases x with
  | access id => exact runAccess_answers s id
  | stream sid =>
    unfold runWork
    dsimp only
    split
    · split
      · exact exec_event_answers (i := .streamStore sid) rfl rfl s
      · exact exec_event_answers (i := .streamFetch sid) rfl rfl s
    · exact answers_next s
  | gang release node die =>
    cases release with
    | true => exact exec_event_answers (i := .gangReleaseMessage node die) rfl rfl s
    | false => exact exec_event_answers (i := .gangForwardArrival node die) rfl rfl s
  | landing gid => exact exec_event_answers (i := .longLatencyResult gid) rfl rfl s
  | arrayStart core quad bank => exact exec_event_answers (i := .arrayCommandStart core quad bank) rfl rfl s
  | arrayPlane core quad bank => exact exec_event_answers (i := .planeLoadComplete core quad bank) rfl rfl s
  | arrayApply core quad bank => exact exec_event_answers (i := .arrayContributionApply core quad bank) rfl rfl s
  | bankCmd cid => exact exec_event_answers (i := .bankCommandPerform cid) rfl rfl s
  | jobStart jid => exact exec_event_answers (i := .bredJobStart jid) rfl rfl s
  | jobEnd jid => exact exec_event_answers (i := .bredJobComplete jid) rfl rfl s
  | entryStart eid => exact exec_event_answers (i := .engineEntryStart eid) rfl rfl s
  | entryEnd eid => exact exec_event_answers (i := .engineEntryComplete eid) rfl rfl s
  | unitFree core quad unit => exact exec_event_answers (i := .functionalUnitFree core quad unit) rfl rfl s
  | park wid => exact exec_event_answers (i := .parkTimeout wid) rfl rfl s
  | halting wid => exact exec_event_answers (i := .haltingEnd wid) rfl rfl s
  | spill wid => exact exec_event_answers (i := .spill wid) rfl rfl s
  | redoMove slice => exact exec_event_answers (i := .redoOverflowMove slice) rfl rfl s
  | clusterIdle die asid line => exact exec_event_answers (i := .clusterLineIdle die asid line) rfl rfl s
  | lease core asid line => exact exec_event_answers (i := .l1LeaseExpiry core asid line) rfl rfl s
  | rayTake core asid num => exact exec_event_answers (i := .kiteRayTake core asid num) rfl rfl s
  | raySuspend asid num => exact exec_event_answers (i := .raySuspend asid num) rfl rfl s
  | contClose asid owner cont => exact exec_event_answers (i := .contGroupClose asid owner cont) rfl rfl s
  | append id => exact exec_event_answers (i := .binAppend id) rfl rfl s
  | passClose asid desc => exact exec_event_answers (i := .passCloseProcess asid desc) rfl rfl s
  | swap core quad => exact exec_event_answers (i := .shadowBankSwap core quad) rfl rfl s
  | rearm core quad => exact exec_event_answers (i := .shadowBankRearm core quad) rfl rfl s
  | passedOver nid => exact exec_event_answers (i := .nodePassedOver nid) rfl rfl s
  | dispatch nid => exact exec_event_answers (i := .nodeDispatch nid) rfl rfl s
  | place nid => exact exec_event_answers (i := .wavePlacement nid) rfl rfl s
  | hold fid => exact exec_event_answers (i := .holdCommit fid) rfl rfl s
  | ringRead asid ring => exact exec_event_answers (i := .ringSlotRead asid ring) rfl rfl s
  | retire asid queue => exact exec_event_answers (i := .taskRetirement asid queue) rfl rfl s
  | genDone asid => exact exec_event_answers (i := .generationRaiseComplete asid) rfl rfl s
  | migDone asid => exact exec_event_answers (i := .migrationComplete asid) rfl rfl s
  | saveDone asid => exact exec_event_answers (i := .saveComplete asid) rfl rfl s
  | saveLate asid => exact exec_event_answers (i := .saveTimeout asid) rfl rfl s
  | restoreDone asid => exact exec_event_answers (i := .restoreComplete asid) rfl rfl s
  | watchdog asid => exact exec_event_answers (i := .watchdogExpiry asid) rfl rfl s

theorem isWaveInstr_of_encodeWord {i : Instr} {b : BitVec 96} (h : encodeWord i = some b) : isWaveInstr i = true := by
  unfold encodeWord at h
  unfold isWaveInstr
  split
  · rfl
  · rfl
  · rename_i hres hhint
    split at h
    · exact absurd rfl (hres _)
    · exact absurd rfl (hhint _)
    · obtain ⟨x, hx, -⟩ := Option.map_eq_some_iff.1 h
      exact Option.isSome_of_eq_some hx

/-- Every word is one of a wave instruction (R44). -/
theorem isWaveInstr_decodeWord (b : BitVec 96) : isWaveInstr (decodeWord b) = true := by
  exact isWaveInstr_of_encodeWord (encodeWord_decodeWord b).1

/-- A wave that is there runs its next instruction, or what its fetch ends in. -/
theorem runWave_answers {s : State} {w : Wave} (h : (s.wave? w.wid).isSome = true) : Answers (runWave s w) := by
  unfold runWave
  split
  · exact answers_next _
  · exact answers_next _
  · rename_i b t hf
    refine exec_wave_answers (isWaveInstr_decodeWord b) ?_
    show (t.wave? w.wid).isSome = true
    rwa [State.wave?, fetch_waves hf]

/-- The wave that the selector chooses is one of the waves. -/
theorem mem_of_selectWave {s : State} {core quad : Nat} {w : Wave} (h : selectWave s core quad = some w) : w ∈ s.waves := by
  have hcand : ∀ x ∈ (candidates s core quad).filter fun w => w.st == .ready, x ∈ s.waves := by
    intro x hx
    have hx := List.mem_of_mem_filter hx
    unfold candidates at hx
    split at hx
    · simp at hx
    · exact List.mem_of_mem_filter hx
  revert h
  refine List.foldlRecOn (motive := fun o : Option Wave => o = some w → w ∈ s.waves) _ _ (by simp) fun best hbest x hx hw => ?_
  have hx := hcand x hx
  split at hw
  · cases hw
    exact hx
  · split at hw
    · cases hw
      exact hx
    · exact hbest hw

/-- A wave that is there is found, if perhaps not it but another of its number. -/
theorem State.wave?_isSome_iff {s : State} {k : Nat} : (s.wave? k).isSome = true ↔ k ∈ s.waves.map (·.wid) := by
  simp [State.wave?]

/-- A selected wave is still there when its word is fetched. -/
theorem wave?_isSome_of_selected {s : State} {core quad : Nat} {w : Wave} (h : w ∈ s.waves) :
    (((takeUnit (countWaits s core quad w.wid) w).setWave { w with startAt := 0 }).wave? w.wid).isSome = true := by
  have hcount : (countWaits s core quad w.wid).waves.map (·.wid) = s.waves.map (·.wid) := by
    simp only [countWaits, modify, List.map_map]
    refine List.map_congr_left fun x _ => ?_
    simp only [Function.comp]
    split <;> rfl
  have htake : (takeUnit (countWaits s core quad w.wid) w).waves = (countWaits s core quad w.wid).waves := by
    unfold takeUnit
    split <;> rfl
  have hthere : ((takeUnit (countWaits s core quad w.wid) w).wave? w.wid).isSome = true := by
    rw [State.wave?_isSome_iff, htake, hcount]
    exact List.mem_map_of_mem h
  obtain ⟨v, hv⟩ := Option.isSome_iff_exists.1 hthere
  rw [State.wave?_setWave_self (w := { w with startAt := 0 }) hv]
  rfl

theorem issueCycle_answers (s : State) (core quad : Nat) : Answers (issueCycle s core quad) := by
  cases hsel : selectWave ((candidates s core quad).foldl markReady s) core quad with
  | none => exact issueCycle_of_none hsel ▸ answers_next _
  | some w =>
    rw [issueCycle_of_selected hsel]
    exact runWave_answers (wave?_isSome_of_selected (mem_of_selectWave hsel))

theorem kiteTurn_answers (s : State) (rid : Nat) : Answers (kiteTurn s rid) := by
  fun_cases kiteTurn s rid
  case case4 r hr core hplace hrun b t hf i hdec =>
    have hid : r.rid = rid := by simpa using List.find?_some hr
    subst hid
    obtain ⟨-, -, hi⟩ := encodeKiteWord_of_decodeKiteWord hdec
    obtain ⟨body, hb⟩ := exec_eq_kiteStep hi
    have hray := kiteFetch_ray hr hf
    exact hb _ ▸ kiteStep_answers hray
  all_goals exact answers_next _

theorem runTurn_answers {t : Turn} (h : ∀ i, t = .event i → isWaveInstr i = false ∧ isKiteInstr i = false) (s : State) :
    Answers (runTurn t s) := by
  cases t with
  | issue core quad => exact issueCycle_answers s core quad
  | kite rid => exact kiteTurn_answers s rid
  | event i =>
    obtain ⟨hw, hk⟩ := h i rfl
    exact exec_event_answers hw hk s
  | work x => exact runWork_answers x s
  | tick => exact exec_event_answers (i := .leaseClockTick) rfl rfl s

/-- A round of the part's own work holds no event that is given from outside. -/
theorem event_notMem_idleRound (s : State) (i : Instr) : Turn.event i ∉ idleRound s := by
  simp only [idleRound, List.mem_append, List.mem_map, List.mem_flatMap, List.mem_singleton, not_or, not_exists, not_and]
  refine ⟨⟨⟨fun _ _ => ?_, fun r _ => ?_⟩, fun _ _ => ?_⟩, ?_⟩
  · simp
  · split <;> simp
  · simp
  · simp

/-- The next turn is an event only where the schedule says so. -/
theorem turns_of_nextTurn {s : State} {i : Instr} (h : (nextTurn s).1 = .event i) : ∃ ts, s.turns = .event i :: ts := by
  unfold nextTurn at h
  split at h
  · rename_i t ts hts
    exact ⟨ts, by rw [hts]; exact congrArg (· :: ts) h⟩
  · split at h
    · rename_i t ts hts
      exact absurd (by rw [hts]; exact List.mem_cons.2 (.inl h.symm)) (event_notMem_idleRound s i)
    · cases h

/-- Settles O51, by `exec_wave_cases` and `exec_eq_kiteStep` for the instructions of waves and rays, `exec_event_answers` for the events,
and `runTurn_answers` for a step. -/
theorem everyInstructionAnswersAState : Obligations.EveryInstructionAnswersAState := by
  unfold Obligations.EveryInstructionAnswersAState
  refine ⟨fun i s hw hk => ?_, fun i s hi h => exec_wave_of_no_wave hi h, fun i s hi h => ?_, fun s h => ?_⟩
  · cases hwi : isWaveInstr i with
    | true => exact exec_wave_answers hwi (hw hwi)
    | false =>
      cases hki : isKiteInstr i with
      | true =>
        obtain ⟨body, hb⟩ := exec_eq_kiteStep hki
        exact hb s ▸ kiteStep_answers (hk hki)
      | false => exact exec_event_answers hwi hki s
  · obtain ⟨body, hb⟩ := exec_eq_kiteStep hi
    exact (hb s).trans (kiteStep_of_no_ray h)
  · refine runTurn_answers (fun i hi => ?_) _
    obtain ⟨ts, hts⟩ := turns_of_nextTurn hi
    exact h i ts hts

end Sys2Proof.Machine
end

section
/-! SUPPORT. Float and conversion instructions: the claim that follows from each body that several of them share. -/

namespace Sys2Proof.Claims

open Sys2Proof.Machine

/-! ### Bodies that float operations share (R143, R145 to R147, R151) -/

section
variable {i : Fields → Instr} {dbl : Bool}

/-- An instruction whose body writes lane results with flags is `Flagged` (R86). -/
theorem flagged_of {n : Fields → Nat} {g : Ctx → Nat → Nat × Flags} {body : Fields → Ctx → State → Act}
    (hexec : ∀ f s, exec (i f) s = issue (i f) f s (body f)) (hbody : ∀ c s, body c.f c s = .done (c.putFlagged s (n c.f) (g c))) :
    Flagged i n g :=
  completes_of hexec fun c s _ => hbody c s

theorem float_of_fpArith {g : Nat → FV → FV → FV → FV × Flags} (hexec : ∀ f s, exec (i f) s = fpArith dbl (i f) f s g) :
    Float dbl i g :=
  flagged_of hexec fun c s => by cases dbl <;> rfl

theorem float_of_fpFunc {g : FV → FV × Flags} (hexec : ∀ f s, exec (i f) s = fpFunc dbl (i f) f s g) :
    Float dbl i fun _ a _ _ => g a :=
  float_of_fpArith hexec

theorem flagged_of_fpMinMax {isMax : Bool} (hexec : ∀ f s, exec (i f) s = fpMinMax dbl isMax (i f) f s) :
    Flagged i (if dbl then two else one) fun c l =>
      packElems (fpOf dbl (fmtF c.f)) (elemsOf dbl (fmtF c.f)) fun e => fpPick (fpOf dbl (fmtF c.f)) (ftzF c.f) isMax
        (elemAt (fpOf dbl (fmtF c.f)) (c.va.n dbl l) e) (elemAt (fpOf dbl (fmtF c.f)) (c.vb.n dbl l) e) :=
  flagged_of hexec fun c s => by cases dbl <;> rfl

theorem completes_of_fpCmp (hexec : ∀ f s, exec (i f) s = fpCmp dbl (i f) f s) :
    Completes i always fun c s => fpTest dbl c s (c.f.e 4 3) fun l e => (fpIn dbl c c.va l e).cond (c.f.e 2 0) (fpIn dbl c c.vb l e) :=
  completes_of hexec fun _ _ _ => rfl

theorem completes_of_fpClass (hexec : ∀ f s, exec (i f) s = fpClass dbl (i f) f s) :
    Completes i always fun c s => fpTest dbl c s (c.f.e 11 10) fun l e =>
      let b := elemAt (fpOf dbl (fmtF c.f)) (c.va.n dbl l) e
      ((c.f.e 9 0).testBit ((fpIn dbl c c.va l e).classBit ((fpOf dbl (fmtF c.f)).subnormal b)), 0) :=
  completes_of hexec fun _ _ _ => rfl

/-- A reduction whose deterministic check does not trap writes its scalar or the active lanes of D. -/
theorem completes_of_fpRed (hexec : ∀ f s, exec (i f) s = fpRed dbl (i f) f s) :
    Completes i (fun c _ => c.contDet = false) fun c s =>
      let r := fpReduce dbl c
      let n := if dbl then 2 else 1
      c.addFlags (match c.d with | some (.s _) => c.putScalar s n r.1 | _ => c.putVec s n c.m fun _ => r.1) r.2 :=
  completes_of hexec fun c s hdet => by
    simp only [hdet]
    rfl

end

/-- Settles O15: each instruction by the body that its class shares; `dldx`, `dfrx` and `fdot2` have bodies of their own. -/
theorem floatOperationsWriteTheirResults : Obligations.FloatOperationsWriteTheirResults := by
  unfold Obligations.FloatOperationsWriteTheirResults
  refine ⟨?shared, float_of_fpFunc fun _ _ => rfl, float_of_fpFunc fun _ _ => rfl, float_of_fpFunc fun _ _ => rfl
    , float_of_fpFunc fun _ _ => rfl, float_of_fpFunc fun _ _ => rfl, float_of_fpFunc fun _ _ => rfl, float_of_fpFunc fun _ _ => rfl
    , float_of_fpFunc fun _ _ => rfl, ?dldx, ?dfrx, ?fdot2⟩
  case shared =>
    intro dbl
    cases dbl
    all_goals
      exact ⟨float_of_fpArith fun _ _ => rfl, float_of_fpArith fun _ _ => rfl, float_of_fpArith fun _ _ => rfl
        , float_of_fpArith fun _ _ => rfl, flagged_of_fpMinMax fun _ _ => rfl, flagged_of_fpMinMax fun _ _ => rfl
        , completes_of_fpCmp fun _ _ => rfl, completes_of_fpClass fun _ _ => rfl, completes_of_fpRed fun _ _ => rfl⟩
  case dldx => exact flagged_of (fun f s => show _ = execDldx f s from rfl) fun _ _ => rfl
  case dfrx => exact flagged_of (fun f s => show _ = execDfrx f s from rfl) fun _ _ => rfl
  case fdot2 => exact flagged_of (fun f s => show _ = execFdot2 f s from rfl) fun _ _ => rfl

/-! ### Conversions (R87, R88, R154 to R157) -/

/-- Settles O16: a conversion's body is what the claim says of it, where its formats exist and its deterministic check does not trap. -/
theorem conversionsWriteTheirResults : Obligations.ConversionsWriteTheirResults := by
  unfold Obligations.ConversionsWriteTheirResults
  refine ⟨?cvt, ?cvs, ?pkd8, ?upd8, ?pkt3, ?upt3, ?mxsc, ?pkf8, ?upf8⟩
  case cvt =>
    intro src dst
    refine completes_of (fun f s => show _ = execCvt f s from rfl) fun c s hfmt => ?_
    obtain ⟨hsrc, hdst⟩ := hfmt
    simp only [hsrc, hdst]
  case cvs =>
    intro g
    refine completes_of (fun f s => show _ = execCvs f s from rfl) fun c s hcond => ?_
    obtain ⟨hfmt, hdet⟩ := hcond
    simp only [hfmt, hdet]
    rfl
  case mxsc =>
    refine completes_of (fun f s => show _ = execMxsc f s from rfl) fun c s hdet => ?_
    simp only [hdet]
    rfl
  case pkd8 => exact flagged_of (fun f s => show _ = execPkd8 f s from rfl) fun _ _ => rfl
  case upd8 => exact completes_of (fun f s => show _ = execUpd8 f s from rfl) fun _ _ _ => rfl
  case pkt3 => exact flagged_of (fun f s => show _ = execPkt3 f s from rfl) fun _ _ => rfl
  case upt3 => exact flagged_of (fun f s => show _ = execUpt3 f s from rfl) fun _ _ => rfl
  case pkf8 => exact flagged_of (fun f s => show _ = execPkf8 f s from rfl) fun _ _ => rfl
  case upf8 => exact completes_of (fun f s => show _ = execUpf8 f s from rfl) fun _ _ _ => rfl

end Sys2Proof.Claims
end

section
/-! SUPPORT. Float values: what the shift of a significand rounds to in each mode, that a code's value needs no rounding, and what sums
and products are worth. -/

namespace Sys2Proof.Machine

/-! ### The shift of a significand (R80) -/

section
variable {mode m k : Nat} {neg : Bool}

theorem rndShift_snd_eq_false_iff : (rndShift mode neg m k).2 = false ↔ m % 2 ^ k = 0 := by
  simp [rndShift]

/-- A significand that loses no bit is not rounded. -/
theorem rndShift_of_exact (h : m % 2 ^ k = 0) : (rndShift mode neg m k).1 = m / 2 ^ k := by
  simp [rndShift, h, Nat.shiftRight_eq_div_pow]

/-- Towards zero, and in the directed modes on the side of zero: the neighbour below. -/
theorem rndShift_of_toward_zero (h : mode = 1 ∨ mode = 2 ∧ neg = true ∨ mode = 3 ∧ neg = false) :
    (rndShift mode neg m k).1 = m / 2 ^ k := by
  obtain rfl | ⟨rfl, rfl⟩ | ⟨rfl, rfl⟩ := h <;> simp [rndShift, Nat.shiftRight_eq_div_pow]

/-- In the directed modes on the side away from zero: the neighbour above. -/
theorem rndShift_of_away (h : mode = 2 ∧ neg = false ∨ mode = 3 ∧ neg = true) :
    (rndShift mode neg m k).1 = if m % 2 ^ k = 0 then m / 2 ^ k else m / 2 ^ k + 1 := by
  obtain ⟨rfl, rfl⟩ | ⟨rfl, rfl⟩ := h <;> by_cases hr : m % 2 ^ k = 0 <;> simp [rndShift, hr, Nat.shiftRight_eq_div_pow]

/-- Half of a power of two, where a rest is there to be compared with it. -/
theorem two_mul_half_pow (h : m % 2 ^ k ≠ 0) : 2 * (2 ^ k / 2) = 2 ^ k := by
  cases k with
  | zero => exact absurd (Nat.mod_one m) h
  | succ k => rw [Nat.pow_succ']; omega

/-- To the nearest: the neighbour above where the rest is more than half, and at half where the neighbour below is odd (mode 0) or
always (mode 4). -/
theorem rndShift_of_nearest (h : mode = 0 ∨ mode = 4) : (rndShift mode neg m k).1 =
    if 2 ^ k < 2 * (m % 2 ^ k) ∨ 2 * (m % 2 ^ k) = 2 ^ k ∧ (mode = 4 ∨ m / 2 ^ k % 2 = 1) then m / 2 ^ k + 1 else m / 2 ^ k := by
  have hpos : 0 < 2 ^ k := Nat.two_pow_pos k
  by_cases hr : m % 2 ^ k = 0
  · rw [rndShift_of_exact hr, hr, if_neg (by omega)]
  · have hhalf := two_mul_half_pow hr
    have hup : (rndShift mode neg m k).1 = if (if mode = 0 then m % 2 ^ k > 2 ^ k / 2 ∨ m % 2 ^ k = 2 ^ k / 2 ∧ m / 2 ^ k % 2 = 1
        else m % 2 ^ k ≥ 2 ^ k / 2) then m / 2 ^ k + 1 else m / 2 ^ k := by
      obtain rfl | rfl := h <;> simp [rndShift, hr, Nat.shiftRight_eq_div_pow]
    rw [hup]
    refine if_congr ?_ rfl rfl
    split <;> omega

/-- A significand is its quotient and a rest smaller than the unit; the next multiple is one unit further. -/
theorem quotient_rest (m k : Nat) : m / 2 ^ k * 2 ^ k + m % 2 ^ k = m ∧ m % 2 ^ k < 2 ^ k
    ∧ (m / 2 ^ k + 1) * 2 ^ k = m / 2 ^ k * 2 ^ k + 2 ^ k :=
  ⟨Nat.div_add_mod' m _, Nat.mod_lt _ (Nat.two_pow_pos k), Nat.succ_mul _ _⟩

/-- A shift that is exact gives the significand back. -/
theorem rndShift_mul_of_exact (h : (rndShift mode neg m k).2 = false) : (rndShift mode neg m k).1 * 2 ^ k = m := by
  have h0 := rndShift_snd_eq_false_iff.1 h
  rw [rndShift_of_exact h0]
  exact Nat.div_mul_cancel (Nat.dvd_of_mod_eq_zero h0)

theorem rndShift_bounds_of_toward_zero (h : mode = 1 ∨ mode = 2 ∧ neg = true ∨ mode = 3 ∧ neg = false) :
    (rndShift mode neg m k).1 * 2 ^ k ≤ m ∧ m < ((rndShift mode neg m k).1 + 1) * 2 ^ k := by
  obtain ⟨hsplit, hrest, hnext⟩ := quotient_rest m k
  rw [rndShift_of_toward_zero h]
  omega

theorem rndShift_bounds_of_away (h : mode = 2 ∧ neg = false ∨ mode = 3 ∧ neg = true) :
    m ≤ (rndShift mode neg m k).1 * 2 ^ k ∧ (rndShift mode neg m k).1 * 2 ^ k < m + 2 ^ k := by
  obtain ⟨hsplit, hrest, hnext⟩ := quotient_rest m k
  rw [rndShift_of_away h]
  split <;> omega

/-- The nearest multiple is at most half a unit away. -/
theorem rndShift_bounds_of_nearest (h : mode = 0 ∨ mode = 4) :
    2 * ((rndShift mode neg m k).1 * 2 ^ k) ≤ 2 * m + 2 ^ k ∧ 2 * m ≤ 2 * ((rndShift mode neg m k).1 * 2 ^ k) + 2 ^ k := by
  obtain ⟨hsplit, hrest, hnext⟩ := quotient_rest m k
  rw [rndShift_of_nearest h]
  split <;> omega

/-- A tie goes to the even neighbour in mode 0. -/
theorem rndShift_even_of_tie (h : mode = 0) (ht : 2 * (m % 2 ^ k) = 2 ^ k) : (rndShift mode neg m k).1 % 2 = 0 := by
  rw [rndShift_of_nearest (.inl h)]
  split <;> omega

/-- A tie goes to the neighbour above in mode 4. -/
theorem rndShift_above_of_tie (h : mode = 4) (ht : 2 * (m % 2 ^ k) = 2 ^ k) : (rndShift mode neg m k).1 = m / 2 ^ k + 1 := by
  rw [rndShift_of_nearest (.inr h), if_pos (.inr ⟨ht, .inl h⟩)]

end

/-! ### Exact rounding (R69, R70) -/

/-- A value that is a multiple of the grid's unit is not rounded. -/
theorem rndAt_self (mode : Nat) (neg : Bool) (m : Nat) (e : Int) : rndAt mode neg m e e = (m, false) := by
  simp [rndAt]

/-- A value whose unit is that of its format at its place, or of the subnormals where its place is lower, is its own rounding: its code
counts units from the smallest. -/
theorem Fp.roundFin_of_exact {p : Fp} {m : Nat} {e : Int} (mode : Nat) (neg : Bool) (max : Nat)
    (h : e = if leadExp m e - p.fb < p.emin - p.fb then p.emin - p.fb else leadExp m e - p.fb) :
    ∃ tiny, p.roundFin mode neg m e max = ((e - (p.emin - p.fb)).toNat * 2 ^ p.fb + m
      , decide ((e - (p.emin - p.fb)).toNat * 2 ^ p.fb + m > max), tiny, false) := by
  simp only [Fp.roundFin, ← h, rndAt_self]
  exact ⟨_, rfl⟩

/-- A nonzero value that is its own rounding has the code of its magnitude and raises no flag. -/
theorem Fp.round_of_exact {p : Fp} {m c : Nat} {e : Int} (mode : Nat) (neg : Bool) (hm : m ≠ 0)
    (h : e = if leadExp m e - p.fb < p.emin - p.fb then p.emin - p.fb else leadExp m e - p.fb)
    (hc : (e - (p.emin - p.fb)).toNat * 2 ^ p.fb + m = c) (hmax : c ≤ p.maxFin) :
    p.round mode false (.fin neg m e) = (p.sign neg + c, 0) := by
  obtain ⟨tiny, hr⟩ := p.roundFin_of_exact mode neg p.maxFin h
  rw [hc] at hr
  simp [Fp.round, hm, hr, flagIf, hmax]

/-- A subnormal significand, zero included, is its own code. -/
theorem Fp.round_subnormal {p : Fp} {m : Nat} (mode : Nat) (neg : Bool) (hm : m < 2 ^ p.fb) (hmax : m ≤ p.maxFin) :
    p.round mode false (.fin neg m (p.emin - p.fb)) = (p.sign neg + m, 0) := by
  by_cases h0 : m = 0
  · simp [Fp.round, h0]
  · have hlead : m.log2 < p.fb := (Nat.log2_lt h0).2 hm
    refine p.round_of_exact mode neg h0 ?_ (by simp) hmax
    rw [if_pos (by unfold leadExp; omega)]

/-- A normal significand of exponent code x rounds to the code that holds both. -/
theorem Fp.round_normal {p : Fp} {x fr : Nat} (mode : Nat) (neg : Bool) (hx : x ≠ 0) (hfr : fr < 2 ^ p.fb)
    (hmax : x * 2 ^ p.fb + fr ≤ p.maxFin) :
    p.round mode false (.fin neg (2 ^ p.fb + fr) ((x : Int) - p.bias - p.fb)) = (p.sign neg + (x * 2 ^ p.fb + fr), 0) := by
  have hpos : 0 < 2 ^ p.fb := Nat.two_pow_pos p.fb
  have hlead : (2 ^ p.fb + fr).log2 = p.fb := (Nat.log2_eq_iff (by omega)).2 ⟨by omega, by rw [Nat.pow_succ]; omega⟩
  refine p.round_of_exact mode neg (by omega) ?_ ?_ hmax
  · rw [leadExp, hlead, Fp.emin, if_neg (by omega)]
    omega
  · obtain ⟨y, rfl⟩ := Nat.exists_eq_succ_of_ne_zero hx
    have hunits : (((y + 1 : Nat) : Int) - p.bias - p.fb - (p.emin - p.fb)).toNat = y := by
      unfold Fp.emin
      omega
    rw [hunits, Nat.succ_mul, Nat.add_assoc]

/-- A code is its sign, its exponent field and its fraction field. -/
theorem Fp.code_eq {p : Fp} {b : Nat} (hb : b < 2 ^ p.width) :
    p.sign (b / 2 ^ (p.eb + p.fb) % 2 == 1) + (b / 2 ^ p.fb % 2 ^ p.eb * 2 ^ p.fb + b % 2 ^ p.fb) = b := by
  have hlow : b % 2 ^ (p.eb + p.fb) = b / 2 ^ p.fb % 2 ^ p.eb * 2 ^ p.fb + b % 2 ^ p.fb := by
    rw [Nat.add_comm p.eb, Nat.pow_add, Nat.mod_mul, Nat.mul_comm, Nat.add_comm]
  have hsign : b / 2 ^ (p.eb + p.fb) < 2 := by
    rw [Nat.div_lt_iff_lt_mul (Nat.two_pow_pos _), ← Nat.pow_succ']
    exact hb.trans_eq (by rw [Fp.width]; congr 1; omega)
  have hsplit := Nat.div_add_mod b (2 ^ (p.eb + p.fb))
  rw [← hlow]
  obtain h | h : b / 2 ^ (p.eb + p.fb) = 0 ∨ b / 2 ^ (p.eb + p.fb) = 1 :=
    Nat.le_one_iff_eq_zero_or_eq_one.1 (Nat.le_of_lt_succ hsign)
  · rw [h] at hsplit ⊢
    simpa [Fp.sign] using hsplit
  · rw [h] at hsplit ⊢
    simpa [Fp.sign] using hsplit

/-- An exponent field below the special one keeps a code finite. -/
theorem Fp.le_maxFin {p : Fp} {x fr : Nat} (hx : x < 2 ^ p.eb - 1) (hfr : fr < 2 ^ p.fb) : x * 2 ^ p.fb + fr ≤ p.maxFin := by
  have hle : (x + 1) * 2 ^ p.fb ≤ p.inf := Nat.mul_le_mul_right _ hx
  rw [Nat.succ_mul] at hle
  unfold Fp.maxFin
  omega

/-- Every code of an IEEE format but a NaN is the rounding of its value, without a flag. -/
theorem Fp.round_decode {p : Fp} {b : Nat} (mode : Nat) (hb : b < 2 ^ p.width) (hnan : (p.decode b).isNan = false) :
    p.round mode false (p.decode b) = (b, 0) := by
  have hcode := Fp.code_eq hb
  have hfr : b % 2 ^ p.fb < 2 ^ p.fb := Nat.mod_lt _ (Nat.two_pow_pos _)
  have hx : b / 2 ^ p.fb % 2 ^ p.eb < 2 ^ p.eb := Nat.mod_lt _ (Nat.two_pow_pos _)
  unfold Fp.decode at hnan ⊢
  simp only [beq_iff_eq] at hnan ⊢
  split_ifs at hnan ⊢ with hspecial hinf hsub
  · rw [hspecial, hinf] at hcode
    exact Prod.ext hcode rfl
  · cases hnan
  · rw [hsub, Nat.zero_mul, Nat.zero_add] at hcode
    have hmax := Fp.le_maxFin (p := p) (x := 0) (by omega) hfr
    rw [Nat.zero_mul, Nat.zero_add] at hmax
    rw [p.round_subnormal mode _ hfr hmax, hcode]
  · rw [p.round_normal mode _ hsub hfr (Fp.le_maxFin (by omega) hfr), hcode]

/-! ### NaN operands and zero sums (R70, R82) -/

theorem FV.isNan_add {a b : FV} (mode : Nat) (h : a.isNan = true ∨ b.isNan = true) : (FV.add mode a b).1.isNan = true := by
  cases a with
  | nan s => cases b <;> rfl
  | inf x => cases b <;> simp_all [FV.isNan, FV.add]
  | fin x m e => cases b <;> simp_all [FV.isNan, FV.add]

theorem FV.isNan_mul {a b : FV} (h : a.isNan = true ∨ b.isNan = true) : (FV.mul a b).1.isNan = true := by
  cases a with
  | nan s => cases b <;> rfl
  | inf x => cases b <;> simp_all [FV.isNan, FV.mul]
  | fin x m e => cases b <;> simp_all [FV.isNan, FV.mul]

/-- Two magnitudes that cancel leave a zero whose sign the mode decides. -/
theorem FV.add_cancel (mode : Nat) {m : Nat} (hm : m ≠ 0) (e : Int) :
    (FV.add mode (.fin false m e) (.fin true m e)).1 = .fin (mode == 3) 0 0 := by
  simp [FV.add, ofSigned, hm, mRDN]

/-! ### DYN8 (R77, R79) -/

/-- Encoding gives back each of the 256 codes whose value it is given. -/
theorem encodeDyn8_decodeDyn8 : ∀ b, b < 256 → (encodeDyn8 (decodeDyn8 b)).1 = b := by decide +kernel

end Sys2Proof.Machine

namespace Sys2Proof.Claims

open Sys2Proof.Machine

/-! ### What values are worth (R70, R144) -/

theorem ratOf_fin (x : Bool) (m : Nat) (e : Int) : ratOf (.fin x m e) = (if x then -(m : Int) else m : Int) * (2 : Rat) ^ e := by
  cases x <;> simp [ratOf]

/-- A signed multiple of a power of two as a value is worth that multiple. -/
theorem ratOf_ofSigned (z : Bool) (n e : Int) : ratOf (ofSigned z n e) = n * (2 : Rat) ^ e := by
  unfold ofSigned
  split
  · rename_i h
    simp [ratOf_fin, beq_iff_eq.1 h]
  · rw [ratOf_fin]
    congr 2
    by_cases hn : n < 0
    · simp [hn, abs_of_neg hn]
    · simp [hn, abs_of_nonneg (not_lt.1 hn)]

/-- The same value counted in a smaller unit. -/
theorem ratOf_fin_rescale (x : Bool) (m : Nat) {e q : Int} (h : q ≤ e) :
    ratOf (.fin x m e) = (if x then -(m * 2 ^ (e - q).toNat : Nat) else (m * 2 ^ (e - q).toNat : Nat) : Int) * (2 : Rat) ^ q := by
  have hpow : (2 : Rat) ^ e = 2 ^ (e - q).toNat * 2 ^ q := by
    rw [← zpow_natCast, ← zpow_add₀ (by norm_num)]
    congr 1
    omega
  rw [ratOf_fin, hpow]
  cases x <;> simp <;> ring

/-- A sum is exact and raises no flag. -/
theorem ratOf_add (mode : Nat) (x : Bool) (m : Nat) (e : Int) (y : Bool) (n : Nat) (g : Int) :
    ratOf ((FV.fin x m e).add mode (.fin y n g)).1 = ratOf (.fin x m e) + ratOf (.fin y n g)
      ∧ ((FV.fin x m e).add mode (.fin y n g)).2 = 0 := by
  by_cases hz : m = 0 ∧ n = 0
  · obtain ⟨rfl, rfl⟩ := hz
    simp [FV.add, ratOf]
  · have hz' : (m == 0 && n == 0) = false := by simpa using hz
    simp only [FV.add, hz', Bool.false_eq_true, if_false, and_true]
    rw [ratOf_ofSigned, ratOf_fin_rescale x m (q := if e < g then e else g) (by split <;> omega)
      , ratOf_fin_rescale y n (q := if e < g then e else g) (by split <;> omega), ← add_mul, Int.cast_add]

/-- A product is exact and raises no flag. -/
theorem ratOf_mul (x : Bool) (m : Nat) (e : Int) (y : Bool) (n : Nat) (g : Int) :
    ratOf ((FV.fin x m e).mul (.fin y n g)).1 = ratOf (.fin x m e) * ratOf (.fin y n g)
      ∧ ((FV.fin x m e).mul (.fin y n g)).2 = 0 := by
  refine ⟨?_, rfl⟩
  simp only [FV.mul, ratOf, zpow_add₀ (two_ne_zero (α := Rat))]
  cases x <;> cases y <;> simp <;> ring

/-- A fused product is exact before its rounding. -/
theorem ratOf_fma (mode : Nat) (x : Bool) (m : Nat) (e : Int) (y : Bool) (n : Nat) (g : Int) (z : Bool) (k : Nat) (h : Int) :
    ratOf ((FV.fin x m e).fma mode (.fin y n g) (.fin z k h)).1 = ratOf (.fin x m e) * ratOf (.fin y n g) + ratOf (.fin z k h) := by
  rw [← (ratOf_mul x m e y n g).1]
  exact (ratOf_add mode _ _ _ z k h).1

/-! ### The obligation -/

/-- Settles O58: codes by `Fp.round_decode`, the shift by its bounds in each mode, sums and products by what they are worth. -/
theorem floatValuesRoundOnce : Obligations.FloatValuesRoundOnce := by
  unfold Obligations.FloatValuesRoundOnce
  refine ⟨fun p _ mode b hb hnan => Fp.round_decode mode hb hnan, fun _ _ _ _ _ => rfl, ?shift, ratOf_add, ratOf_mul, ratOf_fma
    , fun mode a b h => ⟨FV.isNan_add mode h, FV.isNan_mul h⟩, fun mode m e hm => FV.add_cancel mode hm e, encodeDyn8_decodeDyn8⟩
  case shift =>
    intro mode neg m k
    exact ⟨rndShift_snd_eq_false_iff, rndShift_mul_of_exact, fun h => rndShift_bounds_of_toward_zero (.inl h), rndShift_bounds_of_away
      , fun h => rndShift_bounds_of_toward_zero (.inr h), rndShift_bounds_of_nearest, rndShift_even_of_tie, rndShift_above_of_tie⟩

end Sys2Proof.Claims
end

section
/-! SUPPORT. Control, mask and identity instructions: when a wave guard acts, what a branch without operands is prepared with, and the
conditions of branches and votes. -/

namespace Sys2Proof.Machine

/-! ### The wave rule (R37) -/

/-- Under rule W an instruction acts where its guard is the constant one or leaves a lane. -/
theorem acts_wave_eq_true_iff {f : Fields} {m : Word} : acts .wave f m = some true ↔ (f.neg = false ∧ f.pred = 0) ∨ m ≠ 0 := by
  simp [acts]

theorem acts_wave_eq_false_iff {f : Fields} {m : Word} : acts .wave f m = some false ↔ ¬ ((f.neg = false ∧ f.pred = 0) ∨ m ≠ 0) := by
  simp [acts]

/-- A control instruction without operands whose guard acts is ready, with nothing to pop (R100). -/
theorem prepare_of_ctlShape {i : Instr} {f : Fields} {w : Wave} {ext ok : Bool} (s : State)
    (hs : shape i = some (ctlShape f ext (modOk := ok))) (hok : shapeOk (ctlShape f ext (modOk := ok)) f = true) (hlive : isLive i = false)
    (ha : acts .wave f (w.exec &&& guardOf w f) = some true) :
    ∃ c, prepare i f w s = .go c ∧ c.w = w ∧ c.f = f ∧ c.pops = [] := by
  have h5 : step5 (ctlShape f ext (modOk := ok)) f w.allot = none := rfl
  have h7 : step7 (ctlShape f ext (modOk := ok)) f w = none := rfl
  have ha' : acts (ctlShape f ext (modOk := ok)).rule f (w.exec &&& guardOf w f) = some true := ha
  simp only [prepare, hs, hok, h5, ha', h7, liveRegs, hlive]
  exact ⟨_, rfl, rfl, rfl, rfl⟩

/-! ### The conditions of branches and votes (R102, R103, R114) -/

theorem brsCond_eq_true_iff {k : Nat} {a : Int} :
    brsCond k a = true ↔ (k = 0 ∧ a = 0) ∨ (k = 1 ∧ a ≠ 0) ∨ (k = 2 ∧ a < 0) ∨ (k ≥ 3 ∧ 0 ≤ a) := by
  match k with
  | 0 | 1 | 2 => simp [brsCond]
  | _ + 3 => simp [brsCond]

theorem brmCond_eq_true_iff {k : Nat} (hk : k < 4) {a e : Word} :
    brmCond k a e = true ↔ (k = 0 ∧ a &&& e ≠ 0) ∨ (k = 1 ∧ a &&& e = e) ∨ (k = 2 ∧ a &&& e = 0) ∨ (k = 3 ∧ a &&& e ≠ e) := by
  match k with
  | 0 | 1 | 2 | 3 => simp [brmCond]
  | _ + 4 => omega

theorem voteVal_eq_true_iff {k : Nat} (hk : k < 4) {m : Word} {a : SrcVal} :
    voteVal k m a = true ↔ (k = 0 ∧ a.scalar &&& m ≠ 0) ∨ (k = 1 ∧ a.scalar &&& m = m) ∨ (k = 2 ∧ (a.scalar &&& m = 0 ∨ a.scalar &&& m = m))
      ∨ (k = 3 ∧ ∀ l < 32, m.getLsbD l → a.w l = a.w (lowLane m)) := by
  match k with
  | 0 | 1 | 2 => simp [voteVal]
  | 3 => simp [voteVal, laneList, lane, imp_iff_not_or, -BitVec.getLsbD_eq_getElem]
  | _ + 4 => omega

theorem branchIf_of_iff {c : Ctx} {s : State} {b : Bool} {P : Prop} [Decidable P] (h : b = true ↔ P) :
    branchIf c s b = if P then .jump s (c.w.pc + BitVec.ofInt 64 (12 * c.f.off)) else .done s := if_congr h rfl rfl

/-- A field of two bits. -/
theorem m_one_zero_lt (f : Fields) : f.m 1 0 < 4 := Nat.mod_lt _ (by decide)

/-! ### Counting and finding lanes (R112) -/

/-- A count of lanes is a word. -/
theorem toNat_popCount (m : Word) : (BitVec.ofNat 32 (popCount m)).toNat = popCount m := by
  have hlen : popCount m ≤ laneList.length := List.length_filter_le ..
  rw [BitVec.toNat_ofNat, Nat.mod_eq_of_lt (hlen.trans_lt (by decide))]

/-- The lowest lane of a mask, or all ones where it has none. -/
theorem toNat_firstLane (m : Word) : (if m == 0 then allLanes else BitVec.ofNat 32 (lowLane m)).toNat
    = (laneList.find? fun l => lane m l).getD 0xFFFFFFFF := by
  unfold lowLane
  cases h : laneList.find? fun l => lane m l with
  | none =>
    have hzero : m = 0 := BitVec.eq_of_getLsbD_eq fun l hl => by
      simpa [lane] using List.find?_eq_none.1 h l (List.mem_range.2 hl)
    simp [hzero]
  | some l =>
    have hl : l < 32 := List.mem_range.1 (List.mem_of_find?_eq_some h)
    have hm : m ≠ 0 := by
      rintro rfl
      simpa [lane] using List.find?_some h
    simp only [beq_eq_false_iff_ne.2 hm, Bool.false_eq_true, if_false, Option.getD_some, BitVec.toNat_ofNat]
    omega

/-! ### Determinism (R213, R328) -/

/-- An atomic outside `.troupe` scope takes the determinism trap under DET. -/
theorem atomLanes_of_det {c : Ctx} {s : State} {kind : AccKind} {wide ret : Bool} {off : Int} (h : c.f.m 5 3 ≠ 1 ∧ c.det = true) :
    atomLanes c s kind wide ret false off = .det := by
  obtain ⟨hscope, hdet⟩ := h
  simp [atomLanes, hscope, hdet]

end Sys2Proof.Machine

namespace Sys2Proof.Claims

open Sys2Proof.Machine

/-! ### Control (R100 to R106) -/

/-- Settles O1: every transfer is its body's, by the conditions' own lemmas; a guard that acts readies `bra` (`prepare_of_ctlShape`), and one that
does not skips it (`exec_of_skip`). -/
theorem controlTransfersGoWhereTheSpecSays : Obligations.ControlTransfersGoWhereTheSpecSays := by
  unfold Obligations.ControlTransfersGoWhereTheSpecSays
  refine ⟨?nop, ?bra, ?brs, ?brm, ?call, ?ret, ?jmpi, ?loop, ?guarded, ?skipped⟩
  case nop => exact completes_of (fun f s => show _ = execNop f s from rfl) fun _ _ _ => rfl
  case bra => exact jumps_of (fun f s => show _ = execBra f s from rfl) fun _ _ _ => rfl
  case call => exact jumps_of (fun f s => show _ = execCall f s from rfl) fun _ _ _ => rfl
  case ret => exact jumps_of (fun f s => show _ = execRet f s from rfl) fun _ _ _ => rfl
  case jmpi => exact jumps_of (fun f s => show _ = execJmpi f s from rfl) fun _ _ _ => rfl
  case brs =>
    intro f s c h
    obtain rfl := ready_f h
    rw [show exec (.brs c.f) s = execBrs c.f s from rfl, execBrs, issue_ready h, branchIf_of_iff brsCond_eq_true_iff]
  case brm =>
    intro f s c h
    obtain rfl := ready_f h
    rw [show exec (.brm c.f) s = execBrm c.f s from rfl, execBrm, issue_ready h, branchIf_of_iff (brmCond_eq_true_iff (m_one_zero_lt c.f))]
  case loop =>
    intro f s c h
    obtain rfl := ready_f h
    rw [show exec (.loop c.f) s = execLoop c.f s from rfl, execLoop, issue_ready h, branchIf_of_iff bne_iff_ne]
  case guarded =>
    intro f s w sh hw hs hp hsh hok
    cases hsh
    split
    · rename_i hact
      obtain ⟨c, hc, rfl, rfl, hpops⟩ := prepare_of_ctlShape (i := .bra f) (start s) rfl hok rfl (acts_wave_eq_true_iff.2 hact)
      exact ⟨c, rfl, hpops, issue_go (body := fun c s => .jump s (branchTarget c)) hw hs hp hc⟩
    · rename_i hact
      exact exec_of_skip rfl nofun hw hs hp (prepare_eq_skip_iff.2 ⟨_, rfl, hok, rfl, acts_wave_eq_false_iff.2 hact⟩)
  case skipped =>
    intro f s w sh hw hs hp hsh hok h5 hact
    cases hsh
    exact exec_of_skip rfl nofun hw hs hp (prepare_eq_skip_iff.2 ⟨_, rfl, hok, h5, acts_wave_eq_false_iff.2 hact⟩)

/-! ### Masks (R112 to R115) -/

/-- An instruction whose body is a whole-mask operation writes the operation's value. -/
theorem scalar_of_maskOp {i : Fields → Instr} {g : Word → Word → Word} {v : Ctx → Nat} (hexec : ∀ f s, exec (i f) s = maskOp (i f) f s g)
    (hval : ∀ c : Ctx, (g c.va.scalar c.vb.scalar).toNat = v c) : Scalar i one v :=
  completes_of (body := fun _ c s => .done (c.putScalar s 1 (g c.va.scalar c.vb.scalar).toNat)) hexec fun c s _ => by rw [hval]; rfl

/-- Settles O3: the whole-mask operations share `maskOp` (`scalar_of_maskOp`); the cross-lane ones branch on the deterministic continuation
wave, and a vote's truth is `voteVal_eq_true_iff`. -/
theorem maskOperationsWriteTheirMasks : Obligations.MaskOperationsWriteTheirMasks := by
  unfold Obligations.MaskOperationsWriteTheirMasks
  refine ⟨?mand, ?mor, ?mxor, ?mandn, ?mnot, ?mmov, ?mpopc, ?mfirst, ?mlane, ?vote, ?mlaneTraps, ?voteTraps⟩
  case mand => exact scalar_of_maskOp (fun f s => show _ = execMand f s from rfl) fun _ => rfl
  case mor => exact scalar_of_maskOp (fun f s => show _ = execMor f s from rfl) fun _ => rfl
  case mxor => exact scalar_of_maskOp (fun f s => show _ = execMxor f s from rfl) fun _ => rfl
  case mandn => exact scalar_of_maskOp (fun f s => show _ = execMandn f s from rfl) fun _ => rfl
  case mnot => exact scalar_of_maskOp (fun f s => show _ = execMnot f s from rfl) fun _ => rfl
  case mmov => exact scalar_of_maskOp (fun f s => show _ = execMmov f s from rfl) fun _ => rfl
  case mpopc => exact scalar_of_maskOp (fun f s => show _ = execMpopc f s from rfl) fun c => toNat_popCount c.va.scalar
  case mfirst => exact scalar_of_maskOp (fun f s => show _ = execMfirst f s from rfl) fun c => toNat_firstLane c.va.scalar
  case mlane => exact completes_of (fun f s => show _ = execMlane f s from rfl) fun _ _ h => if_neg (Bool.eq_false_iff.1 h)
  case vote =>
    intro f s c h hdet
    obtain rfl := ready_f h
    rw [show exec (.vote c.f) s = execVote c.f s from rfl, execVote, issue_ready h, if_neg (Bool.eq_false_iff.1 hdet)]
    dsimp only
    rw [if_congr (voteVal_eq_true_iff (m_one_zero_lt c.f)) rfl rfl]
    rfl
  case mlaneTraps => exact traps_of (fun f s => show _ = execMlane f s from rfl) fun _ _ h => if_pos h
  case voteTraps => exact traps_of (fun f s => show _ = execVote f s from rfl) fun _ _ h => if_pos h

/-! ### Determinism (R134, R158, R213, R328) -/

/-- Settles O4: each body asks for determinism before anything else; the atomics share `atomLanes_of_det`. -/
theorem determinismTraps : Obligations.DeterminismTraps := by
  unfold Obligations.DeterminismTraps
  refine ⟨?vbcast, ?vshfl, ?vscan, ?dred, ?fred, ?cvs, ?mxsc, ?ctime, ?place, ?group, ?tgrow, ?atom, ?acas, ?atomf, ?red, ?redf⟩
  case vbcast => exact traps_of (fun f s => show _ = execVbcast f s from rfl) fun _ _ h => if_pos h
  case vshfl => exact traps_of (fun f s => show _ = execVshfl f s from rfl) fun _ _ h => if_pos h
  case vscan => exact traps_of (fun f s => show _ = execVscan f s from rfl) fun _ _ h => if_pos h
  case dred => exact traps_of (fun f s => show _ = fpRed true (.dred f) f s from rfl) fun _ _ h => if_pos h
  case fred => exact traps_of (fun f s => show _ = fpRed false (.fred f) f s from rfl) fun _ _ h => if_pos h
  case cvs => exact traps_of (fun f s => show _ = execCvs f s from rfl) fun _ _ h => if_pos h
  case mxsc => exact traps_of (fun f s => show _ = execMxsc f s from rfl) fun _ _ h => if_pos h
  case ctime => exact traps_of (fun f s => show _ = execCtime f s from rfl) fun _ _ h => if_pos h
  case place => exact traps_of (fun f s => show _ = execGetid f s from rfl) fun _ _ ⟨hsel, hdet⟩ => by simp [hsel, hdet, Act.det]
  case group => exact traps_of (fun f s => show _ = execGetid f s from rfl) fun _ _ ⟨hsel, hdet⟩ => by simp [hsel, hdet, Act.det]
  case tgrow =>
    refine traps_of (fun f s => show _ = execTgrow f s from rfl) fun c s ⟨hdet, hn⟩ => ?_
    have hne : c.va.scalar.toNat ≠ 0 := fun h => hn (BitVec.eq_of_toNat_eq h)
    simp [hdet, hne, Act.det]
  case atom => exact traps_of (fun f s => show _ = execAtom f s from rfl) fun _ _ => atomLanes_of_det
  case acas => exact traps_of (fun f s => show _ = execAcas f s from rfl) fun _ _ => atomLanes_of_det
  case atomf => exact traps_of (fun f s => show _ = execAtomf f s from rfl) fun _ _ => atomLanes_of_det
  case red => exact traps_of (fun f s => show _ = execRed f s from rfl) fun _ _ => atomLanes_of_det
  case redf => exact traps_of (fun f s => show _ = execRedf f s from rfl) fun _ _ => atomLanes_of_det

/-! ### Identity (R111, R396) -/

/-- The lane numbers that `getid` writes. -/
theorem completes_getid_lanes {cond : Ctx → State → Prop} {v : Ctx → Nat → Nat} (hsel : ∀ c s, cond c s → c.f.m 2 0 = 0)
    (hval : ∀ c s, cond c s → getidVal c 0 = v c) : Completes .getid cond fun c s => c.putVec s 1 allLanes (v c) := by
  refine completes_of (fun f s => show _ = execGetid f s from rfl) fun c s h => ?_
  simp only [hsel c s h, ← hval c s h]
  rfl

/-- A number that `getid` writes, where its selector takes no determinism trap. -/
theorem completes_getid_scalar {cond : Ctx → State → Prop} {v : Ctx → Nat} (sel : Nat) (h0 : sel ≠ 0) (hsel : ∀ c s, cond c s → c.f.m 2 0 = sel)
    (hdet : ∀ c s, cond c s → ((sel == 5 && c.det) || (sel == 1 && c.contDet)) = false)
    (hval : ∀ c s, cond c s → getidVal c sel 0 = v c) : Completes .getid cond fun c s => c.putScalar s 1 (v c) := by
  refine completes_of (fun f s => show _ = execGetid f s from rfl) fun c s h => ?_
  have hne : (sel == 0) = false := beq_eq_false_iff_ne.2 h0
  simp only [hsel c s h, ← hval c s h, hdet c s h, hne, Bool.false_eq_true, if_false]

/-- Settles O5: each selector by `completes_getid_lanes` or `completes_getid_scalar` with the value that `getidVal` has for it. -/
theorem getidReadsTheWavesNumbers : Obligations.GetidReadsTheWavesNumbers := by
  unfold Obligations.GetidReadsTheWavesNumbers
  refine ⟨?lanes, ?contLanes, ?index, ?group, ?count, ?task, ?queue, ?place⟩
  case lanes => exact completes_getid_lanes (fun _ _ h => h.1) fun c _ ⟨_, hcont⟩ => by funext l; simp [getidVal, Ctx.isCont, hcont]
  case contLanes =>
    refine completes_getid_lanes (fun _ _ h => h.1) fun c _ ⟨_, hcont⟩ => ?_
    have hc : c.isCont = true := Option.isSome_iff_ne_none.2 hcont
    exact funext fun l => if_pos hc
  case index =>
    exact completes_getid_scalar 1 (by decide) (fun _ _ h => h.1) (fun c _ ⟨_, hcont⟩ => by simp [Ctx.contDet, Ctx.isCont, hcont])
      fun c _ ⟨_, hcont⟩ => by simp [getidVal, hcont]
  case group =>
    exact fun n => completes_getid_scalar 1 (by decide) (fun _ _ h => h.1) (fun c _ ⟨_, _, hdet⟩ => by simp [Ctx.contDet, hdet])
      fun c _ ⟨_, hcont, _⟩ => by simp [getidVal, hcont]
  case count => exact completes_getid_scalar 2 (by decide) (fun _ _ h => h) (fun _ _ _ => rfl) fun _ _ _ => rfl
  case task => exact completes_getid_scalar 3 (by decide) (fun _ _ h => h) (fun _ _ _ => rfl) fun _ _ _ => rfl
  case queue => exact completes_getid_scalar 4 (by decide) (fun _ _ h => h) (fun _ _ _ => rfl) fun _ _ _ => rfl
  case place => exact completes_getid_scalar 5 (by decide) (fun _ _ h => h.1) (fun c _ ⟨_, hdet⟩ => by simp [hdet]) fun _ _ _ => rfl

end Sys2Proof.Claims
end

section
/-! SUPPORT. Events of streams, gangs, waves and banks: one equation for each case in which an event is due (O40). -/

namespace Sys2Proof.Machine

/-! ### Stream engines (R189, R190, R201) -/

section
variable {s : State} {sid : Nat} {t : Stream} {w : Wave}

/-- The next entry of a load stream that nothing holds back is fetched. -/
theorem execStreamFetch_of_next (ht : s.stream? sid = some t) (hw : s.wave? t.wid = some w) (hfetch : canFetch t = true)
    (hpark : s.anyParked = false) (hruns : ctxRuns s w.asid = true) (hspill : w.spilled = false) (hheld : fetchHeld s t w = false)
    (hagain : (t.entries.any (·.again)) = false) :
    execStreamFetch sid s = .next (let r := fetchLanes s t w t.next allLanes { vals := List.replicate 32 0 }
      r.1.setStream { t with next := t.next + 32, entries := t.entries ++ [r.2] }) := by
  simp only [execStreamFetch, ht, hw, hagain, hfetch, hpark, hruns, hspill, hheld, Bool.false_eq_true, if_false, Bool.not_false, Bool.and_self, if_true]

/-- The oldest pushed entry of a store stream that has not stopped is stored. -/
theorem execStreamStore_of_running (ht : s.stream? sid = some t) (hw : s.wave? t.wid = some w) (hwrite : t.write = true)
    (hstop : t.stopped = false) (hagain : t.again = false) (hne : t.entries ≠ []) (hpark : s.anyParked = false) :
    execStreamStore sid s = .next (storeEntry s t w) := by
  simp [execStreamStore, ht, hw, hwrite, hstop, hagain, hne, hpark]

/-- A store stream that a release has repeat its entry waits for its wave to stand in an active bank again. -/
theorem execStreamStore_of_again (ht : s.stream? sid = some t) (hw : s.wave? t.wid = some w) (hwrite : t.write = true)
    (hagain : t.again = true) (hne : t.entries ≠ []) (hpark : s.anyParked = false) : execStreamStore sid s = .next
      (if returned s w = true then storeEntry s { t with stopped := false, again := false, count := t.count + 1 } w else s) := by
  simp [execStreamStore, ht, hw, hwrite, hagain, hne, hpark]

end

/-! ### Gang messages (R229) -/

/-- An arrival that is not the last of the dies is counted in the root word. -/
theorem execGangForwardArrival_of_waiting {s : State} {task die : Nat} {r : TroupeRef} (hm : ⟨task, die, false⟩ ∈ s.gangMsgs) :
    let u : State := { s with gangMsgs := s.gangMsgs.erase ⟨task, die, false⟩ }
    rootWord u task = some r → (getTw u task r).diearr + 1 < (getTw u task r).dies →
      execGangForwardArrival task die s = .next (setTw u task r { getTw u task r with diearr := (getTw u task r).diearr + 1 }) := by
  intro u hr hlt
  have hc : s.gangMsgs.contains ⟨task, die, false⟩ = true := List.contains_iff_mem.2 hm
  simp only [execGangForwardArrival, hc, Bool.not_true, Bool.false_eq_true, if_false]
  simp only [u] at hr hlt
  simp only [hr, hlt, if_true, u]

/-- A release message releases the gang's word of its die. -/
theorem execGangReleaseMessage_of_word {s : State} {task die : Nat} {r : TroupeRef} (hm : ⟨task, die, true⟩ ∈ s.gangMsgs) :
    let u : State := { s with gangMsgs := s.gangMsgs.erase ⟨task, die, true⟩ }
    gangWord u task die = some r → execGangReleaseMessage task die s = .next (troupeRelease u task r) := by
  intro u hr
  have hc : s.gangMsgs.contains ⟨task, die, true⟩ = true := List.contains_iff_mem.2 hm
  simp only [u] at hr
  simp only [execGangReleaseMessage, hc, hr, Bool.not_true, Bool.false_eq_true, if_false, u]

/-! ### Waves (R95, R108, R110) -/

theorem execParkTimeout_of_due {s : State} {wid c : Nat} {w : Wave} {why} (hw : s.wave? wid = some w) (hst : w.st = .parked why (some c))
    (hdue : c ≤ s.cc) : execParkTimeout wid s = .next (s.setWave { w with st := .ready }) := by
  simp only [execParkTimeout, hw, hst, ge_iff_le, hdue, if_true]

theorem execWaveOverdue_of_due {s : State} {wid : Nat} {w : Wave} (hw : s.wave? wid = some w) (hst : w.st = .ready) (hctr : w.waitCtr = 47) :
    execWaveOverdue wid s = .next (s.setWave { w with waitCtr := 48 }) := by
  simp [execWaveOverdue, hw, hst, hctr, Config.overdue]

/-- Only a Halting wave ends. -/
theorem st_of_haltOver {s : State} {w : Wave} (h : haltOver s w = true) : w.st = .halting := by
  simp only [haltOver, Bool.and_eq_true, beq_iff_eq, and_assoc] at h
  exact h.1

/-- The halt of a running task's wave is noted in its node. -/
def noteHalt (s : State) (w : Wave) : State :=
  match s.node? w.node with
  | some n => if n.stage = Stage.running then s.setNode { n with halts := orderIdx w :: n.halts } else s
  | none => s

/-- A wave leaves with what it waits for, and its task with it where that has nothing left. -/
def dropEnded (s : State) (wid node : Nat) : State :=
  (State.endHolding { s with waves := s.waves.filter fun x => x.wid != wid, lands := s.lands.filter fun l => l.wid != wid
                             unitQ := s.unitQ.filter fun u => u.wid != wid } node).settle

/-- A Halting wave that waits for nothing ends with the report of its range mask. -/
theorem execHaltingEnd_of_over {s : State} {wid : Nat} {w : Wave} (hw : s.wave? wid = some w) (hover : haltOver s w = true) :
    execHaltingEnd wid s = .next (dropEnded (noteHalt (rangeReport s w) w) wid w.node) := by
  have hst : (w.ending && w.st != .halting) = false := by simp [st_of_haltOver hover]
  simp only [execHaltingEnd, hw, hst, hover, noteHalt, dropEnded, beq_iff_eq, Bool.not_true, Bool.false_eq_true, if_false]
    <;> rfl

theorem rangeReport_of_zero {s : State} {w : Wave} (h : w.range = 0) : rangeReport s w = s := by
  simp [rangeReport, State.rangeRec, h]

/-- FLAGS of a wave's record take three bits (R424). -/
theorem waveFlags_lt (s : State) (w : Wave) : s.waveFlags w < 8 := by
  unfold State.waveFlags
  split <;> split <;> decide

/-- A range mask that is not zero is reported SPRANGE. -/
theorem rangeReport_of_ne_zero {s : State} {w : Wave} (h : w.range ≠ 0) :
    ∃ r, r.code = kSPRANGE ∧ r.mask = w.range ∧ r.pc = w.pc ∧ r.flags / 8 = 1 ∧ r.source = 0 ∧ rangeReport s w = s.appendRec r .nothing := by
  have hlt := waveFlags_lt s w
  have hrec : s.rangeRec w = some { s.waveRec w kSPRANGE 0 0 w.range 0 0 with flags := 8 + s.waveFlags w } := by
    simp only [State.rangeRec, beq_eq_false_iff_ne.2 h, Bool.false_eq_true, if_false]
  refine ⟨_, rfl, rfl, rfl, ?_, rfl, by simp only [rangeReport, hrec]; rfl⟩
  dsimp only
  omega

/-- A wave whose task has ended reports what it holds, and halts once it may leave its troupe. -/
theorem execHaltingEnd_of_ending {s : State} {wid : Nat} {w : Wave} (hw : s.wave? wid = some w) (he : w.ending = true) (hst : w.st ≠ .halting) :
    execHaltingEnd wid s = .next (if leaveHeld (reportHeld s w) w then reportHeld s w
      else haltWave (reportHeld s w) (((reportHeld s w).wave? wid).getD w)) := by
  have hc : (w.ending && w.st != .halting) = true := by simp [he, hst]
  simp only [execHaltingEnd, hw, hc, if_true]

/-! ### Functional units (R95) -/

/-- The first wave in a free unit's order becomes Ready. -/
theorem execFunctionalUnitFree_of_first {s : State} {core quad unit : Nat} {u : UnitWait} {w : Wave} (hu : unitFirst s unit = some u)
    (hw : s.wave? u.wid = some w) (hbusy : unitBusy s unit = false) (hcore : w.core = core) (hquad : w.quad = quad) (hst : w.st = .blocked)
    (hp : w.pending = none) : execFunctionalUnitFree core quad unit s = .next (s.setWave { w with st := .ready }) := by
  simp [execFunctionalUnitFree, hu, hw, hbusy, hcore, hquad, hst, hp]

/-- A wave whose unit is busy is Blocked in the unit's order. -/
theorem markReady_of_busy {s : State} {w : Wave} {u n : Nat} (hu : unitNeed s w = some (u, n)) (hbusy : unitBusy s u = true) :
    markReady s w = (unitWait s u w.wid).setWave { w with st := .blocked, waitCtr := 0 } := by
  simp [markReady, hu, unitHeld, hbusy, Option.filter]

/-- A unit taken for two cycles or more is busy. -/
theorem unitBusy_takeUnit {s : State} {w : Wave} {u n : Nat} (hu : unitNeed s w = some (u, n)) (hn : 2 ≤ n) : unitBusy (takeUnit s w) u = true := by
  have hgt : n > 1 := hn
  simp only [takeUnit, hu, hgt, if_true, unitBusy, unitLeave, List.any_cons, beq_self_eq_true, Bool.true_and]
  have : s.cc < s.cc + n := by omega
  simp [this]

/-! ### Banks (R316 to R318) -/

theorem execSpill_of_ready {s : State} {wid : Nat} {w : Wave} (hw : s.wave? wid = some w) (hready : spillReady s w = true)
    (hpark : s.anyParked = false) : execSpill wid s = .next ((rewindStreams (writeSave s w.asid) wid).setWave { w with spilled := true }) := by
  simp [execSpill, hw, hready, hpark]

theorem execShadowBankSwap_of_target {s : State} {core quad : Nat} (h : isTarget s core quad = true ∨ holdsBenched s core quad = true)
    (harmed : armedAll s (closureOf s (residents s) core quad) = true) :
    execShadowBankSwap core quad s = .next (exchange s (closureOf s (residents s) core quad)) := by
  have hc : ((isTarget s core quad || holdsBenched s core quad) && armedAll s (closureOf s (residents s) core quad)) = true := by
    simpa [harmed] using h
  simp only [execShadowBankSwap, hc, if_true]

theorem execShadowBankSwap_of_return {s : State} {core quad : Nat} {qs : List (Nat × Nat)} {ws : List Wave} (ht : isTarget s core quad = false)
    (hb : holdsBenched s core quad = false) (hres : reserved s (dieOf core) none = false) (hpark : s.anyParked = false)
    (hset : returnSet s core quad = some (qs, ws)) :
    execShadowBankSwap core quad s = .next (restamp (exchange (bringBack s ws) qs) (ws.map (·.wid))) := by
  simp only [execShadowBankSwap, ht, hb, hres, hpark, hset, Bool.or_false, Bool.false_and, Bool.false_eq_true, if_false]

theorem execShadowBankRearm_of_empty {s : State} {core quad : Nat} (harmed : (quadOf s core quad).armed = false)
    (hempty : bankWaves s core quad (1 - (quadOf s core quad).active) = []) :
    execShadowBankRearm core quad s = .next (setQuad s { quadOf s core quad with armed := true }) := by
  simp [execShadowBankRearm, harmed, hempty]

end Sys2Proof.Machine

namespace Sys2Proof.Claims

open Sys2Proof.Machine

/-! ### The obligations -/

/-- Settles O40: each event by the equation of the case in which it is due. -/
theorem streamsGangsAndWavesAdvance : Obligations.StreamsGangsAndWavesAdvance := by
  unfold Obligations.StreamsGangsAndWavesAdvance
  refine ⟨?fetch, ?store, ?again, ?arrival, ?release, ?park, ?overdue, ?ended, ?ranged, ?ending, ?free, ?busy, ?taken, ?spill, ?swap, ?back, ?rearm⟩
  case fetch => exact fun _ _ _ _ => execStreamFetch_of_next
  case store => exact fun _ _ _ _ => execStreamStore_of_running
  case again => exact fun _ _ _ _ => execStreamStore_of_again
  case arrival => exact fun _ _ _ _ hm => execGangForwardArrival_of_waiting hm
  case release => exact fun _ _ _ _ hm => execGangReleaseMessage_of_word hm
  case park => exact fun _ _ _ _ _ => execParkTimeout_of_due
  case overdue => exact fun _ _ _ => execWaveOverdue_of_due
  case ended =>
    intro wid s w hw hover hrange n hn
    refine (execHaltingEnd_of_over hw hover).trans ?_
    rw [rangeReport_of_zero hrange, noteHalt, hn]
    rfl
  case ranged =>
    intro wid s w hw hover hrange
    obtain ⟨r, hcode, hmask, hpc, hflags, hsource, hreport⟩ := rangeReport_of_ne_zero (s := s) hrange
    refine ⟨r, hcode, hmask, hpc, hflags, hsource, (execHaltingEnd_of_over hw hover).trans ?_⟩
    rw [hreport]
    rfl
  case ending =>
    intro wid s w hw he hst u
    have h := execHaltingEnd_of_ending hw he hst
    exact ⟨fun hl => h.trans (by rw [if_pos hl]), fun hl => h.trans (by rw [if_neg (Bool.eq_false_iff.1 hl)])⟩
  case free => exact fun _ _ _ _ _ _ => execFunctionalUnitFree_of_first
  case busy => exact fun _ _ _ _ => markReady_of_busy
  case taken => exact fun _ _ _ _ => unitBusy_takeUnit
  case spill => exact fun _ _ _ => execSpill_of_ready
  case swap => exact fun _ _ _ => execShadowBankSwap_of_target
  case back => exact fun _ _ _ _ _ => execShadowBankSwap_of_return
  case rearm => exact fun _ _ _ => execShadowBankRearm_of_empty

end Sys2Proof.Claims
end

section
/-! SUPPORT. A halt that loses its wave (O2): what a Halting wave reports makes the part write the records that wait before it, and one
of them may end the wave's own task. -/

namespace Sys2Proof.Claims

open Sys2Proof.Machine

/-- A store stream of wave 2 that has stopped at a fault the wave has not been told of. -/
def stoppedStore : Stream :=
  { sid := 3, wid := 2, qn := 0, write := true, sp := false, ty := 0, base := 0, dims := [], total := 32, ended := true, stopped := true
    entries := [{ vals := List.replicate 32 0, mask := 1, cause := cNOTMAPPED }] }

/-- Two waves of one speculative task: wave 2 has a stopped store stream, and the record of wave 4's unresolved trap waits for room in
the fault queue, which has room by now. -/
def trapWaiting : State :=
  let s := placeWord .reset []
  { s with
    waves := s.waves ++ [{ wid := 4, node := 0, asid := 1, slot := 1, v := [], st := .blocked, held := true }]
    streams := [stoppedStore]
    fams := [{ fid := 1, owner := 0, asid := 1 }]
    ctxs := s.ctxs.map fun c => { c with fq := 0x400, fqWait := [({ code := kTRAP, asid := 1 }, .ends 4)] } }

/-- The halt of wave 2 reports its stream's fault (R116). The trap's record is written before that report, its task's version is
discarded (R427, R431), and wave 2 goes with it. -/
theorem haltWave_trapWaiting : (haltWave trapWaiting (placedWave .reset)).wave? 2 = none := by decide +kernel

/-- Refutes O2: its last clause says of every state that a wave without bound streams, troupe and continuation is there after its halt,
Halting; in `trapWaiting` the halt loses the wave (`haltWave_trapWaiting`). -/
theorem not_schedulingInstructionsChangeTheWaveState : ¬ Obligations.SchedulingInstructionsChangeTheWaveState := by
  unfold Obligations.SchedulingInstructionsChangeTheWaveState
  rintro ⟨-, -, -, -, -, -, -, -, -, -, hhalt⟩
  obtain ⟨u, hu, -⟩ := hhalt trapWaiting (placedWave .reset) (placedWave .reset) rfl rfl rfl rfl
  cases hu.symm.trans haltWave_trapWaiting

end Sys2Proof.Claims
end

section
/-! SUPPORT. The values of the integer operations: fields and elements, sign extension, division, shifts and counts. -/

namespace Sys2Proof.Machine

/-! ### Patterns and sign extension (R122) -/

theorem wrap_lt (n : Nat) (v : Int) : wrap n v < 2 ^ n := by
  have hpos : 0 < 2 ^ n := Nat.two_pow_pos n
  have hlt := Int.emod_lt_of_pos v (Int.natCast_pos.2 hpos)
  unfold wrap
  omega

theorem wrap_zero (n : Nat) : wrap n 0 = 0 := by simp [wrap]

/-- The pattern of −1 is all ones. -/
theorem wrap_neg_one (n : Nat) : wrap n (-1) = 2 ^ n - 1 := by
  have hpos : 0 < 2 ^ n := Nat.two_pow_pos n
  rw [wrap, ← Int.add_emod_right, Int.emod_eq_of_lt (by omega) (by omega)]
  omega

/-- Sign extension is the balanced residue. -/
theorem sext_eq_bmod {n : Nat} (hn : 1 ≤ n) (v : Nat) : sext n v = Int.bmod v (2 ^ n : Nat) := by
  obtain ⟨n, rfl⟩ := Nat.exists_eq_add_of_le' hn
  have hpow : 2 ^ (n + 1) = 2 * 2 ^ n := Nat.pow_succ'
  simp only [sext, Int.bmod, Nat.add_sub_cancel, hpow]
  split <;> split <;> omega

/-- A number in the signed range is the sign extension of its pattern. -/
theorem sext_wrap {n : Nat} {v : Int} (hn : 1 ≤ n) (hlo : -(2 ^ (n - 1) : Nat) ≤ v) (hhi : v < (2 ^ (n - 1) : Nat)) :
    sext n (wrap n v) = v := by
  have hpos : (0 : Int) < (2 ^ n : Nat) := Int.natCast_pos.2 (Nat.two_pow_pos n)
  rw [sext_eq_bmod hn, wrap, Int.toNat_of_nonneg (Int.emod_nonneg v hpos.ne'), Int.emod_bmod]
  obtain ⟨n, rfl⟩ := Nat.exists_eq_add_of_le' hn
  have hpow : 2 ^ (n + 1) = 2 * 2 ^ n := Nat.pow_succ'
  rw [Nat.add_sub_cancel] at hlo hhi
  apply Int.bmod_eq_of_le <;> omega

/-- Sign extension by bits that a shift drops leaves the sign alone. -/
theorem sext_div_of_le {n c : Nat} (a : Nat) (h : n ≤ c) : sext n a / 2 ^ c = if 2 ^ (n - 1) ≤ a % 2 ^ n then -1 else 0 := by
  have hpow : 2 ^ n ≤ 2 ^ c := Nat.pow_le_pow_right two_pos h
  have hlt : a % 2 ^ n < 2 ^ n := Nat.mod_lt _ (Nat.two_pow_pos n)
  have hc : (2 : Int) ^ c = (2 ^ c : Nat) := by push_cast; rfl
  unfold sext
  split
  · rw [hc, Int.ediv_eq_neg_one_of_neg_of_le (by omega) (by omega)]
  · rw [Int.ediv_eq_zero_of_lt (by omega) (by omega)]

/-! ### Elements (R68, R118) -/

/-- The elements of a packed result fit it, and each is the result on the elements of the operands. -/
theorem packed_spec (n k : Nat) (g : Nat → Nat → Nat) (a b : Nat) : packed n k g a b < 2 ^ (n * k)
    ∧ ∀ i < k, packed n k g a b / 2 ^ (n * i) % 2 ^ n = g (a / 2 ^ (n * i) % 2 ^ n) (b / 2 ^ (n * i) % 2 ^ n) % 2 ^ n := by
  induction k with
  | zero => exact ⟨by simp [packed], nofun⟩
  | succ k ih =>
    obtain ⟨hlt, helem⟩ := ih
    have hsucc : packed n (k + 1) g a b
        = packed n k g a b + 2 ^ (n * k) * (g (a / 2 ^ (n * k) % 2 ^ n) (b / 2 ^ (n * k) % 2 ^ n) % 2 ^ n) := by
      simp [packed, List.range_succ, Nat.mul_comm]
    rw [hsucc]
    generalize packed n k g a b = x at hlt helem
    have hnew : g (a / 2 ^ (n * k) % 2 ^ n) (b / 2 ^ (n * k) % 2 ^ n) % 2 ^ n < 2 ^ n := Nat.mod_lt _ (Nat.two_pow_pos n)
    generalize hy : g (a / 2 ^ (n * k) % 2 ^ n) (b / 2 ^ (n * k) % 2 ^ n) % 2 ^ n = y at hnew
    constructor
    · calc x + 2 ^ (n * k) * y < 2 ^ (n * k) * (y + 1) := by rw [Nat.mul_succ]; omega
        _ ≤ 2 ^ (n * k) * 2 ^ n := Nat.mul_le_mul_left _ hnew
        _ = 2 ^ (n * (k + 1)) := (Nat.pow_add ..).symm
    · intro i hi
      obtain hik | rfl := Nat.lt_succ_iff_lt_or_eq.1 hi
      · have hpow : 2 ^ (n * k) = 2 ^ (n * i) * (2 ^ n * 2 ^ (n * (k - i - 1))) := by
          rw [← Nat.pow_add, ← Nat.pow_add, Nat.add_comm n, ← Nat.mul_succ, ← Nat.mul_add]
          congr 2
          omega
        rw [← helem i hik, hpow, Nat.mul_assoc, Nat.add_mul_div_left _ _ (Nat.two_pow_pos _), Nat.mul_assoc, Nat.add_mul_mod_self_left]
      · rw [Nat.add_mul_div_left _ _ (Nat.two_pow_pos _), Nat.div_eq_of_lt hlt, Nat.zero_add, Nat.mod_eq_of_lt hnew, hy]

/-- An element of an arithmetic result is the wrapped or saturated exact result. -/
theorem arith_elem (f : Fields) (g : Int → Int → Int) (a b : Nat) {i : Nat} (hi : i < wdCount (wd f)) :
    let n := wdBits (wd f)
    arith f g a b / 2 ^ (n * i) % 2 ^ n = wrap n (let v := g (elemVal (sg f) n (a / 2 ^ (n * i) % 2 ^ n)) (elemVal (sg f) n (b / 2 ^ (n * i) % 2 ^ n))
      if vr f = 1 then clamp (sg f) n v else v) := by
  intro n
  rw [arith, (packed_spec _ _ _ a b).2 i hi, narrow, Nat.mod_eq_of_lt (wrap_lt ..)]
  simp only [beq_iff_eq]
  rfl

/-- Saturation gives the number or the end of the range that it has passed. -/
theorem clamp_spec (sg : Bool) (n : Nat) (t : Int) : let lo : Int := if sg then -(2 ^ (n - 1)) else 0
    let hi : Int := if sg then 2 ^ (n - 1) - 1 else 2 ^ n - 1
    (lo ≤ t → t ≤ hi → clamp sg n t = t) ∧ (t < lo → clamp sg n t = lo) ∧ (hi < t → clamp sg n t = hi) := by
  have hpos : (0 : Int) < 2 ^ (n - 1) := by positivity
  have hpos' : (0 : Int) < 2 ^ n := by positivity
  cases sg
  all_goals
    simp only [clamp, Bool.false_eq_true, if_true, if_false]
    push_cast
    refine ⟨fun _ _ => ?_, fun _ => ?_, fun _ => ?_⟩
    all_goals repeat' split
    all_goals omega

/-! ### Division (R123) -/

section
variable {a b : Nat}

/-- The unsigned division law. -/
theorem divOp_mul_add_remOp (ha : a < 2 ^ 32) (hb : b < 2 ^ 32) (h0 : b ≠ 0) :
    divOp false a b * b + remOp false a b = a ∧ remOp false a b < b := by
  simp only [divOp, remOp, Nat.mod_eq_of_lt ha, Nat.mod_eq_of_lt hb, beq_iff_eq, h0, Bool.false_eq_true, if_false]
  exact ⟨Nat.div_add_mod' a b, Nat.mod_lt a (Nat.pos_of_ne_zero h0)⟩

/-- A word is zero just when its signed value is. -/
theorem sext_eq_zero_iff (hb : b < 2 ^ 32) : sext 32 b = 0 ↔ b = 0 := by
  unfold sext
  split <;> omega

/-- The signed values of a word, and when it is the smallest or −1. -/
theorem sext_word (ha : a < 2 ^ 32) : -(2 ^ 31 : Int) ≤ sext 32 a ∧ sext 32 a < 2 ^ 31
    ∧ (sext 32 a = -(2 ^ 31) → a = 2 ^ 31) ∧ (sext 32 a = -1 → a = 2 ^ 32 - 1) := by
  unfold sext
  split <;> omega

/-- A quotient leaves the range of its dividend only where the smallest number is divided by −1. -/
theorem tdiv_range {x y m : Int} (hlo : -m ≤ x) (hhi : x < m) (hy : y ≠ 0) (h : ¬ (x = -m ∧ y = -1)) : -m ≤ x.tdiv y ∧ x.tdiv y < m := by
  have habs := Int.natAbs_tdiv_le_natAbs x y
  obtain rfl | hx := eq_or_ne x (-m)
  · obtain rfl | hy1 := eq_or_ne y 1
    · rw [Int.tdiv_one]
      omega
    · have hshrinks : ((-m).tdiv y).natAbs < (-m).natAbs := by
        rw [Int.natAbs_tdiv]
        exact Nat.div_lt_self (by omega) (by omega)
      omega
  · omega

/-- A remainder has the sign of its dividend and is no larger. -/
theorem tmod_range {x m : Int} (y : Int) (hlo : -m ≤ x) (hhi : x < m) : -m ≤ x.tmod y ∧ x.tmod y < m := by
  have habs : (x.tmod y).natAbs ≤ x.natAbs := by
    rw [Int.natAbs_tmod]
    exact Nat.mod_le ..
  obtain hx | hx := Int.le_total 0 x
  · have := Int.tmod_nonneg y hx
    omega
  · have := Int.tmod_nonneg y (Int.neg_nonneg_of_nonpos hx)
    rw [Int.neg_tmod] at this
    omega

/-- The signed operations give the truncated quotient and its remainder but where the quotient leaves the range. -/
theorem sext_divOp_remOp (ha : a < 2 ^ 32) (hb : b < 2 ^ 32) (h0 : b ≠ 0) (h : ¬ (a = 2 ^ 31 ∧ b = 2 ^ 32 - 1)) :
    sext 32 (divOp true a b) = (sext 32 a).tdiv (sext 32 b) ∧ sext 32 (remOp true a b) = (sext 32 a).tmod (sext 32 b) := by
  obtain ⟨hlo, hhi, hmin, -⟩ := sext_word ha
  obtain ⟨-, -, -, hneg⟩ := sext_word hb
  have hquot := tdiv_range hlo hhi (mt (sext_eq_zero_iff hb).1 h0) fun ⟨hx, hy⟩ => h ⟨hmin hx, hneg hy⟩
  have hrem := tmod_range (sext 32 b) hlo hhi
  simp only [divOp, remOp, Nat.mod_eq_of_lt hb, beq_iff_eq, h0, elemVal, if_true, if_false]
  exact ⟨sext_wrap (by decide) hquot.1 hquot.2, sext_wrap (by decide) hrem.1 hrem.2⟩

/-- Division by zero gives the dividend as the remainder, and a quotient that the dividend's sign decides. -/
theorem remOp_divOp_zero (sg : Bool) (ha : a < 2 ^ 32) :
    remOp sg a 0 = a ∧ divOp sg a 0 = if sg = true ∧ 2 ^ 31 ≤ a then 1 else 0xFFFFFFFF := by
  refine ⟨by simpa [remOp] using ha, ?_⟩
  cases sg with
  | false => rfl
  | true =>
    have hsign : 0 ≤ sext 32 a ↔ ¬ 2 ^ 31 ≤ a := by
      unfold sext
      split <;> omega
    simp only [divOp, elemVal, Nat.zero_mod, beq_self_eq_true, if_true, ge_iff_le, hsign, ite_not, true_and]

end

/-! ### Shifts (R125) -/

section
variable {n a c : Nat}

theorem shlOp_eq (n a c : Nat) : shlOp n a c = a * 2 ^ c % 2 ^ n := by
  unfold shlOp
  split
  · rename_i h
    exact (Nat.mod_eq_zero_of_dvd ((Nat.pow_dvd_pow 2 h).mul_left a)).symm
  · rfl

theorem shrOp_eq (ha : a < 2 ^ n) : shrOp n a c = a / 2 ^ c := by
  unfold shrOp
  split
  · rename_i h
    exact (Nat.div_eq_of_lt (ha.trans_le (Nat.pow_le_pow_right two_pos h))).symm
  · rfl

/-- Bounding the count by the width loses nothing. -/
theorem sraOp_eq (n a c : Nat) : sraOp n a c = wrap n (sext n a / 2 ^ c) := by
  obtain h | h := Nat.le_total c n
  · rw [sraOp, Nat.min_eq_left h]
  · rw [sraOp, Nat.min_eq_right h, sext_div_of_le a h, sext_div_of_le a le_rfl]

/-- A count of the width or more leaves zeros, or copies of the sign. -/
theorem shifts_of_le (ha : a < 2 ^ n) (h : n ≤ c) :
    shlOp n a c = 0 ∧ shrOp n a c = 0 ∧ (1 ≤ n → sraOp n a c = if 2 ^ (n - 1) ≤ a then 2 ^ n - 1 else 0) := by
  refine ⟨if_pos h, if_pos h, fun _ => ?_⟩
  rw [sraOp_eq, sext_div_of_le a h, Nat.mod_eq_of_lt ha, apply_ite (wrap n), wrap_neg_one, wrap_zero]

end

/-! ### Counts (R129) -/

section
variable {n a : Nat}

theorem clzOp_zero (n : Nat) : clzOp n 0 = n := by simp [clzOp]

/-- The leading zeros of a number other than zero end at its leading one. -/
theorem clzOp_of_ne_zero (ha : a < 2 ^ n) (h0 : a ≠ 0) : clzOp n a = n - 1 - a.log2 ∧ a.log2 < n := by
  simp [clzOp, Nat.mod_eq_of_lt ha, h0, (Nat.log2_lt h0).2 ha]

theorem clzOp_spec (ha : a < 2 ^ n) :
    clzOp n a ≤ n ∧ a < 2 ^ (n - clzOp n a) ∧ (a ≠ 0 → 2 ^ (n - 1 - clzOp n a) ≤ a) ∧ (a = 0 → clzOp n a = n) := by
  obtain rfl | h0 := eq_or_ne a 0
  · simp [clzOp_zero]
  · obtain ⟨hclz, hlog⟩ := clzOp_of_ne_zero ha h0
    have hupper : n - clzOp n a = a.log2 + 1 := by omega
    have hlower : n - 1 - clzOp n a = a.log2 := by omega
    exact ⟨by omega, by rw [hupper]; exact Nat.lt_log2_self, fun _ => by rw [hlower]; exact Nat.log2_self_le h0, fun h => absurd h h0⟩

theorem popOp_zero (n : Nat) : popOp n 0 = 0 := by simp [popOp]

/-- A new lowest bit adds itself to the count. -/
theorem popOp_double_add {b : Nat} (n a : Nat) (hb : b ≤ 1) : popOp (n + 1) (2 * a + b) = popOp n a + b := by
  have hbits (i : Nat) : (2 * a + b).testBit (i + 1) = a.testBit i := by
    rw [Nat.testBit_succ]
    congr 1
    omega
  have hlow : (2 * a + b).testBit 0 = decide (b = 1) := by
    rw [Nat.testBit_zero]
    exact decide_eq_decide.2 (by omega)
  simp only [popOp, List.range_succ_eq_map, List.filter_cons, List.filter_map, Function.comp_def, Nat.succ_eq_add_one, hbits, hlow,
    decide_eq_true_eq]
  split
  · simp only [List.length_cons, List.length_map]
    omega
  · simp only [List.length_map]
    omega

end

/-! ### Bit fields (R128) -/

/-- An inserted field leaves what lies below and above it. -/
theorem bfiOp_eq (o w a b : Nat) : bfiOp o w a b = 2 ^ o * (2 ^ w * (b / 2 ^ o / 2 ^ w) + a % 2 ^ w) + b % 2 ^ o := by
  have hlow := Nat.div_add_mod b (2 ^ o)
  have hfield := congrArg (2 ^ o * ·) (Nat.div_add_mod (b / 2 ^ o) (2 ^ w))
  simp only [Nat.mul_add] at hfield ⊢
  rw [bfiOp, Nat.mul_comm _ (2 ^ o), Nat.mul_comm _ (2 ^ o)]
  omega

theorem bfiOp_testBit (o w a b i : Nat) :
    (bfiOp o w a b).testBit i = if o ≤ i ∧ i < o + w then a.testBit (i - o) else b.testBit i := by
  rw [bfiOp_eq, Nat.testBit_two_pow_mul_add _ (Nat.mod_lt _ (Nat.two_pow_pos o)),
    Nat.testBit_two_pow_mul_add _ (Nat.mod_lt _ (Nat.two_pow_pos w))]
  simp only [Nat.testBit_div_two_pow, Nat.testBit_mod_two_pow]
  obtain hbelow | habove := Nat.lt_or_ge i o
  · rw [if_pos hbelow, if_neg (by omega), decide_eq_true hbelow, Bool.true_and]
  · obtain hin | hout := Nat.lt_or_ge (i - o) w
    · rw [if_neg (by omega), if_pos hin, if_pos (by omega), decide_eq_true hin, Bool.true_and]
    · rw [if_neg (by omega), if_neg (by omega), if_neg (by omega)]
      congr 1
      omega

theorem bfeOp_false_testBit (n o w a i : Nat) : (bfeOp false n o w a).testBit i = (decide (i < w) && a.testBit (o + i)) := by
  have hfield : bfeOp false n o w a = a / 2 ^ o % 2 ^ w := by
    obtain rfl | hw := Nat.eq_zero_or_pos w
    · simp [bfeOp, Nat.mod_one]
    · simp [bfeOp, hw.ne']
  rw [hfield, Nat.testBit_mod_two_pow, Nat.testBit_div_two_pow, Nat.add_comm]

theorem bfeOp_true (n o w a : Nat) : bfeOp true n o w a = if w = 0 then 0 else wrap n (sext w (a / 2 ^ o % 2 ^ w)) := by
  simp [bfeOp]

end Sys2Proof.Machine
end

section
/-! SUPPORT. Integer instructions: the claim that follows from each body that several of them share. -/

namespace Sys2Proof.Claims

open Sys2Proof.Machine

/-! ### Bodies that integer instructions share (R117 to R120, R125) -/

section
variable {i : Fields → Instr}

/-- An instruction whose body writes a scalar is `Scalar`. -/
theorem scalar_of {n : Fields → Nat} {v : Ctx → Nat} {body : Fields → Ctx → State → Act}
    (hexec : ∀ f s, exec (i f) s = issue (i f) f s (body f)) (hbody : ∀ c s, body c.f c s = .done (c.putScalar s (n c.f) (v c))) :
    Scalar i n v :=
  completes_of hexec fun c s _ => hbody c s

/-- An instruction whose body writes the active lanes is `Vector`. -/
theorem vector_of {n : Fields → Nat} {v : Ctx → Nat → Nat} {body : Fields → Ctx → State → Act}
    (hexec : ∀ f s, exec (i f) s = issue (i f) f s (body f)) (hbody : ∀ c s, body c.f c s = .done (c.putVec s (n c.f) c.m (v c))) :
    Vector i n v :=
  completes_of hexec fun c s _ => hbody c s

theorem scalar_of_siaOp {g : Fields → Nat → Nat → Nat} (hexec : ∀ f s, exec (i f) s = siaOp (i f) f s (g f)) :
    Scalar i words fun c => g c.f (c.aAt 0) (c.bAt 0) :=
  scalar_of hexec fun _ _ => rfl

theorem scalar_of_siaShift {g : Nat → Nat → Nat → Nat} (hexec : ∀ f s, exec (i f) s = siaShift (i f) f s g) :
    Scalar i words fun c => g (wdBits (wd c.f)) (c.aAt 0) (c.countAt 0) :=
  scalar_of hexec fun _ _ => rfl

theorem vector_of_viaOp {g : Fields → Nat → Nat → Nat} (hexec : ∀ f s, exec (i f) s = viaOp (i f) f s (g f)) :
    Vector i words fun c l => g c.f (c.aAt l) (c.bAt l) :=
  vector_of hexec fun _ _ => rfl

theorem vector_of_viaShift {g : Nat → Nat → Nat → Nat} (hexec : ∀ f s, exec (i f) s = viaShift (i f) f s g) :
    Vector i words fun c l => g (wdBits (wd c.f)) (c.aAt l) (c.countAt l) :=
  vector_of hexec fun _ _ => rfl

/-- A shift count is a word: the immediate, or the lane's value of B. -/
theorem countAt_eq (c : Ctx) (l : Nat) : c.countAt l = (if im c.f then c.f.imm32 else c.vb.w l).toNat :=
  (apply_ite BitVec.toNat ..).symm

end

/-! ### The obligations -/

/-- Settles O13: each instruction by the body that its class shares; `ssel` takes B where its condition is zero. -/
theorem scalarIntegerOperationsWriteTheirResults : Obligations.ScalarIntegerOperationsWriteTheirResults := by
  unfold Obligations.ScalarIntegerOperationsWriteTheirResults
  refine ⟨?sadd, ?ssub, ?smul, ?smulh, ?sdiv, ?srem, ?sand, ?sor, ?sxor, ?sshl, ?sshr, ?ssra, ?smin, ?smax, ?scmp, ?ssel, ?sli, ?smov
    , ?sbfe, ?sbfi, ?sclz, ?spopc, ?saddx⟩
  case sadd => exact scalar_of_siaOp (g := fun f => arith f (· + ·)) fun f s => show _ = execSadd f s from rfl
  case ssub => exact scalar_of_siaOp (g := fun f => arith f (· - ·)) fun f s => show _ = execSsub f s from rfl
  case smul => exact scalar_of_siaOp (g := fun f => arith f (· * ·)) fun f s => show _ = execSmul f s from rfl
  case smulh => exact scalar_of_siaOp (g := fun f => mulHigh (sg f)) fun f s => show _ = execSmulh f s from rfl
  case sdiv => exact scalar_of_siaOp (g := fun f => divOp (sg f)) fun f s => show _ = execSdiv f s from rfl
  case srem => exact scalar_of_siaOp (g := fun f => remOp (sg f)) fun f s => show _ = execSrem f s from rfl
  case sand => exact scalar_of_siaOp (g := fun _ => Nat.land) fun f s => show _ = execSand f s from rfl
  case sor => exact scalar_of_siaOp (g := fun _ => Nat.lor) fun f s => show _ = execSor f s from rfl
  case sxor => exact scalar_of_siaOp (g := fun _ => Nat.xor) fun f s => show _ = execSxor f s from rfl
  case sshl => exact scalar_of_siaShift fun f s => show _ = execSshl f s from rfl
  case sshr => exact scalar_of_siaShift fun f s => show _ = execSshr f s from rfl
  case ssra => exact scalar_of_siaShift fun f s => show _ = execSsra f s from rfl
  case smin => exact scalar_of_siaOp (g := intMin) fun f s => show _ = execSmin f s from rfl
  case smax => exact scalar_of_siaOp (g := intMax) fun f s => show _ = execSmax f s from rfl
  case scmp => exact scalar_of (fun f s => show _ = execScmp f s from rfl) fun _ _ => rfl
  case ssel =>
    refine scalar_of (fun f s => show _ = execSsel f s from rfl) fun c s => ?_
    simp only [bne_iff_ne, ne_eq, ite_not]
  case sli => exact scalar_of (fun f s => show _ = execSli f s from rfl) fun _ _ => rfl
  case smov => exact scalar_of (fun f s => show _ = execSmov f s from rfl) fun _ _ => rfl
  case sbfe => exact scalar_of (fun f s => show _ = execSbfe f s from rfl) fun _ _ => rfl
  case sbfi => exact scalar_of (fun f s => show _ = execSbfi f s from rfl) fun _ _ => rfl
  case sclz => exact scalar_of (fun f s => show _ = execSclz f s from rfl) fun _ _ => rfl
  case spopc => exact scalar_of (fun f s => show _ = execSpopc f s from rfl) fun _ _ => rfl
  case saddx => exact completes_of (fun f s => show _ = execSaddx f s from rfl) fun _ _ _ => rfl

/-- Settles O14: each instruction by the body that its class shares; those that combine lanes branch on the deterministic continuation
wave. -/
theorem laneIntegerOperationsWriteTheirResults : Obligations.LaneIntegerOperationsWriteTheirResults := by
  unfold Obligations.LaneIntegerOperationsWriteTheirResults
  refine ⟨?vadd, ?vsub, ?vmul, ?vmulh, ?vmad, ?vand, ?vor, ?vxor, ?vshl, ?vshr, ?vsra, ?vmin, ?vmax, ?vabs, ?vsel, ?vbfe, ?vbfi, ?vpopc
    , ?vclz, ?vmov, ?vcmp, ?vbcast, ?vshfl, ?vscan, ?vaddx⟩
  case vadd => exact vector_of_viaOp (g := fun f => arith f (· + ·)) fun f s => show _ = execVadd f s from rfl
  case vsub => exact vector_of_viaOp (g := fun f => arith f (· - ·)) fun f s => show _ = execVsub f s from rfl
  case vmul => exact vector_of_viaOp (g := fun f => arith f (· * ·)) fun f s => show _ = execVmul f s from rfl
  case vmulh => exact vector_of_viaOp (g := fun f => mulHigh (sg f)) fun f s => show _ = execVmulh f s from rfl
  case vmad => exact vector_of (fun f s => show _ = execVmad f s from rfl) fun _ _ => rfl
  case vand => exact vector_of_viaOp (g := fun _ => Nat.land) fun f s => show _ = execVand f s from rfl
  case vor => exact vector_of_viaOp (g := fun _ => Nat.lor) fun f s => show _ = execVor f s from rfl
  case vxor => exact vector_of_viaOp (g := fun _ => Nat.xor) fun f s => show _ = execVxor f s from rfl
  case vshl => exact vector_of_viaShift fun f s => show _ = execVshl f s from rfl
  case vshr => exact vector_of_viaShift fun f s => show _ = execVshr f s from rfl
  case vsra => exact vector_of_viaShift fun f s => show _ = execVsra f s from rfl
  case vmin => exact vector_of_viaOp (g := intMin) fun f s => show _ = execVmin f s from rfl
  case vmax => exact vector_of_viaOp (g := intMax) fun f s => show _ = execVmax f s from rfl
  case vabs => exact vector_of (fun f s => show _ = execVabs f s from rfl) fun _ _ => rfl
  case vsel => exact vector_of (fun f s => show _ = execVsel f s from rfl) fun _ _ => rfl
  case vbfe => exact vector_of (fun f s => show _ = execVbfe f s from rfl) fun _ _ => rfl
  case vbfi => exact vector_of (fun f s => show _ = execVbfi f s from rfl) fun _ _ => rfl
  case vpopc => exact vector_of (fun f s => show _ = execVpopc f s from rfl) fun _ _ => rfl
  case vclz => exact vector_of (fun f s => show _ = execVclz f s from rfl) fun _ _ => rfl
  case vmov => exact vector_of (fun f s => show _ = execVmov f s from rfl) fun _ _ => rfl
  case vcmp => exact completes_of (fun f s => show _ = execVcmp f s from rfl) fun _ _ _ => rfl
  case vbcast => exact completes_of (fun f s => show _ = execVbcast f s from rfl) fun _ _ hdet => if_neg (Bool.eq_false_iff.1 hdet)
  case vshfl => exact completes_of (fun f s => show _ = execVshfl f s from rfl) fun _ _ hdet => if_neg (Bool.eq_false_iff.1 hdet)
  case vscan => exact completes_of (fun f s => show _ = execVscan f s from rfl) fun _ _ hdet => if_neg (Bool.eq_false_iff.1 hdet)
  case vaddx => exact completes_of (fun f s => show _ = execVaddx f s from rfl) fun _ _ _ => rfl

/-- Settles O57: each value by the lemma on its operation; what the instructions write is O13 and O14, with `countAt_eq` for the count of
a shift. -/
theorem integerOperationsComputeTheirValues : Obligations.IntegerOperationsComputeTheirValues := by
  unfold Obligations.IntegerOperationsComputeTheirValues
  obtain ⟨-, -, -, -, hsdiv, hsrem, -, -, -, hsshl, hsshr, hssra, -, -, -, -, -, -, -, -, hsclz, hspopc, -⟩ :=
    scalarIntegerOperationsWriteTheirResults
  obtain ⟨-, -, -, -, -, -, -, -, hvshl, hvshr, hvsra, -, -, -, -, -, -, hvpopc, hvclz, -⟩ := laneIntegerOperationsWriteTheirResults
  refine ⟨fun f g a b i hi => arith_elem f g a b hi, fun sg n t _ => clamp_spec sg n t, fun a b => divOp_mul_add_remOp
    , fun a b => sext_divOp_remOp, by decide, fun sg a => remOp_divOp_zero sg
    , fun n a c ha => ⟨shlOp_eq n a c, shrOp_eq ha, sraOp_eq n a c, shifts_of_le ha⟩, fun n a => clzOp_spec
    , fun n a b => ⟨popOp_zero n, fun _ => popOp_double_add n a⟩, fun o w a b i _ => bfiOp_testBit o w a b i
    , fun n o w a i _ => bfeOp_false_testBit n o w a i, fun n o w a _ => bfeOp_true n o w a, ?scalarShifts, ?laneShifts
    , hsdiv, hsrem, hsclz, hspopc, hvclz, hvpopc⟩
  case scalarShifts =>
    simp only [← countAt_eq]
    rintro i g (⟨rfl, rfl⟩ | ⟨rfl, rfl⟩ | ⟨rfl, rfl⟩)
    · exact hsshl
    · exact hsshr
    · exact hssra
  case laneShifts =>
    simp only [← countAt_eq]
    rintro i g (⟨rfl, rfl⟩ | ⟨rfl, rfl⟩ | ⟨rfl, rfl⟩)
    · exact hvshl
    · exact hvshr
    · exact hvsra

end Sys2Proof.Claims
end

section
/-! SUPPORT. System registers: the halves of a 64-bit register, the rounding modes that `fpmode` keeps, and what `srd` and `swr` do with a
register. -/

namespace Sys2Proof.Machine

/-- A word of a 64-bit register. -/
theorem wordI_toNat (v : Word64) (i : Nat) : wordI v.toNat i = v.extractLsb' (32 * i) 32 := by
  rw [wordI, ← Nat.shiftRight_eq_div_pow]
  rfl

/-- The rounding codes that `fpmode` does not keep are those above 4 (R137). -/
theorem and_seven_gt_four_iff (v : Word) : v &&& 7 > 4 ↔ ¬ v.toNat % 8 ≤ 4 := by
  have hmod : (v &&& 7).toNat = v.toNat % 8 := by
    rw [BitVec.toNat_and]
    exact Nat.and_two_pow_sub_one_eq_mod v.toNat 3
  rw [gt_iff_lt, BitVec.lt_def, hmod, not_le]
  rfl

/-- A watchdog count restarts in the context that has it (R439). -/
theorem kickWatchdog_of_ctx {s : State} {asid : Nat} {k : Context} (h : s.ctx? asid = some k) :
    kickWatchdog s asid = s.setCtx { k with wdFrom := s.ns } := by
  simp only [kickWatchdog, h]

end Sys2Proof.Machine

namespace Sys2Proof.Claims

open Sys2Proof.Machine

/-- Where `srd` need not wait it writes the register's value (R139, R433). -/
theorem completes_srd {cond : Ctx → State → Prop} {n : Nat} {v : Ctx → Word} (hreg : ∀ c s, cond c s → c.f.e 9 0 = n)
    (hready : ∀ c s, cond c s → (n == 0x001 && flagsPending s c.w) = false) (hval : ∀ c, sysRead c n = v c) :
    Completes .srd cond fun c s => c.putScalar s 1 (v c).toNat := by
  refine completes_of (fun f s => show _ = execSrd f s from rfl) fun c s h => ?_
  simp only [hreg c s h, hready c s h, hval, Bool.false_eq_true, if_false]

/-- Every register but `fpflags` is read at once. -/
theorem reads_of {n : Nat} {v : Ctx → Word} (hn : n ≠ 0x001) (hval : ∀ c, sysRead c n = v c) : Reads n v :=
  completes_srd (fun _ _ h => h) (fun _ _ _ => by simp [hn]) hval

/-- Settles O6: each register by `reads_of` with the value that `sysRead` has for it; `fpflags` alone asks whether flags are pending. -/
theorem systemRegistersReadAsTheSpecSays : Obligations.SystemRegistersReadAsTheSpecSays := by
  unfold Obligations.SystemRegistersReadAsTheSpecSays
  refine ⟨?fpmode, ?fpflags, ?pending, ?wstat, ?ecode, ?etask, ?epclo, ?epchi, ?eaddrlo, ?eaddrhi, ?emask, ?eexec, ?einfolo, ?einfohi
    , ?eopnd, ?ctime⟩
  case fpmode => exact reads_of (by decide) fun _ => rfl
  case fpflags => exact completes_srd (fun _ _ h => h.1) (fun _ _ h => h.2) fun _ => rfl
  case pending => exact blocks_of (fun f s => show _ = execSrd f s from rfl) fun _ _ ⟨hreg, hpending⟩ => by simp [hreg, hpending]
  case wstat => exact reads_of (by decide) fun _ => rfl
  case ecode => exact reads_of (by decide) fun _ => rfl
  case etask => exact reads_of (by decide) fun _ => rfl
  case epclo => exact reads_of (by decide) fun c => wordI_toNat c.w.epc 0
  case epchi => exact reads_of (by decide) fun c => wordI_toNat c.w.epc 1
  case eaddrlo => exact reads_of (by decide) fun c => wordI_toNat c.w.trapRec.addr 0
  case eaddrhi => exact reads_of (by decide) fun c => wordI_toNat c.w.trapRec.addr 1
  case emask => exact reads_of (by decide) fun _ => rfl
  case eexec => exact reads_of (by decide) fun _ => rfl
  case einfolo => exact reads_of (by decide) fun c => congrArg (BitVec.ofNat 32) (Nat.div_one c.w.trapRec.info)
  case einfohi => exact reads_of (by decide) fun _ => rfl
  case eopnd => exact reads_of (by decide) fun _ => rfl
  case ctime => exact completes_of (fun f s => show _ = execCtime f s from rfl) fun _ _ h => if_neg (Bool.eq_false_iff.1 h)

/-- Settles O7: one branch of `execSwr` for each register; those of the handler ask for state Handler before they are written. -/
theorem systemRegistersAreWrittenAsTheSpecSays : Obligations.SystemRegistersAreWrittenAsTheSpecSays := by
  unfold Obligations.SystemRegistersAreWrittenAsTheSpecSays
  have hexec (f : Fields) (s : State) : exec (.swr f) s = execSwr f s := rfl
  refine ⟨?fpmode, ?fpflags, ?wdkick, ?epclo, ?epchi, ?eexec, ?outside⟩
  case fpmode =>
    refine completes_of hexec fun c s hreg => ?_
    simp only [hreg, and_seven_gt_four_iff, ite_not]
  case fpflags =>
    refine completes_of hexec fun c s ⟨hreg, hready⟩ => ?_
    simp only [hreg, hready, Bool.false_eq_true, if_false]
  case wdkick =>
    refine fun k => completes_of hexec fun c s ⟨hreg, hctx⟩ => ?_
    simp only [hreg, kickWatchdog_of_ctx hctx]
  case epclo => exact completes_of hexec fun c s ⟨hreg, hhnd⟩ => by simp only [hreg, hhnd, if_true]; rfl
  case epchi => exact completes_of hexec fun c s ⟨hreg, hhnd⟩ => by simp only [hreg, hhnd, if_true]; rfl
  case eexec => exact completes_of hexec fun c s ⟨hreg, hhnd⟩ => by simp only [hreg, hhnd, if_true]
  case outside =>
    refine traps_of hexec fun c s ⟨hreg, hhnd⟩ => ?_
    rcases hreg with hreg | hreg | hreg <;> simp only [hreg, hhnd, Bool.false_eq_true, if_false, Act.illopnd]

end Sys2Proof.Claims
end

section
/-! SUPPORT. Stores and scratchpad instructions: the claim that follows from each body that several of them share. -/

namespace Sys2Proof.Claims

open Sys2Proof.Machine

/-- A vector store whose lanes are clear, and whose wave can count them, issues them all. -/
theorem vectorStore_of_clear {c : Ctx} {s : State} {release : Bool} {scope : Nat}
    (h : Clear c s (tySize (tyF c.f)) .write (memAddr c (tyF c.f))) (hroom : outstFull c.w (maskCount c.m) = false) :
    vectorStore c s (tyF c.f) release scope (memAddr c (tyF c.f)) = .done (stored c s release scope) := by
  obtain ⟨hmatch, hclear⟩ := h
  have hmatch : dataMatch s c false true (tySize (tyF c.f)) (memAddr c (tyF c.f)) = none := hmatch
  simp only [vectorStore, hmatch, hclear, and_not_zero, hroom, stored, bne_self_eq_false, Bool.false_eq_true, if_false]

/-- An instruction that is a vector store issues its lanes where they are clear. -/
theorem stores_of {i : Fields → Instr} {release : Bool} {scope : Fields → Nat}
    (h : ∀ f s, exec (i f) s = issue (i f) f s fun c s => vectorStore c s (tyF f) release (scope f) (memAddr c (tyF f))) :
    Stores i release fun c => scope c.f :=
  completes_of h fun _ _ ⟨hclear, hroom⟩ => vectorStore_of_clear hclear hroom

/-- A scratchpad load issues its lanes in range. -/
theorem padLoads_of {i : Fields → Instr} {loc : Bool}
    (h : ∀ f s, exec (i f) s = issue (i f) f s fun c s => spLoad c s loc (tyF f) (spAddr c)) : PadLoads i loc :=
  fun _ => completes_of h fun _ _ hd => by simp only [spLoad, hd, padded]

/-- A scratchpad store issues its lanes in range. -/
theorem padStores_of {i : Fields → Instr} {loc : Bool}
    (h : ∀ f s, exec (i f) s = issue (i f) f s fun c s => spStore c s loc (tyF f) (spAddr c)) : PadStores i loc :=
  completes_of h fun _ _ hroom => by simp only [spStore, hroom, padded, Bool.false_eq_true, if_false]

/-- Settles O18: the vector stores share `stores_of`; `sts` issues its one lane where neither a comparator nor its check stops it. -/
theorem storesIssueTheirLanes : Obligations.StoresIssueTheirLanes := by
  unfold Obligations.StoresIssueTheirLanes
  refine ⟨?st, ?stnt, ?stl, ?sts⟩
  case st => exact stores_of (scope := fun _ => 0) fun _ _ => rfl
  case stnt => exact stores_of (scope := fun _ => 1) fun _ _ => rfl
  case stl => exact stores_of (scope := fun f => f.m 5 3) fun _ _ => rfl
  case sts =>
    intro f s c h ⟨hmatch, hcheck, hroom⟩
    obtain rfl := ready_f h
    rw [show exec (.sts c.f) s = execSts c.f s from rfl, execSts, issue_ready h]
    simp only [hmatch, hcheck, hroom, Bool.false_eq_true, if_false]
    rfl

/-- Settles O19: the loads share `padLoads_of` and the stores `padStores_of`; a copy counts the lanes of which both ends are in range. -/
theorem scratchpadInstructionsIssueTheLanesInRange : Obligations.ScratchpadInstructionsIssueTheLanesInRange := by
  unfold Obligations.ScratchpadInstructionsIssueTheLanesInRange
  refine ⟨padLoads_of fun _ _ => rfl, padLoads_of fun _ _ => rfl, padStores_of fun _ _ => rfl, padStores_of fun _ _ => rfl, ?copy⟩
  intro f s c h hroom
  obtain rfl := ready_f h
  rw [show exec (.spcp c.f) s = execSpcp c.f s from rfl, execSpcp, issue_ready h]
  simp only [hroom, padded, Bool.false_eq_true, if_false, finish_done]

end Sys2Proof.Claims
end

section
/-! SUPPORT. Streams, bank commands and the faults that come before them (R116): where nothing is undelivered an instruction does what
its body says. -/

namespace Sys2Proof.Machine

/-- The wave of an instruction keeps its number. -/
@[simp] theorem Ctx.wid_wave (c : Ctx) (s : State) : (c.wave s).wid = c.w.wid := by
  unfold Ctx.wave
  cases h : s.wave? c.w.wid with
  | none => rfl
  | some w => exact State.wid_of_wave? h

/-- An instruction that delivers array faults alone does what its body says where its wave has none. -/
theorem withDelivery_of_no_arrayFault {c : Ctx} {s : State} (body : Act) (hagain : arrayAgain s c.w.wid = false)
    (hfault : arrayFault s c.w.wid = none) : withDelivery c s true false body = body := by
  simp [withDelivery, deliver, hagain, hfault]

/-- An instruction that delivers bank faults alone does what its body says where its wave has none. -/
theorem withDelivery_of_no_bankFault {c : Ctx} {s : State} (body : Act) (hfault : bankFault s c.w.wid = none) :
    withDelivery c s false true body = body := by
  simp [withDelivery, deliver, hfault]

/-! ### Bank commands (R358, R361, R362, R365) -/

/-- A command that its wave has room for is put behind the earlier ones. -/
theorem sendCmd_of_room {c : Ctx} {s : State} {op : BankOp} (hlen : (s.bcmds.filter fun x => x.wid == c.w.wid).length < 64)
    (hroom : op.counted = true → outstFull c.w 1 = false) : sendCmd c s op = .done (Claims.commanded c s op) := by
  have hfull : (decide ((s.bcmds.filter fun x => x.wid == c.w.wid).length ≥ bankLimit) || (op.counted && outstFull c.w 1)) = false := by
    rw [Bool.or_eq_false_iff, Bool.and_eq_false_imp]
    exact ⟨by simpa [bankLimit] using hlen, hroom⟩
  simp only [sendCmd, hfull, Bool.false_eq_true, if_false]
  rfl

section

variable {c : Ctx} {s : State} {n limit : Nat} {op : BankOp}

/-- A walk whose operands lie in their ranges sends its command. -/
theorem walkIssue_of_room (h : Claims.BankRoom c s) (hpos : 1 ≤ n) (hn : n ≤ limit) (ha : c.va.scalar64 % 32 = 0) :
    walkIssue c s n limit op = .done (Claims.commanded c s op) := by
  obtain ⟨hfault, hlen, hroom⟩ := h
  rw [walkIssue, withDelivery_of_no_bankFault _ hfault, sendCmd_of_room hlen fun _ => hroom]
  simp [ha, Nat.not_lt.2 hn, Nat.ne_of_gt hpos]

/-- A walk of no column does nothing. -/
theorem walkIssue_of_zero (hfault : bankFault s c.w.wid = none) (hn : n = 0) (ha : c.va.scalar64 % 32 = 0) :
    walkIssue c s n limit op = .done s := by
  rw [walkIssue, withDelivery_of_no_bankFault _ hfault]
  simp [hn, ha]

/-- A walk over more columns than its limit, or one that starts at no column, is an illegal operand. -/
theorem walkIssue_of_illegal (hfault : bankFault s c.w.wid = none) (h : limit < n ∨ c.va.scalar64 % 32 ≠ 0) :
    walkIssue c s n limit op = .illopnd := by
  rw [walkIssue, withDelivery_of_no_bankFault _ hfault]
  simp [h]

/-- A function operation on a count of pages in its range sends its command. -/
theorem bkfn_of_room {out : Bool} (h : Claims.BankRoom c s) (hpos : 1 ≤ c.vb.scalar.toNat) (hn : c.vb.scalar.toNat ≤ 65536) :
    bkfn c s out = .done (Claims.commanded c s (if out then .fnOut c.vb.scalar.toNat else .fnIn c.vb.scalar.toNat)) := by
  obtain ⟨hfault, hlen, hroom⟩ := h
  rw [bkfn, withDelivery_of_no_bankFault _ hfault]
  simp [fnLimit, Nat.not_lt.2 hn, Nat.ne_of_gt hpos, sendCmd_of_room hlen fun _ => hroom]

theorem bkfn_of_zero {out : Bool} (hfault : bankFault s c.w.wid = none) (hn : c.vb.scalar = 0) : bkfn c s out = .done s := by
  rw [bkfn, withDelivery_of_no_bankFault _ hfault]
  simp [hn]

theorem bkfn_of_many {out : Bool} (hfault : bankFault s c.w.wid = none) (hn : 65536 < c.vb.scalar.toNat) : bkfn c s out = .illopnd := by
  rw [bkfn, withDelivery_of_no_bankFault _ hfault]
  simp [fnLimit, hn]

end

/-- A landing group is no bank command. -/
@[simp] theorem openLanding_bcmds (s : State) (w : Wave) (gid : Nat) (dest : LandDest) (load held : Bool) (vals : List (Nat × Nat)) :
    (openLanding s w gid dest load held vals).bcmds = s.bcmds := by
  unfold openLanding
  split <;> dsimp only <;> split <;> rfl

/-! ### Performing (R371) -/

/-- A command whose walk has to be checked and fails keeps its fault. -/
theorem runCmd_of_error {s : State} {c : BankCmd} {d : Deferred} (hwalk : c.pos = 0 ∨ pagesNow s c ≠ c.pages) (h : cmdCheck s c = .error d) :
    runCmd s c = faultCmd s c d := by
  have hcheck : (c.pos == 0 || pagesNow s c != c.pages) = true := by simpa using hwalk
  simp only [runCmd, checkedPages, hcheck, if_true, h]

theorem Aside.noteFault (s : State) (asid cause va : Nat) : Aside s (s.noteFault asid cause va) := by
  unfold State.noteFault
  split
  · exact .refl s
  · exact .noteWalk s asid va

theorem Aside.bcmds {s t : State} (h : Aside s t) : t.bcmds = s.bcmds := by
  have ho := congrArg State.bcmds h.only
  exact ho

/-- Where no Halting wave reports it, a fault stays with its command, whose repeats are counted for one address (R173). -/
theorem faultCmd_bcmds {s : State} {c : BankCmd} {d : Deferred} (h : (s.wave? c.wid).filter (fun w => w.st == .halting) = none) :
    (faultCmd s c d).bcmds = modify (fun x => x.cid == c.cid) (fun x => { x with
      fault := some d, count := if x.fkey = some d.addr then x.count else 0, fkey := some d.addr }) s.bcmds := by
  have hside := Aside.noteFault s c.asid d.cause d.addr
  have hwave : (s.noteFault c.asid d.cause d.addr).wave? c.wid = s.wave? c.wid := by rw [State.wave?, hside.waves, State.wave?]
  simp only [faultCmd, hwave, h, hside.bcmds, beq_iff_eq]

end Sys2Proof.Machine

namespace Sys2Proof.Claims

open Sys2Proof.Machine

/-- Binding a stream takes a free queue and a free queue context (R187, R191). -/
theorem bindStream_completes {i : Fields → Instr} {write : Bool} (hexec : ∀ f s, exec (i f) s = bindStream (i f) f s write) (qn n : Nat) :
    Completes i (fun c s => c.d = some (.q qn) ∧ c.b = some (.s n)
      ∧ c.w.q.getD qn none = none ∧ (streamOf c write qn n s.nextId).base % tySize (tyF c.f) = 0
      ∧ ((streamOf c write qn n s.nextId).dims.all fun d => d.2 % (tySize (tyF c.f) : Int) == 0) = true
      ∧ (write = false ∨ (streamOf c write qn n s.nextId).sp = false ∨ c.node.launch.scratch ≠ 0)
      ∧ streamsUsed s c.w < 32 ∧ unitTurn s (unitStreams c.w.core c.w.quad) c.w.wid = true)
    (fun c s =>
      let t := streamOf c write qn n s.nextId
      let u := { unitLeave s (unitStreams c.w.core c.w.quad) c.w.wid with nextId := s.nextId + 1, streams := s.streams ++ [t] }
      u.setWave { c.wave u with q := (c.wave u).q.set qn (some t.sid) }) := by
  intro f s c h ⟨hd, hb, hfree, hbase, hdims, hpad, hroom, hturn⟩
  rw [hexec, bindStream, issue_ready h]
  generalize start s = s at *
  have hty : (streamOf c write qn n s.nextId).ty = tyF c.f := rfl
  have hdims : ((streamOf c write qn n s.nextId).dims.any fun d => d.2 % (tySize (tyF c.f) : Int) != 0) = false := by
    simpa [List.all_eq_not_any_not, bne] using hdims
  have hpad : (write && (streamOf c write qn n s.nextId).sp && c.node.launch.scratch == 0) = false := by
    obtain rfl | hsp | hscratch := hpad
    · rfl
    · simp [hsp]
    · simp [hscratch]
  have hroom : ¬ streamsUsed s c.w ≥ Config.queueContexts := Nat.not_le.2 hroom
  simp only [hd, hb, hfree, hty, hbase, hdims, hpad, hroom, hturn, Option.isSome_none, bne_self_eq_false, Bool.or_self, Bool.false_eq_true, if_false,
    Bool.not_true, decide_false]
  rfl

/-- Settles O21: `astr` and `astw` share `bindStream`; `aend` finds no stream in its queue, or one that neither repeats a store nor has
stopped with an entry left. -/
theorem streamsAreBoundAndEnded : Obligations.StreamsAreBoundAndEnded := by
  unfold Obligations.StreamsAreBoundAndEnded
  refine ⟨fun write qn n => ?bind, fun qn => ?free, fun qn t => ?bound⟩
  case bind =>
    cases write with
    | false => exact bindStream_completes (fun _ _ => rfl) qn n
    | true => exact bindStream_completes (fun _ _ => rfl) qn n
  case free =>
    intro f s c h ⟨ha, hagain, hfault, hnone⟩
    rw [show exec (.aend f) s = execAend f s from rfl, execAend, issue_ready h, withDelivery_of_no_arrayFault _ hagain hfault]
    simp only [ha, hnone]
    rfl
  case bound =>
    intro f s c h ⟨ha, hagain, hfault, hsome, htagain, hstopped⟩
    rw [show exec (.aend f) s = execAend f s from rfl, execAend, issue_ready h, withDelivery_of_no_arrayFault _ hagain hfault]
    simp only [ha, hsome, htagain]
    obtain hstopped | hentries := hstopped
    · simp only [hstopped]
      rfl
    · cases hs : t.stopped <;> simp only [hentries, List.head?_nil] <;> rfl

/-! ### Bank instructions (R358 to R366, R371) -/

/-- Settles O28: the walks share `walkIssue`, whose checks come before its command, and `bkfn` is as them with the count of pages alone;
`bred` answers at the first check that fails. -/
theorem bankInstructionsSendTheirCommands : Obligations.BankInstructionsSendTheirCommands := by
  unfold Obligations.BankInstructionsSendTheirCommands
  refine ⟨?bkbc, ?bkmac, ?walkZero, ?fnZero, ?macTrap, ?opTrap, ?fnTrap, ?bkop, ?bkst, ?bkrd, ?fnIn, ?fnOut, ?bredOdd, ?bredBlock, ?bred
    , ?perform, fun s c d h => faultCmd_bcmds h⟩
  case bkbc =>
    intro f s c h ⟨hfault, hlen, hroom⟩
    obtain rfl := ready_f h
    rw [show exec (.bkbc c.f) s = execBkbc c.f s from rfl, execBkbc, issue_ready h, withDelivery_of_no_bankFault _ hfault,
      sendCmd_of_room hlen fun _ => hroom]
    rfl
  case bkmac =>
    intro f s c h ⟨hroom, hpos, hn, ha⟩
    obtain rfl := ready_f h
    rw [show exec (.bkmac c.f) s = execBkmac c.f s from rfl, execBkmac, issue_ready h, walkIssue_of_room hroom hpos hn ha]
    rfl
  case walkZero =>
    rintro i (rfl | rfl) f s c h ⟨hfault, hzero, ha⟩
    · rw [show exec (.bkmac f) s = execBkmac f s from rfl, execBkmac, issue_ready h,
        walkIssue_of_zero hfault (congrArg BitVec.toNat hzero) ha]
      rfl
    · rw [show exec (.bkop f) s = execBkop f s from rfl, execBkop, issue_ready h,
        walkIssue_of_zero hfault (congrArg BitVec.toNat hzero) ha]
      rfl
  case fnZero =>
    rintro i (rfl | rfl) f s c h ⟨hfault, hzero⟩
    · rw [show exec (.bkfnIn f) s = execBkfnIn f s from rfl, execBkfnIn, issue_ready h, bkfn_of_zero hfault hzero]
      rfl
    · rw [show exec (.bkfnOut f) s = execBkfnOut f s from rfl, execBkfnOut, issue_ready h, bkfn_of_zero hfault hzero]
      rfl
  case macTrap =>
    intro f s c h ⟨hfault, hill⟩
    rw [show exec (.bkmac f) s = execBkmac f s from rfl, execBkmac, issue_ready h, walkIssue_of_illegal hfault hill]
    rfl
  case opTrap =>
    intro f s c h ⟨hfault, hill⟩
    obtain rfl := ready_f h
    have hill : (if c.f.m 3 3 == 1 then 2 ^ 32 else 8) < c.vb.scalar.toNat ∨ c.va.scalar64 % 32 ≠ 0 :=
      hill.imp_left fun ⟨hcol, hn⟩ => by simpa [hcol] using hn
    rw [show exec (.bkop c.f) s = execBkop c.f s from rfl, execBkop, issue_ready h, walkIssue_of_illegal hfault hill]
    rfl
  case fnTrap =>
    rintro i (rfl | rfl) f s c h ⟨hfault, hn⟩
    · rw [show exec (.bkfnIn f) s = execBkfnIn f s from rfl, execBkfnIn, issue_ready h, bkfn_of_many hfault hn]
      rfl
    · rw [show exec (.bkfnOut f) s = execBkfnOut f s from rfl, execBkfnOut, issue_ready h, bkfn_of_many hfault hn]
      rfl
  case bkop =>
    intro f s c h ⟨hroom, hpos, hn, ha⟩
    obtain rfl := ready_f h
    have hlimit : c.vb.scalar.toNat ≤ if (c.f.m 3 3 == 1) = true then 2 ^ 32 else 8 := by
      obtain hrow | hn := hn
      · simpa [hrow] using c.vb.scalar.isLt.le
      · split <;> omega
    rw [show exec (.bkop c.f) s = execBkop c.f s from rfl, execBkop, issue_ready h, walkIssue_of_room hroom hpos hlimit ha]
    rfl
  case bkst =>
    intro f s c h ⟨hroom, ha⟩
    obtain rfl := ready_f h
    rw [show exec (.bkst c.f) s = execBkst c.f s from rfl, execBkst, issue_ready h, walkIssue_of_room hroom le_rfl le_rfl ha]
    rfl
  case bkrd =>
    intro r f s c h ⟨hfault, hlen, hd⟩
    obtain rfl := ready_f h
    rw [show exec (.bkrd c.f) s = execBkrd c.f s from rfl, execBkrd, issue_ready h, withDelivery_of_no_bankFault _ hfault]
    simp only [hd]
    rw [sendCmd_of_room (by simpa using hlen) fun hc => by cases hc]
    rfl
  case fnIn =>
    intro f s c h ⟨hroom, hpos, hn⟩
    rw [show exec (.bkfnIn f) s = execBkfnIn f s from rfl, execBkfnIn, issue_ready h, bkfn_of_room hroom hpos hn]
    rfl
  case fnOut =>
    intro f s c h ⟨hroom, hpos, hn⟩
    rw [show exec (.bkfnOut f) s = execBkfnOut f s from rfl, execBkfnOut, issue_ready h, bkfn_of_room hroom hpos hn]
    rfl
  case bredOdd =>
    intro f s c h ⟨hfault, ha⟩
    rw [show exec (.bred f) s = execBred f s from rfl, execBred, issue_ready h, withDelivery_of_no_bankFault _ hfault]
    simp only [bne_iff_ne, ne_eq, ha, not_false_eq_true, if_true]
    rfl
  case bredBlock =>
    intro bs u f s c h ⟨hfault, ha, hread, hblock⟩
    rw [show exec (.bred f) s = execBred f s from rfl, execBred, issue_ready h, withDelivery_of_no_bankFault _ hfault]
    simp only [ha, withRead, hread, hblock]
    rfl
  case bred =>
    intro bs u x f s c h ⟨hfault, ha, hread, hblock, hcheck, hx, hlen, hturn, hres⟩
    rw [show exec (.bred f) s = execBred f s from rfl, execBred, issue_ready h, withDelivery_of_no_bankFault _ hfault]
    have hlen : ¬ (u.jobs.filter fun j => j.stack == stackOf x.pa).length ≥ jobLimit := Nat.not_le.2 hlen
    simp only [ha, withRead, hread, hblock, hcheck, hx, hlen, hturn, hres, bne_self_eq_false, Bool.not_true, Bool.or_self,
      Bool.false_eq_true, if_false]
    rfl
  case perform =>
    intro cid s c d hfind hawake hready u hwalk hcheck
    rw [show exec (.bankCommandPerform cid) s = execBankCommandPerform cid s from rfl, execBankCommandPerform]
    have hcid : c.cid = cid := by simpa using List.find?_some hfind
    simp only [hfind, hawake, hready, if_true, hcid]
    rw [runCmd_of_error hwalk hcheck]

end Sys2Proof.Claims
end

section
/-! SUPPORT. Accesses at their place (O38): what admits one performs it. -/

namespace Sys2Proof.Machine

/-- A line is open where a contribution to it is collected (R216). -/
theorem isOpen_iff {s : State} {asid line : Nat} : isOpen s asid line = true ↔ ∃ e ∈ s.redos, e.asid = asid ∧ e.addr / 128 = line := by
  simp [isOpen, lineEntries]

/-- The accesses that are performed together are of one group and touch the same bytes in the same way. -/
theorem of_mem_twins {s : State} {a x : Access} (h : x ∈ twins s a) :
    x.gid = a.gid ∧ x.addr = a.addr ∧ x.size = a.size ∧ x.kind = a.kind ∧ x.st = .issued := by
  have hx := (List.mem_filter.1 h).2
  simp only [Bool.and_eq_true, beq_iff_eq] at hx
  obtain ⟨⟨⟨⟨⟨hgid, hst⟩, hkind⟩, -⟩, haddr⟩, hsize⟩ := hx
  exact ⟨hgid, haddr, hsize, hkind, hst⟩

/-- A finite contribution enters the exact sum at its scale. -/
theorem RedoEntry.sum_add_fin (e : RedoEntry) (neg : Bool) (m : Nat) (x : Int) : (e.add (.fin neg m x)).sum =
    e.sum + (if neg then -((m * 2 ^ (x + 1074).toNat : Nat) : Int) else ((m * 2 ^ (x + 1074).toNat : Nat) : Int)) := rfl

/-- A contribution keeps the place and the generation of its entry. -/
theorem RedoEntry.add_place (e : RedoEntry) (v : FV) : (e.add v).addr = e.addr ∧ (e.add v).gen = e.gen := by
  cases v with
  | nan sig => exact ⟨rfl, rfl⟩
  | inf neg => cases neg <;> exact ⟨rfl, rfl⟩
  | fin neg m x => exact ⟨rfl, rfl⟩

section
variable {id fid : Nat} {s : State} {a : Access} {t : Trans} {ts : List Trans}

theorem execStoreAtHome_of_issued (ha : s.acc? id = some a) (hst : a.st = .issued) (hatom : a.kind.isAtomic = false)
    (hredo : a.kind.isRedo = false) : execStoreAtHome id s = match admission s a with
      | .go t => .next (performStore s a t)
      | .hold f => .next (s.enterHold f)
      | .wait => .next (lockAcc s a) := by
  simp only [execStoreAtHome, ha, hst, hatom, hredo, bne_self_eq_false, Bool.or_self, Bool.false_eq_true, if_false]
    <;> rfl

theorem execAtomicAtPlace_of_issued (ha : s.acc? id = some a) (hst : a.st = .issued) (hatom : a.kind.isAtomic = true) :
    execAtomicAtPlace id s = match admission s a with
      | .go t => .next (if a.space == .glob && isOpen s a.asid (a.addr / 128) then deferAtomic s a else performAtomic s a t)
      | .hold f => .next (s.enterHold f)
      | .wait => .next (lockAcc s a) := by
  simp only [execAtomicAtPlace, ha, hst, hatom, bne_self_eq_false, Bool.not_true, Bool.or_self, Bool.false_eq_true, if_false]
    <;> rfl

/-- A deferred atomic whose line has closed goes by its context and its family, and one of the host by neither. -/
theorem execDeferredAtomic_of_ready (hstop : s.plat.stopped = false) (ha : s.acc? id = some a) (hst : a.st = .deferred)
    (hready : deferredReady s a = true) (ht : accTrans s a = some (t :: ts)) : execDeferredAtomic id s = match a.kind with
      | .host _ => .next (performHost s a t)
      | _ => if !ctxAdmits s a then .next s else match famAdmits s a t (t :: ts) with
        | .go t => .next (performAtomic s a t)
        | .hold f => .next (s.enterHold f)
        | .wait => .next s := by
  simp only [execDeferredAtomic, ha, hst, hready, hstop, ht, bne_self_eq_false, Bool.not_true, Bool.or_self, Bool.false_eq_true, if_false]
  cases a.kind <;> rfl

/-- A family in HOLD lets the atomics through that were deferred before and are no cause of their own to hold it (R324). -/
theorem famAdmits_of_deferred {f : Family} (hf : famOfNode s a.node = some f) (hst : f.st = .hold) (ha : a.st = .deferred)
    (hhold : holdTrigger s a f ts = false) : famAdmits s a t ts = .go t := by
  unfold famAdmits
  split
  · rfl
  · simp only [hf, hst, ha, hhold, beq_self_eq_true, Bool.not_false, Bool.and_self, if_true]

end

end Sys2Proof.Machine

namespace Sys2Proof.Claims

open Sys2Proof.Machine

/-- Settles O38: each event by its equation for an access that is issued or deferred, with what the access's admission answers. -/
theorem accessesArePerformedAtTheirPlace : Obligations.AccessesArePerformedAtTheirPlace := by
  unfold Obligations.AccessesArePerformedAtTheirPlace
  refine ⟨?load, fun s a x hx => of_mem_twins hx, fun _ _ _ _ => rfl, ?loadWaits, ?store, ?pad, ?glob, ?atomic, ?deferred
    , fun s a t ts f hf hst ha hhold => famAdmits_of_deferred hf hst ha hhold, ?stopped, ?host, ?redo, ?hold, ?add⟩
  case load =>
    intro id s a acq inst z t ha hkind hst hgo
    show execLoadAtHome id s = _
    simp only [execLoadAtHome, ha, hkind, hst, hgo]
  case loadWaits =>
    intro id s a acq inst z ha hkind hst hwait
    show execLoadAtHome id s = _
    simp only [execLoadAtHome, ha, hkind, hst, hwait]
  case store =>
    intro id s a t ha hst hatom hredo hgo
    exact (execStoreAtHome_of_issued ha hst hatom hredo).trans (by rw [hgo])
  case pad =>
    intro s a t k rel hkind hspace
    simp only [performStore, hkind, hspace]
  case glob =>
    intro s a t rel hkind hspace
    simp only [performStore, hkind, hspace, putBytes]
    split <;> rfl
  case atomic =>
    intro id s a t ha hst hatom hgo
    refine (execAtomicAtPlace_of_issued ha hst hatom).trans ?_
    simp only [hgo, Bool.and_eq_true, beq_iff_eq, isOpen_iff]
  case deferred =>
    intro id s a t ts hstop ha hst hready ht hctx hhost
    have h := execDeferredAtomic_of_ready hstop ha hst hready ht
    have hbody : execDeferredAtomic id s = match famAdmits s a t (t :: ts) with
        | .go t => .next (performAtomic s a t)
        | .hold f => .next (s.enterHold f)
        | .wait => .next s := by
      rw [h]
      cases hk : a.kind <;> simp_all
    exact ⟨fun hgo => hbody.trans (by rw [hgo]), fun fid hhold => hbody.trans (by rw [hhold])⟩
  case stopped =>
    intro id s a hstop ha
    show execDeferredAtomic id s = _
    simp [execDeferredAtomic, ha, hstop]
  case host =>
    intro id s a t ts op hstop ha hst hready ht hkind
    exact (execDeferredAtomic_of_ready hstop ha hst hready ht).trans (by rw [hkind])
  case redo =>
    intro id s a dbl t f ha hkind hst hgo hf
    show execRedoContribution id s = _
    simp only [execRedoContribution, ha, hkind, hst, hgo, hf]
  case hold =>
    intro id s a fid ha hst hhold
    exact ⟨fun hatom => (execAtomicAtPlace_of_issued ha hst hatom).trans (by rw [hhold])
      , fun hatom hredo => (execStoreAtHome_of_issued ha hst hatom hredo).trans (by rw [hhold])⟩
  case add =>
    intro e v
    obtain ⟨haddr, hgen⟩ := e.add_place v
    refine ⟨haddr, hgen, fun n m x hv _ => ?_⟩
    rw [hv, RedoEntry.sum_add_fin]

end Sys2Proof.Claims
end

section
/-! SUPPORT. The host and the links (O45): comparators, the atomics of the host, and the rate and the width that a link trains to. -/

namespace Sys2Proof.Machine

/-! ### Comparators (R436) -/

/-- A comparator just written is the one that is read. -/
theorem comparator_of_written (s : State) (core idx : Nat) (v : BitVec 128) :
    comparator { s with comps := { core := core, idx := idx, value := v } :: s.comps.filter fun k => !(k.core == core && k.idx == idx) }
      core idx = v := by
  simp [comparator]

/-- The offset of a comparator's low or high half names its core and its number. -/
theorem comparator_offset {core idx h : Nat} (hi : idx < 12) (hh : h < 2) :
    (4096 * core + 16 * idx + 8 * h) / 4096 = core ∧ (4096 * core + 16 * idx + 8 * h) % 4096 = 16 * idx + 8 * h
      ∧ (16 * idx + 8 * h) / 16 = idx ∧ (16 * idx + 8 * h) / 8 % 2 = h := by omega

/-- The half of a comparator that is written, without the bits that it does not have. -/
def writtenHalf (h v : Nat) : Nat := if h = 0 then v % 2 ^ 64 else v % 2 ^ 20 + v / 2 ^ 32 % 2 ^ 32 * 2 ^ 32

/-- A word without bits 20 to 31. -/
theorem clear_bits_toNat (x : BitVec 64) : (x &&& ~~~(0xFFF#64 <<< 20)).toNat = x.toNat % 2 ^ 20 + x.toNat / 2 ^ 32 * 2 ^ 32 := by
  have hmask : ∀ i < 64, (0xFFF#64 <<< 20).getLsbD i = decide (20 ≤ i ∧ i < 32) := by decide
  refine Nat.eq_of_testBit_eq fun i => ?_
  rw [show x.toNat % 2 ^ 20 + x.toNat / 2 ^ 32 * 2 ^ 32 = 2 ^ 32 * (x.toNat / 2 ^ 32) + x.toNat % 2 ^ 20 by ring,
    Nat.testBit_two_pow_mul_add _ (by omega)]
  simp only [Nat.testBit_mod_two_pow, Nat.testBit_div_two_pow, BitVec.testBit_toNat, BitVec.getLsbD_and, BitVec.getLsbD_not]
  obtain hi | hi := lt_or_ge i 64
  · rw [hmask i hi]
    by_cases hlow : i < 32
    · by_cases hkept : i < 20
      · have hkeep : ¬ 20 ≤ i := by omega
        simp [hlow, hkept, hi, hkeep]
      · have hclear : 20 ≤ i := by omega
        simp [hlow, hkept, hi, hclear]
    · have hback : i - 32 + 32 = i := by omega
      simp [hlow, hi, hback]
  · have hlow : ¬ i < 32 := by omega
    have hback : i - 32 + 32 = i := by omega
    simp [hlow, hback, BitVec.getLsbD_of_ge x i hi]

/-- The low half of a comparator keeps all of its bits. -/
theorem low_half_written (a v : BitVec 64) : ((a ++ v : BitVec 128) &&& ~~~(0xFFF#128 <<< 84)).extractLsb' 0 64 = v := by
  rw [BitVec.extractLsb'_and, BitVec.extractLsb'_append_eq_right,
    show (~~~(0xFFF#128 <<< 84)).extractLsb' 0 64 = BitVec.allOnes 64 from by decide, BitVec.and_allOnes]

/-- The high half of a comparator has no bits 20 to 31. -/
theorem high_half_written (v a : BitVec 64) :
    ((v ++ a : BitVec 128) &&& ~~~(0xFFF#128 <<< 84)).extractLsb' 64 64 = v &&& ~~~(0xFFF#64 <<< 20) := by
  rw [BitVec.extractLsb'_and, BitVec.extractLsb'_append_eq_left]
  congr 1

/-- A comparator's half reads as it was written (R436). -/
theorem debugRead_debugWrite (s : State) {core idx h : Nat} (v : Nat) (hc : core < 128) (hi : idx < 12) (hh : h < 2) :
    debugRead (debugWrite s (4096 * core + 16 * idx + 8 * h) v) (4096 * core + 16 * idx + 8 * h) = writtenHalf h v := by
  obtain ⟨hcore, ho, hidx, hhalf⟩ := comparator_offset (core := core) hi hh
  have hin : (decide (core ≥ Config.cores) || decide (16 * idx + 8 * h ≥ 0xC0)) = false := by
    simp only [Config.cores, Bool.or_eq_false_iff, decide_eq_false_iff_not, ge_iff_le, Nat.not_le]
    omega
  simp only [debugRead, debugWrite, hcore, ho, hidx, hhalf, hin, Bool.false_eq_true, if_false, comparator_of_written]
  obtain rfl | rfl : h = 0 ∨ h = 1 := by omega
  · simp only [show ((0 : Nat) == 1) = false from rfl, Bool.false_eq_true, if_false, low_half_written, writtenHalf, if_true, BitVec.toNat_ofNat]
  · simp only [beq_self_eq_true, if_true, high_half_written, clear_bits_toNat, writtenHalf, BitVec.toNat_ofNat, one_ne_zero, if_false]
    omega

/-! ### Training (R443) -/

/-- The greatest element of a list within a bound that one of its elements meets. -/
theorem greatest_within {l : List Nat} {n x : Nat} (hx : x ∈ l) (hn : x ≤ n) :
    (l.filter fun x => x ≤ n).foldl max 0 ∈ l ∧ (l.filter fun x => x ≤ n).foldl max 0 ≤ n
      ∧ ∀ y ∈ l, y ≤ n → y ≤ (l.filter fun x => x ≤ n).foldl max 0 := by
  have hmem : x ∈ l.filter fun x => x ≤ n := by simp [hx, hn]
  obtain ⟨a, ha⟩ := Option.isSome_iff_exists.1 (List.isSome_max?_of_mem hmem)
  obtain ⟨hal, hle⟩ := List.max?_eq_some_iff.1 ha
  have hal : a ∈ l ∧ a ≤ n := by simpa using hal
  have hbest : (l.filter fun x => x ≤ n).foldl max 0 = a := by rw [List.foldl_max, ha]; simp
  rw [hbest]
  exact ⟨hal.1, hal.2, fun y hy hyn => hle y (by simp [hy, hyn])⟩

end Sys2Proof.Machine

namespace Sys2Proof.Claims

open Sys2Proof.Machine

/-- Settles O45: the host's accesses by their equations where the part runs and no group is parked, a comparator by the half that is
written, and a link's rate and width by `greatest_within`. -/
theorem hostAccessesAndLinks : Obligations.HostAccessesAndLinks := by
  unfold Obligations.HostAccessesAndLinks
  refine ⟨?write, ?writeStopped, ?register, ?comparators, ?read, ?atomic, fun _ _ => rfl, ?training, ?image, ?badFlit, ?data, ?stepAck, ?stepAbort, ?lane⟩
  case write =>
    intro asid va bs s hstop hpark
    show execHostWrite asid va bs s = _
    simp only [execHostWrite, hstop, hpark, Bool.or_self, Bool.false_eq_true, if_false]
  case writeStopped =>
    intro asid va bs s h
    show execHostWrite asid va bs s = _
    have h : (s.plat.stopped || s.anyParked) = true := by simpa using h
    simp only [execHostWrite, h, if_true]
  case register =>
    intro s off v
    show execRegisterWrite 2 (8 * off) v s = _
    cases hs : s.plat.stopped <;> simp [execRegisterWrite, hs]
  case comparators =>
    exact fun s core idx v hc hi => ⟨debugRead_debugWrite s (h := 0) v hc hi (by omega), debugRead_debugWrite s (h := 1) v hc hi (by omega)⟩
  case read =>
    intro asid va n s bs t hstop hpark hread
    show execHostRead asid va n s = _
    simp only [execHostRead, hstop, hpark, hread, Bool.or_self, Bool.false_eq_true, if_false]
  case atomic =>
    intro asid va op arg cmp s t hstop hpark hcheck ht hopen
    show execHostAtomic asid va op 8 arg cmp s = _
    have harg : arg.toNat % 2 ^ (8 * 8) = arg.toNat := Nat.mod_eq_of_lt arg.isLt
    have hcmp : cmp.toNat % 2 ^ (8 * 8) = cmp.toNat := Nat.mod_eq_of_lt cmp.isLt
    have hopen' : isOpen { s with nextId := s.nextId + 1 } asid (va / 128) = false := hopen
    simp only [execHostAtomic, hstop, hpark, beq_self_eq_true, if_true, hcheck, ht, Bool.or_self, Bool.false_eq_true, if_false, State.fresh, hopen',
      harg, hcmp, performHost, hostReply]
    cases op
    · rfl
    · rfl
    · generalize atHome _ asid va t = v
      generalize v.readVal asid none va t 8 = old
      by_cases heq : old = cmp.toNat
      · simp only [AccKind.stores, atomApply, heq, beq_self_eq_true, if_true, ne_eq, not_true, and_false, if_false]
        rfl
      · simp only [AccKind.stores, beq_eq_false_iff_ne.2 heq, ne_eq, heq, not_false_eq_true, and_self, Bool.false_eq_true, if_true, if_false]
        rfl
  case training =>
    intro speed width s hspeed hwidth
    obtain ⟨hv, hvle, hvmax⟩ := greatest_within (l := linkSpeeds) (x := 25) (by decide) hspeed
    obtain ⟨hw, hwle, hwmax⟩ := greatest_within (l := linkWidths) (x := 1) (by decide) hwidth
    refine ⟨_, _, hv, hvle, hvmax, hw, hwle, hwmax, ?_⟩
    have hvpos := hvmax 25 (by decide) hspeed
    have hwpos := hwmax 1 (by decide) hwidth
    show execHostLinkTraining speed width s = _
    rw [execHostLinkTraining, if_neg]
    simp only [Bool.or_eq_true, beq_iff_eq]
    omega
  case image =>
    intro e l v s hrec
    show execRecoveryImageLoad e l v s = _
    simp [execRecoveryImageLoad, hrec, imageOk, and_assoc]
  case badFlit =>
    intro port seq ok body s hport hbad
    show execPeerFlit port seq ok body s = _
    have hbad : (ok && seq == (portOf s port).nextSeq) = false := by
      obtain rfl | hseq := hbad
      · rfl
      · simp [hseq]
    simp only [execPeerFlit, peerPorts, Nat.not_le.2 hport, hbad, Bool.false_eq_true, if_false]
  case data =>
    intro port s hport
    show execPeerFlit port _ true .data s = _
    simp only [execPeerFlit, peerPorts, Nat.not_le.2 hport, beq_self_eq_true, Bool.and_self, if_true, if_false]
  case stepAck =>
    intro port s hport
    show execPeerFlit port _ true (.stepAck _) s = _
    simp only [execPeerFlit, peerPorts, Nat.not_le.2 hport, beq_self_eq_true, Bool.and_self, if_true, if_false]
  case stepAbort =>
    intro port step s hport
    show execSwitchStepAbort port step s = _
    simp only [execSwitchStepAbort, peerPorts, Nat.not_le.2 hport, if_false]
  case lane =>
    intro port s hport
    show execLinkLaneFailure port s = _
    simp only [execLinkLaneFailure, peerPorts, Nat.not_le.2 hport, if_false]

end Sys2Proof.Claims
end

section
/-! SUPPORT. The memory list is canonical (log entry 1): what keeps it so, and the operations of the model that leave it as it is. -/

namespace Sys2Proof.Machine

-- One declaration at a time: elaborated at once, so many of them would ask for more threads than there is memory for.
set_option Elab.async false

/-! ### What keeps a canonical memory -/

theorem mem_wf_of_eq {s t : State} (h : t.mem = s.mem) (hs : s.mem.wf = true) : t.mem.wf = true :=
  h ▸ hs

theorem wf_ite {c : Prop} [Decidable c] {s t : State} (hs : s.mem.wf = true) (ht : t.mem.wf = true) :
    (if c then s else t).mem.wf = true := by
  split
  · exact hs
  · exact ht

theorem getD_wf {o : Option State} {s : State} (ho : ∀ t, o = some t → t.mem.wf = true) (hs : s.mem.wf = true) :
    (o.getD s).mem.wf = true := by
  cases o with
  | none => exact hs
  | some t => exact ho t rfl

/-- What every step of a fold keeps, the whole fold keeps. -/
theorem foldl_keeps {α β : Type} {g : β → α → β} {P : β → Prop} (h : ∀ x a, P x → P (g x a)) (l : List α) {x : β} (hx : P x) :
    P (l.foldl g x) := by
  induction l generalizing x with
  | nil => exact hx
  | cons a l ih => exact ih (h x a hx)

section
variable {α β : Type} {l : List α}

theorem mem_foldl {g : State → α → State} {s : State} (hg : ∀ s x, (g s x).mem = s.mem) : (l.foldl g s).mem = s.mem :=
  foldl_keeps (P := fun t : State => t.mem = s.mem) (fun t x h => (hg t x).trans h) l rfl

theorem mem_foldl_fst {g : State × β → α → State × β} {s : State × β} (hg : ∀ s x, (g s x).1.mem = s.1.mem) :
    (l.foldl g s).1.mem = s.1.mem :=
  foldl_keeps (P := fun t : State × β => t.1.mem = s.1.mem) (fun t x h => (hg t x).trans h) l rfl

theorem mem_foldl_snd {g : β × State → α → β × State} {s : β × State} (hg : ∀ s x, (g s x).2.mem = s.2.mem) :
    (l.foldl g s).2.mem = s.2.mem :=
  foldl_keeps (P := fun t : β × State => t.2.mem = s.2.mem) (fun t x h => (hg t x).trans h) l rfl

theorem wf_foldl {g : State → α → State} {s : State} (hg : ∀ s x, s.mem.wf = true → (g s x).mem.wf = true) (hs : s.mem.wf = true) :
    (l.foldl g s).mem.wf = true :=
  foldl_keeps (P := fun t : State => t.mem.wf = true) hg l hs

theorem wf_foldl_fst {g : State × β → α → State × β} {s : State × β} (hg : ∀ s x, s.1.mem.wf = true → (g s x).1.mem.wf = true)
    (hs : s.1.mem.wf = true) : (l.foldl g s).1.mem.wf = true :=
  foldl_keeps (P := fun t : State × β => t.1.mem.wf = true) hg l hs

theorem wf_foldl_snd {g : β × State → α → β × State} {s : β × State} (hg : ∀ s x, s.2.mem.wf = true → (g s x).2.mem.wf = true)
    (hs : s.2.mem.wf = true) : (l.foldl g s).2.mem.wf = true :=
  foldl_keeps (P := fun t : β × State => t.2.mem.wf = true) hg l hs

end

/-! ### Results whose states have a canonical memory

Each predicate says of a kind of result that every state in it has one. -/

def Act.Wf : Act → Prop
  | .done t | .jump t _ | .rest t _ | .await t _ | .queue t | .replay t .. | .final t => t.mem.wf = true
  | .wait | .trap .. => True

def KAct.Wf : KAct → Prop
  | .go t _ | .jump t .. => t.mem.wf = true
  | .stop .. | .fault .. => True

def RdRes.Wf : RdRes → Prop
  | .ok _ t => t.mem.wf = true
  | _ => True

def Prep.Wf : Prep → Prop
  | .stop a => a.Wf
  | _ => True

def KiteFetch.Wf : KiteFetch → Prop
  | .word _ t | .ended t => t.mem.wf = true

def Fetched.Wf : Fetched → Prop
  | .word _ t => t.mem.wf = true
  | _ => True

def SrcRes.Wf : SrcRes → Prop
  | .fault t _ => t.mem.wf = true
  | _ => True

def RowIn.Wf : RowIn → Prop
  | .wait _ t | .stop _ _ t | .row _ _ _ t => t.mem.wf = true

/-! ### Memory and translation -/

@[simp] theorem setPort_mem (s : State) (p : Port) : (setPort s p).mem = s.mem :=
  rfl

@[simp] theorem State.setGroup_mem (s : State) (g : Group) : (s.setGroup g).mem = s.mem :=
  rfl

@[simp] theorem State.repeatFlit_mem (s : State) : s.repeatFlit.mem = s.mem := by
  unfold State.repeatFlit
  grind

@[simp] theorem State.noteWalk_mem (s : State) (asid va : Nat) : (s.noteWalk asid va).mem = s.mem := by
  unfold State.noteWalk
  grind [State.noteTag_mem, mem_foldl]

@[simp] theorem State.noteFault_mem (s : State) (asid cause va : Nat) : (s.noteFault asid cause va).mem = s.mem := by
  unfold State.noteFault
  grind [State.noteWalk_mem]

@[simp] theorem State.tlbFill_mem (s : State) (asid va : Nat) : (s.tlbFill asid va).mem = s.mem := by
  unfold State.tlbFill
  grind [State.noteWalk_mem]

@[simp] theorem State.reach_mem (s : State) (asid va : Nat) (t : Trans) : (s.reach asid va t).mem = s.mem := by
  unfold State.reach
  grind [State.noteTag_mem, State.sendFlit_mem]

@[simp] theorem freeBytes_mem (s : State) (n : Nat) : (freeBytes s n).2.mem = s.mem :=
  rfl

@[simp] theorem State.noteWrite_mem (s : State) (asid addr n : Nat) (plain : Bool) : (s.noteWrite asid addr n plain).mem = s.mem :=
  rfl

@[simp] theorem State.openBytes_mem (s : State) (undef : Bool) (bs : List Byte) : (s.openBytes undef bs).2.mem = s.mem := by
  unfold State.openBytes
  split <;> rfl

@[simp] theorem State.raiseMark_mem (s : State) (slice v : Nat) : (s.raiseMark slice v).mem = s.mem :=
  rfl

@[simp] theorem State.choose_mem {α : Type} (s : State) (l : List α) : (s.choose l).2.mem = s.mem :=
  rfl

@[simp] theorem State.roomL1_mem (s : State) (core : Nat) : (s.roomL1 core).mem = s.mem := by
  unfold State.roomL1
  grind [State.choose_mem]

@[simp] theorem State.leaveCluster_mem (s : State) (die : Option Nat) (asid va : Nat) : (s.leaveCluster die asid va).mem = s.mem :=
  rfl

@[simp] theorem State.updateL1_mem (s : State) (core asid va : Nat) (fam : Option Nat) (bs : List Byte) :
    (s.updateL1 core asid va fam bs).mem = s.mem :=
  rfl

@[simp] theorem State.grantL1_mem (s : State) (core asid va : Nat) (fam : Option Nat) (t : Trans) :
    (s.grantL1 core asid va fam t).mem = s.mem := by
  unfold State.grantL1
  grind [State.roomL1_mem]

@[simp] theorem State.partTouch_mem (s : State) (asid va : Nat) : (s.partTouch asid va).mem = s.mem := by
  unfold State.partTouch
  grind [State.noteTag_mem, State.noteWalk_mem]

@[simp] theorem State.touchRange_mem (s : State) (asid va n : Nat) : (s.touchRange asid va n).mem = s.mem := by
  unfold State.touchRange
  simp [State.partTouch_mem, mem_foldl]

@[simp] theorem physTouch_mem (s : State) (pa n : Nat) : (physTouch s pa n).mem = s.mem :=
  rfl

/-! ### Versions and task families -/

@[simp] theorem State.dropWaiters_mem (s : State) (p : Nat → Bool) : (s.dropWaiters p).mem = s.mem :=
  rfl

@[simp] theorem State.releaseDependents_mem (s : State) (nid : Nat) : (s.releaseDependents nid).mem = s.mem :=
  rfl

@[simp] theorem State.dropVersion_mem (s : State) (fid : Nat) : (s.dropVersion fid).mem = s.mem :=
  rfl

@[simp] theorem State.enterHold_mem (s : State) (fid : Nat) : (s.enterHold fid).mem = s.mem :=
  rfl

@[simp] theorem State.stopQueue_mem (s : State) (n : Node) (status : Nat) : (s.stopQueue n status).mem = s.mem := by
  unfold State.stopQueue
  grind [State.setCtx_mem, State.setNode_mem]

@[simp] theorem State.rerunNode_mem (s : State) (o : Node) (avoid : List Nat) (checked : Bool) :
    (s.rerunNode o avoid checked).mem = s.mem :=
  rfl

@[simp] theorem State.stopWaves_mem (s : State) (p : Nat → Bool) : (s.stopWaves p).mem = s.mem :=
  rfl

@[simp] theorem State.raiseVector_mem (s : State) (c : Context) : (s.raiseVector c).mem = s.mem :=
  rfl

/-! ### The frame of an instruction -/

@[simp] theorem State.landFinished_mem (s : State) (w : Wave) : (s.landFinished w).mem = s.mem := by
  unfold State.landFinished
  split <;> rfl

@[simp] theorem popOne_mem (s : State) (w : Wave) (m : Word) (qn : Nat) : (popOne s w m qn).mem = s.mem := by
  unfold popOne
  grind [State.setStream_mem, State.setWave_mem]

@[simp] theorem popAll_mem (s : State) (w : Wave) (m : Word) (qs : List Nat) : (popAll s w m qs).mem = s.mem := by
  unfold popAll
  simp [popOne_mem, mem_foldl]

@[simp] theorem pushQ_mem (s : State) (w : Wave) (qn : Nat) (m : Word) (vals : List Nat) : (pushQ s w qn m vals).mem = s.mem := by
  unfold pushQ
  grind [State.setStream_mem, State.setWave_mem]

@[simp] theorem compHit_mem (s : State) (core idx : Nat) : (compHit s core idx).mem = s.mem :=
  rfl

@[simp] theorem tellEntry_mem (s : State) (sid k : Nat) : (tellEntry s sid k).mem = s.mem :=
  rfl

@[simp] theorem Ctx.putVec_mem (c : Ctx) (s : State) (count : Nat) (m : Word) (g : Nat → Nat) :
    (Ctx.putVec c s count m g).mem = s.mem := by
  unfold Ctx.putVec
  grind [State.setWave_mem, pushQ_mem]

@[simp] theorem Ctx.putScalar_mem (c : Ctx) (s : State) (count v : Nat) : (Ctx.putScalar c s count v).mem = s.mem := by
  unfold Ctx.putScalar
  split <;> rfl

@[simp] theorem Ctx.putPred_mem (c : Ctx) (s : State) (m v : Word) : (Ctx.putPred c s m v).mem = s.mem := by
  unfold Ctx.putPred
  split <;> rfl

@[simp] theorem Ctx.addFlags_mem (c : Ctx) (s : State) (fl : Flags) : (Ctx.addFlags c s fl).mem = s.mem :=
  rfl

/-! ### Troupes -/

@[simp] theorem spWrite_mem (s : State) (node core off n v : Nat) : (spWrite s node core off n v).mem = s.mem := by
  unfold spWrite
  grind [State.setSpad_mem, freeBytes_mem, mem_foldl_snd]

@[simp] theorem setTw_mem (s : State) (node : Nat) (r : TroupeRef) (t : TWord) : (setTw s node r t).mem = s.mem := by
  unfold setTw
  split <;> rfl

@[simp] theorem onMembers_mem (s : State) (node : Nat) (r : TroupeRef) (g : Wave → Wave) : (onMembers s node r g).mem = s.mem :=
  rfl

@[simp] theorem troupeRelease_mem (s : State) (node : Nat) (r : TroupeRef) : (troupeRelease s node r).mem = s.mem := by
  unfold troupeRelease
  simp [onMembers_mem, setTw_mem]

@[simp] theorem troupeTest_mem (s : State) (node : Nat) (r : TroupeRef) : (troupeTest s node r).mem = s.mem := by
  unfold troupeTest
  grind [troupeRelease_mem]

theorem troupeArrive_mem {s : State} {node : Nat} {r : TroupeRef} {kind : Bool} {y : Nat × State}
    (hy : troupeArrive s node r kind = some y) : y.2.mem = s.mem := by
  unfold troupeArrive at hy
  grind [onMembers_mem, setTw_mem]

@[simp] theorem troupeLeave_mem (s : State) (w : Wave) : (troupeLeave s w).mem = s.mem := by
  unfold troupeLeave
  grind [State.setWave_mem, setTw_mem, troupeTest_mem]

@[simp] theorem endStream_mem (s : State) (sid : Nat) : (endStream s sid).mem = s.mem := by
  unfold endStream
  grind [State.setStream_mem]

/-! ### Deferred faults and deliveries -/

@[simp] theorem State.setArray_mem (s : State) (a : ArrayBank) : (s.setArray a).mem = s.mem :=
  rfl

@[simp] theorem lessOutst_mem (s : State) (wid n : Nat) : (lessOutst s wid n).mem = s.mem := by
  unfold lessOutst
  split <;> rfl

@[simp] theorem popCmd_mem (s : State) (a : ArrayBank) : (popCmd s a).mem = s.mem :=
  rfl

@[simp] theorem discardCmd_mem (s : State) (a : ArrayBank) (h : ArrCmd) : (discardCmd s a h).mem = s.mem := by
  unfold discardCmd
  grind [lessOutst_mem, popCmd_mem]

@[simp] theorem discardBank_mem (s : State) (c : BankCmd) : (discardBank s c).mem = s.mem := by
  unfold discardBank
  grind [lessOutst_mem]

@[simp] theorem discardEntry_mem (s : State) (t : Stream) : (discardEntry s t).mem = s.mem := by
  unfold discardEntry
  grind [State.setStream_mem, lessOutst_mem]

/-! ### Flags -/

@[simp] theorem Ctx.putFlagged_mem (c : Ctx) (s : State) (count : Nat) (g : Nat → Nat × Flags) :
    (Ctx.putFlagged c s count g).mem = s.mem := by
  unfold Ctx.putFlagged
  simp [Ctx.addFlags_mem, Ctx.putVec_mem]

/-! ### Conversions -/

@[simp] theorem Ctx.putGroup_mem (c : Ctx) (s : State) (p : Nat) (g : Nat → Nat → Nat × Flags) : (Ctx.putGroup c s p g).mem = s.mem := by
  unfold Ctx.putGroup
  split <;> rfl

/-! ### Lane accesses -/

@[simp] theorem State.noteLanes_mem (s : State) (asid size : Nat) (bad : Word) (addr : Nat → Nat) :
    (s.noteLanes asid size bad addr).mem = s.mem := by
  unfold State.noteLanes
  simp [State.noteWalk_mem, mem_foldl]

@[simp] theorem putAccess_mem (s : State) (a : Access) : (putAccess s a).mem = s.mem :=
  rfl

@[simp] theorem addAccess_mem (s : State) (a : Access) : (addAccess s a).mem = s.mem :=
  rfl

@[simp] theorem groupOf_mem (s : State) (w : Wave) : (groupOf s w).2.mem = s.mem := by
  unfold groupOf
  split <;> rfl

@[simp] theorem addOutst_mem (s : State) (wid n : Nat) : (addOutst s wid n).mem = s.mem := by
  unfold addOutst
  split <;> rfl

@[simp] theorem openLanding_mem (s : State) (w : Wave) (gid : Nat) (dest : LandDest) (load held : Bool) (vals : List (Nat × Nat)) :
    (openLanding s w gid dest load held vals).mem = s.mem := by
  unfold openLanding
  grind [State.setWave_mem]

@[simp] theorem issueLoads_mem (s : State) (c : Ctx) (gid : Nat) (m : Word) (ty : Nat) (kind : AccKind) (hits : Bool) (scope : Nat)
    (addr : Nat → Nat) : (issueLoads s c gid m ty kind hits scope addr).1.mem = s.mem := by
  unfold issueLoads
  grind [addAccess_mem, mem_foldl_fst]

@[simp] theorem issueStores_mem (s : State) (c : Ctx) (gid : Nat) (m : Word) (ty : Nat) (release : Bool) (scope : Nat)
    (addr : Nat → Nat) : (issueStores s c gid m ty release scope addr).mem = s.mem :=
  mem_foldl fun _ _ => addAccess_mem _ _

@[simp] theorem noteRange_mem (s : State) (wid : Nat) (bad : Word) : (noteRange s wid bad).mem = s.mem := by
  unfold noteRange
  split <;> rfl

@[simp] theorem issueSpad_mem (s : State) (c : Ctx) (gid : Nat) (m : Word) (loc : Bool) (size : Nat) (kind : Nat → AccKind)
    (data addr : Nat → Nat) : (issueSpad s c gid m loc size kind data addr).mem = s.mem := by
  unfold issueSpad
  grind [addAccess_mem, mem_foldl]

/-! ### Streams -/

@[simp] theorem unitWait_mem (s : State) (u wid : Nat) : (unitWait s u wid).mem = s.mem := by
  unfold unitWait
  split <;> rfl

@[simp] theorem unitLeave_mem (s : State) (u wid : Nat) : (unitLeave s u wid).mem = s.mem :=
  rfl

@[simp] theorem redoStreams_mem (s : State) (wid : Nat) : (redoStreams s wid).mem = s.mem :=
  rfl

@[simp] theorem endStreams_mem (s : State) (wid : Nat) : (endStreams s wid).mem = s.mem := by
  unfold endStreams
  simp [discardEntry_mem, mem_foldl]

/-! ### The array banks -/

@[simp] theorem arrLocal_mem (s : State) (w : Wave) (off n size : Nat) : (arrLocal s w off n size).2.mem = s.mem := by
  unfold arrLocal
  grind [noteRange_mem]

@[simp] theorem noteTern_mem (s : State) (wid : Nat) (b : Bool) : (noteTern s wid b).mem = s.mem := by
  unfold noteTern
  split <;> rfl

@[simp] theorem stPiece_mem (s : State) (w : Wave) (sp : Bool) (addr size : Nat) (row : List (Nat × Flags)) (piece : Nat × Nat) :
    (stPiece s w sp addr size row piece).2.mem = s.mem := by
  unfold stPiece
  grind [noteRange_mem, mem_foldl_snd]

theorem sendStores_mem (s : State) (a : ArrayBank) (h : ArrCmd) (w : Wave) (c : ArrCfg) (rm : Nat) (sr sp : Bool)
    (dst base pitch rows rs : Nat) : (sendStores s a h w c rm sr sp dst base pitch rows rs).2.2.mem = s.mem := by
  refine foldl_keeps (P := fun x : Nat × Option (Nat × Nat) × State => x.2.2.mem = s.mem) (fun x p hx => ?_) _ rfl
  grind [stPiece_mem, lessOutst_mem]

@[simp] theorem resumeArray_mem (s : State) (a : ArrayBank) (h : ArrCmd) : (resumeArray s a h).mem = s.mem := by
  unfold resumeArray
  split <;> rfl

theorem popRows_mem (sid k : Nat) (bs : List Byte) (s : State) : (popRows sid k bs s).2.2.mem = s.mem := by
  induction k generalizing bs s with
  | zero => rfl
  | succ k ih =>
    unfold popRows
    grind [freeBytes_mem, noteRange_mem, State.setStream_mem]

theorem rowScales_mem (s : State) (h : ArrCmd) (scale : Option Nat) : (rowScales s h scale).2.2.mem = s.mem := by
  unfold rowScales
  grind [popRows_mem]

/-! ### Vector float instructions -/

@[simp] theorem fpTest_mem (dbl : Bool) (c : Ctx) (s : State) (comb : Nat) (g : Nat → Nat → Bool × Flags) :
    (fpTest dbl c s comb g).mem = s.mem := by
  unfold fpTest
  simp [Ctx.addFlags_mem, Ctx.putPred_mem]

/-! ### Atomics -/

@[simp] theorem issueAtoms_mem (s : State) (c : Ctx) (gid : Nat) (m : Word) (kind : AccKind) (wide : Bool) (addr : Nat → Nat) :
    (issueAtoms s c gid m kind wide addr).mem = s.mem := by
  unfold issueAtoms
  grind [addAccess_mem, mem_foldl]

/-! ### Tasks -/

theorem addNode_mem {s : State} {c : Context} {n : Node} {y : Node × State} (hy : addNode s c n = some y) : y.2.mem = s.mem := by
  unfold addNode at hy
  grind [State.fresh_mem, State.takeFree_mem]

@[simp] theorem noteFam_mem (s : State) (fam : Option Nat) (g : Nat) : (noteFam s fam g).mem = s.mem := by
  unfold noteFam
  grind [State.setFam_mem]

@[simp] theorem noteGwct_mem (s : State) (nid g : Nat) : (noteGwct s nid g).mem = s.mem := by
  unfold noteGwct
  simp [noteFam_mem]

@[simp] theorem submit_mem (s : State) (x : Context) (n : Node) : (submit s x n).2.mem = s.mem :=
  rfl

@[simp] theorem countTalloc_mem (s : State) (nid idx k : Nat) : (countTalloc s nid idx k).mem = s.mem := by
  unfold countTalloc
  split <;> rfl

@[simp] theorem reachTalloc_mem (s : State) (w : Wave) : (reachTalloc s w).mem = s.mem := by
  unfold reachTalloc
  split <;> rfl

/-! ### Bank commands -/

@[simp] theorem State.setPch_mem (s : State) (p : Pch) : (s.setPch p).mem = s.mem :=
  rfl

@[simp] theorem State.freePch_mem (s : State) (num : Nat) : (s.freePch num).mem = s.mem :=
  rfl

@[simp] theorem bkmodeAt_mem (s : State) (num node wid op : Nat) : (bkmodeAt s num node wid op).2.mem = s.mem := by
  unfold bkmodeAt
  grind [State.freePch_mem, State.setPch_mem]

@[simp] theorem onUnit_mem (s : State) (num b : Nat) (g : Abacus → Abacus) : (onUnit s num b g).mem = s.mem := by
  unfold onUnit
  split <;> rfl

@[simp] theorem countCmd_mem (s : State) (num : Nat) (banks : List Nat) : (countCmd s num banks).mem = s.mem := by
  unfold countCmd
  simp [onUnit_mem, mem_foldl]

@[simp] theorem resumeBank_mem (s : State) (c : BankCmd) : (resumeBank s c).mem = s.mem :=
  rfl

/-! ### Rays -/

@[simp] theorem State.setRay_mem (s : State) (r : Ray) : (s.setRay r).mem = s.mem :=
  rfl

@[simp] theorem recordOf_mem (s : State) (r : Ray) : (recordOf s r).2.mem = s.mem := by
  unfold recordOf
  split <;> rfl

@[simp] theorem contOf_mem (s : State) (r : Ray) : (contOf s r).2.mem = s.mem := by
  unfold contOf
  split <;> rfl

theorem laneRecord_mem (c : Ctx) (val : Ray → List Nat) (x : State × List (Nat × Nat)) (l : Nat) :
    (laneRecord c val x l).1.mem = x.1.mem := by
  unfold laneRecord
  grind [freeBytes_mem]

@[simp] theorem closeGroup_mem (s : State) (o : Node) (cont : Word64) (g : List Ray) : (closeGroup s o cont g).mem = s.mem :=
  rfl

/-! ### Textures -/

@[simp] theorem dropCopies_mem (s : State) (w : Wave) (lines : List Nat) : (dropCopies s w lines).mem = s.mem :=
  rfl

theorem landRead_mem (c : Ctx) (r : LaneReads) (d n : Nat) : (landRead c r d n).2.mem = r.s.mem := by
  unfold landRead
  grind [groupOf_mem, openLanding_mem]

@[simp] theorem issueAttrs_mem (s : State) (c : Ctx) (gid : Nat) (m : Word) (addrs : Nat → List Nat) :
    (issueAttrs s c gid m addrs).mem = s.mem :=
  mem_foldl fun _ _ => mem_foldl fun _ _ => addAccess_mem _ _

@[simp] theorem issueTiles_mem (s : State) (c : Ctx) (gid : Nat) (m : Word) (t : Tex) (op : Nat) :
    (issueTiles s c gid m t op).mem = s.mem :=
  mem_foldl fun _ _ => addAccess_mem _ _

/-! ### Passes -/

@[simp] theorem State.setPass_mem (s : State) (p : Pass) : (s.setPass p).mem = s.mem :=
  rfl

@[simp] theorem passVal_mem (s : State) (asid desc n v : Nat) : (passVal s asid desc n v).2.mem = s.mem := by
  unfold passVal
  simp [State.openBytes_mem]

/-! ### The host -/

@[simp] theorem replayNodes_mem (s : State) (asid : Nat) : (replayNodes s asid).mem = s.mem :=
  rfl

@[simp] theorem ringDoorbell_mem (s : State) (asid q index : Nat) : (ringDoorbell s asid q index).mem = s.mem := by
  unfold ringDoorbell
  grind [State.setCtx_mem]

@[simp] theorem releaseWave_mem (s : State) (wid : Nat) : (releaseWave s wid).mem = s.mem := by
  unfold releaseWave
  grind [State.setWave_mem, redoStreams_mem, resumeArray_mem, resumeBank_mem, mem_foldl]

theorem releaseParked_mem (s : State) (asid : Nat) (p : Nat → Bool) : (releaseParked s asid p).mem = s.mem :=
  mem_foldl fun s w => releaseWave_mem s w.wid

@[simp] theorem resumeDebug_mem (s : State) (wid : Nat) (one : Bool) : (resumeDebug s wid one).mem = s.mem := by
  unfold resumeDebug
  grind [State.setWave_mem]

@[simp] theorem releaseLanes_mem (s : State) (id : Nat) : (releaseLanes s id).mem = s.mem := by
  unfold releaseLanes
  grind [State.setWave_mem]

@[simp] theorem endReplay_mem (s : State) (w : Wave) : (endReplay s w).mem = s.mem := by
  unfold endReplay
  grind [discardBank_mem, discardCmd_mem, endStreams_mem, mem_foldl]

@[simp] theorem raiseGen_mem (s : State) (asid : Nat) : (raiseGen s asid).mem = s.mem := by
  unfold raiseGen
  grind [State.setCtx_mem]

@[simp] theorem raiseOwn_mem (s : State) (asid : Nat) : (raiseOwn s asid).mem = s.mem := by
  unfold raiseOwn
  split <;> rfl

@[simp] theorem startNext_mem (s : State) (asid : Nat) : (startNext s asid).mem = s.mem := by
  unfold startNext
  grind [State.setCtx_mem]

@[simp] theorem queueResume_mem (s : State) (asid q index : Nat) : (queueResume s asid q index).mem = s.mem := by
  unfold queueResume
  grind [State.setCtx_mem]

@[simp] theorem clearStop_mem (s : State) (asid q : Nat) : (clearStop s asid q).mem = s.mem := by
  unfold clearStop
  grind [State.setCtx_mem]

@[simp] theorem queueRerun_mem (s : State) (asid q : Nat) : (queueRerun s asid q).mem = s.mem := by
  unfold queueRerun
  grind [State.setNode_mem, clearStop_mem]

@[simp] theorem queueSkip_mem (s : State) (asid q : Nat) : (queueSkip s asid q).mem = s.mem := by
  unfold queueSkip
  grind [State.setNode_mem, clearStop_mem]

@[simp] theorem startSave_mem (s : State) (asid : Nat) : (startSave s asid).mem = s.mem := by
  unfold startSave
  grind [State.setCtx_mem]

@[simp] theorem startRestore_mem (s : State) (asid : Nat) : (startRestore s asid).mem = s.mem := by
  unfold startRestore
  grind [State.setCtx_mem]

@[simp] theorem startMigrate_mem (s : State) (asid block : Nat) : (startMigrate s asid block).mem = s.mem := by
  unfold startMigrate
  grind [State.setCtx_mem, physTouch_mem]

@[simp] theorem debugWrite_mem (s : State) (off v : Nat) : (debugWrite s off v).mem = s.mem := by
  unfold debugWrite
  grind

/-! ### The homes -/

@[simp] theorem State.modAcc_mem (s : State) (id : Nat) (g : Access → Access) : (s.modAcc id g).mem = s.mem :=
  rfl

@[simp] theorem State.dropAcc_mem (s : State) (id : Nat) : (s.dropAcc id).mem = s.mem :=
  rfl

@[simp] theorem takeCluster_mem (s : State) (core asid va : Nat) : (takeCluster s core asid va).mem = s.mem :=
  rfl

@[simp] theorem nowPerformed_mem (s : State) (a : Access) (gwct : Nat) (fl : Flags) :
    (nowPerformed s a gwct fl).mem = s.mem :=
  rfl

@[simp] theorem pushLand_mem (s : State) (gid : Nat) (vs : List (Nat × Nat)) : (pushLand s gid vs).mem = s.mem :=
  rfl

@[simp] theorem refreshL1_mem (s : State) (core asid va : Nat) (fam : Option Nat) (t : Trans) :
    (refreshL1 s core asid va fam t).mem = s.mem := by
  unfold refreshL1
  split <;> rfl

@[simp] theorem storeSpad_mem (s : State) (a : Access) (core : Nat) (cells : List (Nat × Byte)) :
    (storeSpad s a core cells).mem = s.mem := by
  unfold storeSpad
  simp [spWrite_mem, mem_foldl]

@[simp] theorem sealLine_mem (s : State) (asid line : Nat) : (sealLine s asid line).mem = s.mem :=
  rfl

@[simp] theorem deferAtomic_mem (s : State) (a : Access) : (deferAtomic s a).mem = s.mem := by
  unfold deferAtomic
  grind [State.fresh_mem, State.modAcc_mem, sealLine_mem]

@[simp] theorem rewriteSpad_mem (s : State) (a : Access) (core : Nat) : (rewriteSpad s a core).mem = s.mem := by
  unfold rewriteSpad
  grind [nowPerformed_mem, pushLand_mem, spWrite_mem]

@[simp] theorem sendContrib_mem (s : State) (a : Access) (t : Trans) (p : Port) : (sendContrib s a t p).mem = s.mem := by
  unfold sendContrib
  split <;> rfl

@[simp] theorem hostReply_mem (s : State) (a : Access) (old : Nat) : (hostReply s a old).mem = s.mem :=
  rfl

@[simp] theorem contribute_mem (s : State) (a : Access) (dbl : Bool) (f : Family) : (contribute s a dbl f).mem = s.mem := by
  unfold contribute
  grind [State.fresh_mem, nowPerformed_mem]

@[simp] theorem ackL1_mem (s : State) (a : Access) : (ackL1 s a).mem = s.mem := by
  unfold ackL1
  grind [State.updateL1_mem, refreshL1_mem, mem_foldl]

@[simp] theorem acknowledge_mem (s : State) (a : Access) : (acknowledge s a).mem = s.mem := by
  unfold acknowledge
  grind [State.dropAcc_mem, State.setWave_mem, ackL1_mem, noteFam_mem]

/-! ### The work of the engine -/

theorem engDone_mem (status : Nat) (r : EngRun) : (engDone status r).s.mem = r.s.mem := by
  unfold engDone
  split <;> rfl

/-! ### System instructions -/

@[simp] theorem kickWatchdog_mem (s : State) (asid : Nat) : (kickWatchdog s asid).mem = s.mem := by
  unfold kickWatchdog
  split <;> rfl

/-! ### The puppeteers -/

@[simp] theorem giveSpad_mem (s : State) (n : Node) (core : Nat) : (giveSpad s n core).mem = s.mem := by
  unfold giveSpad
  split <;> rfl

@[simp] theorem giveGrant_mem (s : State) (n : Node) (core quad bank : Nat) : (giveGrant s n core quad bank).mem = s.mem := by
  unfold giveGrant
  split <;> rfl

@[simp] theorem placeWave_mem (s : State) (n : Node) (core quad : Nat) : (placeWave s n core quad).mem = s.mem := by
  unfold placeWave
  simp [State.fresh_mem, State.setNode_mem, State.takeFree_mem, giveGrant_mem, giveSpad_mem]

theorem placeGangWaves_mem {dies : List Nat} {nid k : Nat} {s : State} {y : State} (hy : placeGangWaves dies nid k s = some y) :
    y.mem = s.mem := by
  induction k generalizing s with
  | zero => cases hy; rfl
  | succ k ih =>
    unfold placeGangWaves at hy
    grind [placeWave_mem]

@[simp] theorem makeGangWord_mem (n : Node) (root dies : Nat) (s : State) (die : Nat) : (makeGangWord n root dies s die).mem = s.mem := by
  unfold makeGangWord
  grind [setTw_mem]

theorem placeGang_mem {s : State} {n : Node} {y : State} (hy : placeGang s n = some y) : y.mem = s.mem := by
  unfold placeGang at hy
  grind [→ placeGangWaves_mem, makeGangWord_mem, mem_foldl, State.setNode_mem]

@[simp] theorem openFamily_mem (s : State) (n : Node) : (openFamily s n).2.mem = s.mem := by
  unfold openFamily
  grind [State.fresh_mem]

@[simp] theorem setQuad_mem (s : State) (q : Quad) : (setQuad s q).mem = s.mem :=
  rfl

@[simp] theorem restamp_mem (s : State) (ids : List Nat) : (restamp s ids).mem = s.mem := by
  unfold restamp
  grind [State.setWave_mem, mem_foldl]

@[simp] theorem carryArray_mem (s : State) (w : Wave) (to_ : Nat) : (carryArray s w to_).mem = s.mem :=
  rfl

@[simp] theorem bringBack_mem (s : State) (ws : List Wave) : (bringBack s ws).mem = s.mem :=
  mem_foldl fun _ _ => rfl

@[simp] theorem rewindStreams_mem (s : State) (wid : Nat) : (rewindStreams s wid).mem = s.mem :=
  rfl

@[simp] theorem touchSource_mem (s : State) (c : Context) (p : List Byte) : (touchSource s c p).mem = s.mem := by
  unfold touchSource
  grind [State.touchRange_mem]

@[simp] theorem goDirect_mem (s : State) (fid : Nat) : (goDirect s fid).mem = s.mem :=
  rfl

/-! ### The platform -/

@[simp] theorem dropPch_mem (s : State) (num : Nat) : (dropPch s num).mem = s.mem := by
  unfold dropPch
  simp [discardBank_mem, mem_foldl]

@[simp] theorem stopIfHot_mem (s : State) : (stopIfHot s).mem = s.mem := by
  unfold stopIfHot
  split <;> rfl

@[simp] theorem moveCore_mem (s : State) (ws : List Wave) (src dst : Nat) : (moveCore s ws src dst).mem = s.mem := by
  unfold moveCore
  split <;> rfl

@[simp] theorem turnBanks_mem (ws : List Wave) (s : State) (k : Nat × Nat) : (turnBanks ws s k).mem = s.mem := by
  unfold turnBanks
  grind

@[simp] theorem restoreWaves_mem (s : State) (ws : List Wave) : (restoreWaves s ws).mem = s.mem := by
  unfold restoreWaves
  grind [State.setWave_mem, turnBanks_mem, mem_foldl]

theorem placeCores_mem {benched : Bool} {ids cs : List Nat} {s y : State} (hy : placeCores benched ids cs s = some y) : y.mem = s.mem := by
  induction cs generalizing ids s with
  | nil => cases hy; rfl
  | cons c cs ih =>
    unfold placeCores at hy
    grind [moveCore_mem, restoreWaves_mem]

/-! ### Fetch -/

theorem fetchLine_mem {s : State} {core asid va : Nat} {y : List Byte × State} (hy : fetchLine s core asid va = .ok y) :
    y.2.mem = s.mem := by
  unfold fetchLine at hy
  grind [State.leaveCluster_mem, roomI_mem]

/-! ### Selection -/

@[simp] theorem countWaits_mem (s : State) (core quad wid : Nat) : (countWaits s core quad wid).mem = s.mem :=
  rfl

end Sys2Proof.Machine
end

section
/-! SUPPORT. The memory list stays canonical under the operations that write it or run one that does. -/

namespace Sys2Proof.Machine

-- One declaration at a time: elaborated at once, so many of them would ask for more threads than there is memory for.
set_option Elab.async false

/-! ### Memory and translation -/

theorem State.resumePuts_wf {s : State} (p : Nat → Bool) (hs : s.mem.wf = true) : (s.resumePuts p).mem.wf = true :=
  wf_foldl (fun _ _ hs => Memory.setBytes_wf _ _ hs) hs

theorem State.writeBack_wf {s : State} (h : HomeLine) (hs : s.mem.wf = true) : (s.writeBack h).mem.wf = true := by
  unfold State.writeBack
  grind [State.memPut_wf]

theorem State.evict_wf {s : State} (h : HomeLine) (hs : s.mem.wf = true) : (s.evict h).mem.wf = true := by
  unfold State.evict
  grind [State.raiseMark_mem, State.writeBack_wf]

theorem State.toVictim_wf {s : State} (h : HomeLine) (hs : s.mem.wf = true) : (s.toVictim h).mem.wf = true := by
  unfold State.toVictim
  grind [State.choose_mem, State.evict_wf, State.modHome_mem, State.raiseMark_mem]

theorem State.roomSlice_wf {s : State} (slice : Nat) (nt : Bool) (hs : s.mem.wf = true) : (s.roomSlice slice nt).mem.wf = true := by
  unfold State.roomSlice
  grind [State.choose_mem, State.evict_wf, State.toVictim_wf]

theorem State.roomFor_wf {s : State} (va : Nat) (t : Trans) (nt : Bool) (hs : s.mem.wf = true) : (s.roomFor va t nt).mem.wf = true := by
  unfold State.roomFor
  grind [State.roomL1_mem, State.roomSlice_wf]

theorem State.ensureLine_wf {s : State} (asid va : Nat) (t : Trans) (nt : Bool) (hs : s.mem.wf = true) :
    (s.ensureLine asid va t nt).mem.wf = true := by
  unfold State.ensureLine
  grind [State.modHome_mem, State.reach_mem, State.roomFor_wf, State.tlbFill_mem]

theorem State.dramPut_wf {s : State} (asid va pa : Nat) (bs : List Byte) (hs : s.mem.wf = true) :
    (s.dramPut asid va pa bs).mem.wf = true := by
  unfold State.dramPut
  grind [State.memPut_wf, State.reach_mem]

theorem State.writeCommitted_wf {s : State} (asid va : Nat) (t : Trans) (bs : List Byte) (hs : s.mem.wf = true) :
    (s.writeCommitted asid va t bs).mem.wf = true := by
  unfold State.writeCommitted
  grind [State.memPut_wf, State.modHome_mem]

theorem State.writeVal_wf {s : State} (asid : Nat) (fam : Option Nat) (va : Nat) (t : Trans) (bs : List Byte)
    (hs : s.mem.wf = true) : (s.writeVal asid fam va t bs).mem.wf = true := by
  unfold State.writeVal
  grind [State.setFam_mem, State.writeCommitted_wf]

theorem State.fillHome_wf {s : State} (die asid va : Nat) (t : Trans) (hs : s.mem.wf = true) :
    (s.fillHome die asid va t).mem.wf = true := by
  unfold State.fillHome
  grind [State.ensureLine_wf, State.leaveCluster_mem]

theorem State.fillVictim_wf {s : State} (asid va : Nat) (hs : s.mem.wf = true) : (s.fillVictim asid va).mem.wf = true := by
  unfold State.fillVictim
  grind [State.toVictim_wf]

theorem State.partPut_wf {s : State} (asid va : Nat) (bs : List Byte) (hs : s.mem.wf = true) : (s.partPut asid va bs).mem.wf = true := by
  unfold State.partPut
  grind [State.landPorts_wf, State.touchRange_mem, State.writeCommitted_wf, wf_foldl]

theorem State.partWrite_wf {s : State} (asid va : Nat) (bs : List Byte) (hs : s.mem.wf = true) :
    (s.partWrite asid va bs).mem.wf = true := by
  unfold State.partWrite
  grind [State.partPut_wf]

theorem State.resumeWaits_wf {s : State} (hs : s.mem.wf = true) : s.resumeWaits.mem.wf = true := by
  unfold State.resumeWaits
  grind [State.partWrite_wf, wf_foldl]

theorem physPut_wf {s : State} (pa : Nat) (bs : List Byte) (hs : s.mem.wf = true) : (physPut s pa bs).mem.wf = true := by
  unfold physPut
  grind [State.memPut_wf]

theorem writeSave_wf {s : State} (asid : Nat) (hs : s.mem.wf = true) : (writeSave s asid).mem.wf = true := by
  unfold writeSave
  grind [freeBytes_mem, physPut_wf, physTouch_mem]

/-! ### Versions and task families -/

theorem State.freeRays_wf {s : State} (p : Ray → Bool) (hs : s.mem.wf = true) : (s.freeRays p).mem.wf = true := by
  unfold State.freeRays
  grind [State.partWrite_wf, wf_foldl]

theorem State.releaseUnits_wf {s : State} (gone : Nat → Bool) (hs : s.mem.wf = true) : (s.releaseUnits gone).mem.wf = true := by
  unfold State.releaseUnits
  grind [State.freeRays_wf]

theorem State.dropWaves_wf {s : State} (p : Wave → Bool) (hs : s.mem.wf = true) : (s.dropWaves p).mem.wf = true := by
  unfold State.dropWaves
  grind [State.dropWaiters_mem, State.releaseUnits_wf]

theorem State.freeNode_wf {s : State} (n : Node) (hs : s.mem.wf = true) : (s.freeNode n).mem.wf = true := by
  unfold State.freeNode
  grind [State.releaseUnits_wf]

theorem State.cancelNodes_wf {s : State} (ids : List Nat) (hs : s.mem.wf = true) : (s.cancelNodes ids).mem.wf = true := by
  unfold State.cancelNodes
  grind [State.dropWaves_wf, State.freeNode_wf, State.releaseDependents_mem, wf_foldl]

theorem State.discardFamily_wf {s : State} (fid : Nat) (hs : s.mem.wf = true) : (s.discardFamily fid).mem.wf = true := by
  unfold State.discardFamily
  grind [State.cancelNodes_wf, State.dropVersion_mem, State.dropWaves_wf, State.releaseUnits_wf]

theorem State.cancelMembers_wf {s : State} (owner : Nat) (fam : Option Nat) (hs : s.mem.wf = true) :
    (s.cancelMembers owner fam).mem.wf = true := by
  unfold State.cancelMembers
  grind [State.cancelNodes_wf]

theorem State.endHolding_wf {s : State} (nid : Nat) (hs : s.mem.wf = true) : (s.endHolding nid).mem.wf = true := by
  unfold State.endHolding
  grind [State.releaseUnits_wf]

theorem State.stopConts_wf {s : State} (owner : Nat) (hs : s.mem.wf = true) : (s.stopConts owner).mem.wf = true := by
  unfold State.stopConts
  grind [State.cancelNodes_wf, State.freeRays_wf, State.stopWaves_mem]

theorem State.endDirect_wf {s : State} (n : Node) (rerunIdem checked : Bool) (avoid : List Nat) (hs : s.mem.wf = true) :
    (s.endDirect n rerunIdem checked avoid).mem.wf = true := by
  unfold State.endDirect
  grind [State.endHolding_wf, State.rerunNode_mem, State.stopConts_wf, State.stopQueue_mem, State.stopWaves_mem]

theorem State.endFamily_wf {s : State} (n : Node) (rerunSpec rerunIdem : Bool) (avoid : List Nat)
    (hs : s.mem.wf = true) : (s.endFamily n rerunSpec rerunIdem avoid).mem.wf = true := by
  unfold State.endFamily
  grind [State.cancelMembers_wf, State.discardFamily_wf, State.dropWaves_wf, State.endDirect_wf, State.releaseUnits_wf,
    State.rerunNode_mem, State.stopQueue_mem]

theorem State.endFamilyTrapped_wf {s : State} (n : Node) (hs : s.mem.wf = true) : (s.endFamilyTrapped n).mem.wf = true := by
  unfold State.endFamilyTrapped
  grind [State.endFamily_wf]

theorem State.endFamilyChecked_wf {s : State} (n : Node) (hs : s.mem.wf = true) : (s.endFamilyChecked n).mem.wf = true := by
  unfold State.endFamilyChecked
  grind [State.endFamily_wf]

theorem State.endTrapped_wf {s : State} (wt : Waiter) (hs : s.mem.wf = true) : (s.endTrapped wt).mem.wf = true := by
  unfold State.endTrapped
  grind [State.endFamilyTrapped_wf]

theorem State.flushFq_wf (n asid : Nat) {s : State} (hs : s.mem.wf = true) : (State.flushFq n s asid).mem.wf = true := by
  induction n generalizing s with
  | zero => exact hs
  | succ n ih =>
    unfold State.flushFq
    grind [State.partTouch_mem, State.setCtx_mem, State.partWrite_wf, State.raiseVector_mem, State.endTrapped_wf]

theorem State.appendRec_wf {s : State} (r : FaultRec) (wt : Waiter) (hs : s.mem.wf = true) : (s.appendRec r wt).mem.wf = true := by
  unfold State.appendRec
  grind [State.flushFq_wf, State.setCtx_mem]

theorem State.flushEv_wf (n asid : Nat) {s : State} (hs : s.mem.wf = true) : (State.flushEv n s asid).mem.wf = true := by
  induction n generalizing s with
  | zero => exact hs
  | succ n ih =>
    unfold State.flushEv
    grind [State.partTouch_mem, State.setCtx_mem, State.partWrite_wf, State.raiseVector_mem]

theorem State.flushRings_wf {s : State} (asid : Nat) (hs : s.mem.wf = true) : (s.flushRings asid).mem.wf = true := by
  unfold State.flushRings
  grind [State.flushEv_wf, State.flushFq_wf]

theorem State.appendEv_wf {s : State} (asid : Nat) (r : List Byte) (hs : s.mem.wf = true) : (s.appendEv asid r).mem.wf = true := by
  unfold State.appendEv
  grind [State.flushEv_wf, State.setCtx_mem]

theorem State.contextEvent_wf {s : State} (c : Context) (status : Nat) (hs : s.mem.wf = true) :
    (s.contextEvent c status).mem.wf = true := by
  unfold State.contextEvent
  grind [State.appendEv_wf]

/-! ### The frame of an instruction -/

theorem State.takeTrap_wf {s : State} (w : Wave) (r : FaultRec) (epc : Word64) (hs : s.mem.wf = true) :
    (s.takeTrap w r epc).mem.wf = true := by
  unfold State.takeTrap
  grind [State.appendRec_wf, State.landFinished_mem, State.setWave_mem, wf_foldl]

theorem State.enterReplay_wf {s : State} (w : Wave) (cause addr : Nat) (faults todo : Word) (gid : Option Nat)
    (src : Nat) (pc : Option Word64) (cmd : Option Nat) (hs : s.mem.wf = true) :
    (s.enterReplay w cause addr faults todo gid src pc cmd).mem.wf = true := by
  unfold State.enterReplay
  grind [State.appendRec_wf, State.noteFault_mem, State.setWave_mem]

theorem State.holdReplay_wf {s : State} (w : Wave) (cause addr : Nat) (faults : Word) (src : Nat) (pc : Option Word64) (count : Nat)
    (hs : s.mem.wf = true) : (s.holdReplay w cause addr faults src pc count).mem.wf = true := by
  unfold State.holdReplay
  grind [State.enterReplay_wf]

theorem State.debugStop_wf {s : State} (w : Wave) (cause : Nat) (mask : Word) (info : Nat) (pc : Word64) (hs : s.mem.wf = true) :
    (s.debugStop w cause mask info pc).mem.wf = true := by
  unfold State.debugStop
  grind [State.appendRec_wf, State.setWave_mem, State.takeTrap_wf]

theorem Act.replayRest_wf {s : State} (w : Wave) (cause addr : Nat) (faults : Word) (hs : s.mem.wf = true) :
    (Act.replayRest s w cause addr faults).Wf := by
  unfold Act.replayRest
  grind [Act.Wf]

theorem afterStep_wf {s : State} (wid : Nat) (hs : s.mem.wf = true) : (afterStep s wid).mem.wf = true := by
  unfold afterStep
  grind [State.debugStop_wf]

theorem finish_wf (c : Ctx) {s : State} {a : Act} (hs : s.mem.wf = true) (ha : a.Wf) : (finish c s a).mem.wf = true := by
  unfold finish
  grind [popAll_mem, State.setWave_mem, afterStep_wf, State.takeTrap_wf, State.enterReplay_wf, Act.Wf]

theorem readSrc_wf {s : State} (w : Wave) (place : Nat) (u : OpUse) (r : ROp) (fe : Bool) (qs : List Nat) (hs : s.mem.wf = true) :
    (readSrc s w place u r fe qs).Wf := by
  unfold readSrc
  grind [tellEntry_mem, SrcRes.Wf]

theorem streamFault_wf {s : State} (w : Wave) (t : Stream) (e : QEntry) (hs : s.mem.wf = true) : (streamFault s w t e).Wf := by
  unfold streamFault
  grind [State.holdReplay_wf, State.setStream_mem, Act.Wf]

theorem destCheck_wf {s : State} {w : Wave} {m : Word} {u : OpUse} {r : ROp} {y : Act} (hy : destCheck s w m u r = some y)
    (hs : s.mem.wf = true) : y.Wf := by
  unfold destCheck at hy
  grind [streamFault_wf, Act.Wf]

theorem readSources_wf (i : Instr) {s : State} (c : Ctx) (hs : s.mem.wf = true) : (readSources i s c).Wf := by
  unfold readSources
  dsimp only
  repeat' split
  all_goals grind [readSrc_wf, SrcRes.Wf, Act.replayRest_wf, Act.Wf, Prep.Wf]

theorem destWait_wf {i : Instr} {s : State} {c : Ctx} {y : Act} (hy : destWait i s c = some y) (hs : s.mem.wf = true) : y.Wf := by
  unfold destWait at hy
  grind [→ destCheck_wf, Act.Wf]

theorem prepare_wf (i : Instr) (f : Fields) (w : Wave) {s : State} (hs : s.mem.wf = true) : (prepare i f w s).Wf := by
  unfold prepare
  split
  · exact True.intro
  split
  · exact True.intro
  split
  · exact True.intro
  dsimp only
  split
  · exact True.intro
  · exact True.intro
  split
  · exact True.intro
  split
  · exact True.intro
  split
  case h_1 ha => exact destWait_wf ha hs
  · exact readSources_wf i _ hs

/-! ### Deferred faults and deliveries -/

theorem haltingFault_wf {s : State} (w : Wave) (d : Deferred) (src : Nat) (hs : s.mem.wf = true) :
    (haltingFault s w d src).mem.wf = true := by
  unfold haltingFault
  grind [State.appendRec_wf]

theorem deferredTrap_wf {s : State} (w : Wave) (d : Deferred) (pc : Word64) (src : Nat) (hs : s.mem.wf = true) :
    (deferredTrap s w d pc src).mem.wf = true := by
  unfold deferredTrap
  grind [State.takeTrap_wf]

theorem deliver_wf {s : State} {w : Wave} {arr bank : Bool} {y : State} (hy : deliver s w arr bank = some y)
    (hs : s.mem.wf = true) : y.mem.wf = true := by
  unfold deliver at hy
  grind [State.holdReplay_wf, State.setArray_mem, deferredTrap_wf, discardBank_mem, discardCmd_mem]

theorem withDelivery_wf (c : Ctx) {s : State} (arr bank : Bool) {body : Act} (hs : s.mem.wf = true) (hb : body.Wf) :
    (withDelivery c s arr bank body).Wf := by
  unfold withDelivery
  grind [→ deliver_wf, Act.Wf]

theorem reportHeld_wf {s : State} (w : Wave) (hs : s.mem.wf = true) : (reportHeld s w).mem.wf = true := by
  unfold reportHeld
  grind [discardBank_mem, discardCmd_mem, discardEntry_mem, haltingFault_wf, wf_foldl]

/-! ### Control -/

theorem branchIf_wf (c : Ctx) {s : State} (b : Bool) (hs : s.mem.wf = true) : (branchIf c s b).Wf := by
  unfold branchIf
  grind [Act.Wf]

theorem haltWave_wf {s : State} (w : Wave) (hs : s.mem.wf = true) : (haltWave s w).mem.wf = true := by
  unfold haltWave
  grind [State.freeRays_wf, State.setWave_mem, endStream_mem, reportHeld_wf, troupeLeave_mem, wf_foldl]

theorem haltAct_wf (c : Ctx) {s : State} {body : State → Act} (hs : s.mem.wf = true) (hb : (body s).Wf) : (haltAct c s body).Wf := by
  refine withDelivery_wf c true true hs ?_
  grind [streamFault_wf, Act.Wf]

/-! ### Lane accesses -/

theorem dataStop_wf {s : State} (c : Ctx) (k : Nat) (hit : Word) (hs : s.mem.wf = true) : (dataStop s c k hit).Wf := by
  unfold dataStop
  grind [State.debugStop_wf, compHit_mem, Act.Wf]

theorem vectorLoad_wf (c : Ctx) {s : State} (ty : Nat) (kind : AccKind) (hits : Bool) (scope : Nat) (addr : Nat → Nat)
    (hs : s.mem.wf = true) : (vectorLoad c s ty kind hits scope addr).Wf := by
  unfold vectorLoad
  grind [State.noteLanes_mem, dataStop_wf, groupOf_mem, issueLoads_mem, openLanding_mem, Act.Wf]

theorem vectorStore_wf (c : Ctx) {s : State} (ty : Nat) (release : Bool) (scope : Nat) (addr : Nat → Nat) (hs : s.mem.wf = true) :
    (vectorStore c s ty release scope addr).Wf := by
  unfold vectorStore
  grind [State.noteLanes_mem, addOutst_mem, dataStop_wf, groupOf_mem, issueStores_mem, Act.Wf]

theorem spLoad_wf (c : Ctx) {s : State} (loc : Bool) (ty : Nat) (addr : Nat → Nat) (hs : s.mem.wf = true) :
    (spLoad c s loc ty addr).Wf := by
  unfold spLoad
  grind [State.fresh_mem, issueSpad_mem, noteRange_mem, openLanding_mem, Act.Wf]

theorem spStore_wf (c : Ctx) {s : State} (loc : Bool) (ty : Nat) (addr : Nat → Nat) (hs : s.mem.wf = true) :
    (spStore c s loc ty addr).Wf := by
  unfold spStore
  grind [State.fresh_mem, addOutst_mem, issueSpad_mem, noteRange_mem, Act.Wf]

/-! ### Streams -/

theorem loadNow_wf {s : State} (core asid va size : Nat) (fam : Option Nat) (t : Trans) (hs : s.mem.wf = true) :
    (loadNow s core asid va size fam t).2.mem.wf = true := by
  unfold loadNow
  grind [State.ensureLine_wf, State.grantL1_mem, State.leaveCluster_mem, State.noteWalk_mem, State.reach_mem]

theorem loadAt_wf {s : State} {w : Wave} {va size n : Nat} {y : Nat × State} (hy : loadAt s w va size n = .ok y)
    (hs : s.mem.wf = true) : y.2.mem.wf = true := by
  unfold loadAt at hy
  grind [loadNow_wf]

theorem fetchLanes_wf {s : State} (t : Stream) (w : Wave) (i0 : Nat) (todo : Word) (e : QEntry) (hs : s.mem.wf = true) :
    (fetchLanes s t w i0 todo e).1.mem.wf = true := by
  unfold fetchLanes
  grind [State.noteFault_mem, → loadAt_wf, wf_foldl_fst]

theorem refetch_wf {s : State} (t : Stream) (w : Wave) (hs : s.mem.wf = true) : (refetch s t w).mem.wf = true := by
  unfold refetch
  grind [State.setStream_mem, fetchLanes_wf, wf_foldl_fst]

theorem storeEntry_wf {s : State} (t : Stream) (w : Wave) (hs : s.mem.wf = true) : (storeEntry s t w).mem.wf = true := by
  unfold storeEntry
  grind [State.fresh_mem, State.noteLanes_mem, State.setStream_mem, State.setWave_mem, haltingFault_wf, noteRange_mem, putAccess_mem,
    wf_foldl]

/-! ### The array banks -/

theorem arrGlobal_wf {s : State} {w : Wave} {va n : Nat} {y : List Byte × State} (hy : arrGlobal s w va n = .ok y) (hs : s.mem.wf = true) :
    y.2.mem.wf = true := by
  refine foldlM_keeps (P := fun x : List Byte × State => x.2.mem.wf = true) (fun x p y hy hx => ?_) _ hy hs
  grind [→ loadAt_wf]

theorem arrRead_wf {s : State} {w : Wave} {sp : Bool} {a n size : Nat} {y : List Byte × State} (hy : arrRead s w sp a n size = .ok y)
    (hs : s.mem.wf = true) : y.2.mem.wf = true := by
  unfold arrRead at hy
  grind [arrLocal_mem, → arrGlobal_wf]

theorem readCols_wf {s : State} {w : Wave} {c : ArrCfg} {sp img : Bool} {j base pitch : Nat} {y : List PlaneCol × State}
    (hy : readCols s w c sp img j base pitch = .ok y) (hs : s.mem.wf = true) : y.2.mem.wf = true := by
  refine foldlM_keeps (P := fun x : List PlaneCol × State => x.2.mem.wf = true) (fun x k y hy hx => ?_) _ hy hs
  simp only [bind, Except.bind] at hy
  grind [→ arrRead_wf, noteTern_mem]

theorem stopArray_wf {s : State} (a : ArrayBank) (d : Deferred) (hs : s.mem.wf = true) : (stopArray s a d).mem.wf = true := by
  unfold stopArray
  grind [State.noteFault_mem, State.setArray_mem, discardCmd_mem, haltingFault_wf]

theorem startCmd_wf {s : State} (a : ArrayBank) (h : ArrCmd) (w : Wave) (hs : s.mem.wf = true) : (startCmd s a h w).mem.wf = true := by
  unfold startCmd
  dsimp only
  split
  case h_4 =>
    split
    · exact stopArray_wf a _ hs
    · exact readCols_wf ‹_› hs
  all_goals grind [popCmd_mem, stopArray_wf, sendStores_mem, State.setWave_mem, State.setArray_mem]

theorem queueRow_wf {s : State} (h : ArrCmd) (n sid : Nat) (scale : Option Nat) (hs : s.mem.wf = true) : (queueRow s h n sid scale).Wf := by
  unfold queueRow
  grind [popRows_mem, rowScales_mem, RowIn.Wf]

theorem nextRow_wf {s : State} (w : Wave) (c : ArrCfg) (h : ArrCmd) (hs : s.mem.wf = true) : (nextRow s w c h).Wf := by
  unfold nextRow
  grind [arrLocal_mem, queueRow_wf, RowIn.Wf]

theorem streamRow_wf {s : State} (a : ArrayBank) (h : ArrCmd) (w : Wave) (base rows rs : Nat) (hs : s.mem.wf = true) :
    (streamRow s a h w base rows rs).mem.wf = true := by
  have hrow : (if h.pass == 0 then nextRow s w (arrCfg h.cfg) h else .row [] [] h s).Wf := by
    split
    · exact nextRow_wf w _ h hs
    · exact hs
  unfold streamRow
  dsimp only
  split
  all_goals
    rename_i heq
    rw [heq] at hrow
  · exact hrow
  · exact stopArray_wf _ _ hrow
  · grind [noteTern_mem, popCmd_mem, State.setArray_mem, RowIn.Wf]

/-! ### Atomics -/

theorem atomLanes_wf (c : Ctx) {s : State} (kind : AccKind) (wide ret redo : Bool) (off : Int) (hs : s.mem.wf = true) :
    (atomLanes c s kind wide ret redo off).Wf := by
  unfold atomLanes
  dsimp only
  repeat' split
  all_goals grind [dataStop_wf, State.noteLanes_mem, groupOf_mem, issueAtoms_mem, addOutst_mem, openLanding_mem,
    noteRange_mem, Act.det, Act.Wf]

/-! ### Completion -/

theorem State.markDone_wf {s : State} (n : Node) (hs : s.mem.wf = true) : (s.markDone n).mem.wf = true := by
  unfold State.markDone
  grind [State.freeNode_wf, State.releaseUnits_wf, State.setNode_mem]

theorem State.settleN_wf (k : Nat) {s : State} (hs : s.mem.wf = true) : (State.settleN k s).mem.wf = true := by
  induction k generalizing s with
  | zero => exact hs
  | succ k ih =>
    unfold State.settleN
    grind [State.markDone_wf]

theorem State.settle_wf {s : State} (hs : s.mem.wf = true) : s.settle.mem.wf = true := by
  unfold State.settle
  grind [State.settleN_wf]

/-! ### Tasks -/

theorem readOwn_wf (c : Ctx) {s : State} (va n : Nat) (hs : s.mem.wf = true) : (readOwn c s va n).Wf := by
  unfold readOwn
  grind [→ arrGlobal_wf, RdRes.Wf]

theorem withRead_wf (c : Ctx) {s : State} (va n : Nat) {body : List Byte → State → Act} (hs : s.mem.wf = true)
    (hb : ∀ bs t, t.mem.wf = true → (body bs t).Wf) : (withRead c s va n body).Wf := by
  unfold withRead
  grind [readOwn_wf, RdRes.Wf, Act.replayRest_wf, Act.Wf]

theorem newNode_wf (c : Ctx) {s : State} (x : Context) (n : Node) (hs : s.mem.wf = true) : (newNode c s x n).Wf := by
  unfold newNode
  grind [→ addNode_mem, Ctx.putScalar_mem, Act.Wf]

theorem freeUnsubmitted_wf {s : State} (n : Node) (hs : s.mem.wf = true) : (freeUnsubmitted s n).mem.wf = true := by
  unfold freeUnsubmitted
  grind [State.freeNode_wf, State.releaseDependents_mem]

theorem haltAll_wf {s : State} (nid : Nat) (hs : s.mem.wf = true) : (haltAll s nid).mem.wf = true := by
  unfold haltAll
  grind [State.dropWaiters_mem, State.setWave_mem, haltWave_wf, wf_foldl]

theorem abortAlone_wf {s : State} (n : Node) (hs : s.mem.wf = true) : (abortAlone s n).mem.wf = true := by
  unfold abortAlone
  grind [State.setNode_mem, haltAll_wf]

theorem abortChildren_wf {s : State} (nid : Nat) (hs : s.mem.wf = true) : (abortChildren s nid).mem.wf = true := by
  unfold abortChildren
  grind [State.cancelNodes_wf, abortAlone_wf, freeUnsubmitted_wf, wf_foldl]

theorem abortSelf_wf {s : State} (n : Node) (hs : s.mem.wf = true) : (abortSelf s n).mem.wf = true := by
  unfold abortSelf
  grind [State.appendRec_wf, State.cancelMembers_wf, State.cancelNodes_wf, State.discardFamily_wf, State.dropWaves_wf, State.setNode_mem,
    abortAlone_wf, abortChildren_wf, wf_foldl]

/-! ### Bank commands -/

theorem putCol_wf {s : State} (asid va pa : Nat) (bs : List Byte) (hs : s.mem.wf = true) : (putCol s asid va pa bs).mem.wf = true := by
  unfold putCol
  grind [State.dramPut_wf, State.noteWrite_mem]

theorem writeBackPages_wf {s : State} (pages : List Nat) (hs : s.mem.wf = true) : (writeBackPages s pages).mem.wf = true := by
  unfold writeBackPages
  grind [State.writeBack_wf, wf_foldl]

theorem dropWritten_wf {s : State} (nums : List Nat) (hs : s.mem.wf = true) : (dropWritten s nums).2.mem.wf = true := by
  unfold dropWritten
  grind [State.memPut_wf, State.raiseMark_mem, wf_foldl_snd]

theorem performCmd_wf {s : State} (c : BankCmd) (pages : List Nat) (k : Nat) (hs : s.mem.wf = true) :
    (performCmd s c pages k).mem.wf = true := by
  unfold performCmd
  grind [State.setWave_mem, countCmd_mem, dropWritten_wf, noteGwct_mem, onUnit_mem, putCol_wf, writeBackPages_wf, wf_foldl]

theorem faultCmd_wf {s : State} (c : BankCmd) (d : Deferred) (hs : s.mem.wf = true) : (faultCmd s c d).mem.wf = true := by
  unfold faultCmd
  grind [State.noteFault_mem, discardBank_mem, haltingFault_wf]

theorem stepCmd_wf {s : State} (c : BankCmd) (pages : List Nat) (hs : s.mem.wf = true) : (stepCmd s c pages).mem.wf = true := by
  unfold stepCmd
  grind [lessOutst_mem, performCmd_wf]

theorem runCmd_wf {s : State} (c : BankCmd) (hs : s.mem.wf = true) : (runCmd s c).mem.wf = true := by
  unfold runCmd
  grind [State.enterHold_mem, faultCmd_wf, stepCmd_wf]

theorem sendCmd_wf (c : Ctx) {s : State} (op : BankOp) (hs : s.mem.wf = true) : (sendCmd c s op).Wf := by
  unfold sendCmd
  grind [State.fresh_mem, addOutst_mem, Act.Wf]

theorem bkmode_wf (c : Ctx) {s : State} (op : Nat) (hs : s.mem.wf = true) : (bkmode c s op).Wf := by
  refine withDelivery_wf c false true hs ?_
  grind [Ctx.putScalar_mem, bkmodeAt_mem, Act.det, Act.Wf]

theorem walkIssue_wf (c : Ctx) {s : State} (n limit : Nat) (op : BankOp) (hs : s.mem.wf = true) : (walkIssue c s n limit op).Wf := by
  refine withDelivery_wf c false true hs ?_
  grind [sendCmd_wf, Act.illopnd, Act.Wf]

theorem bkfn_wf (c : Ctx) {s : State} (out : Bool) (hs : s.mem.wf = true) : (bkfn c s out).Wf := by
  refine withDelivery_wf c false true hs ?_
  grind [sendCmd_wf, Act.illopnd, Act.Wf]

theorem jobFault_wf {s : State} (j : Job) (cause addr : Nat) (hs : s.mem.wf = true) : (jobFault s j cause addr).mem.wf = true := by
  unfold jobFault
  grind [State.appendRec_wf, State.noteFault_mem]

theorem dramRange_wf {s : State} (asid va n : Nat) (hs : s.mem.wf = true) : (dramRange s asid va n).2.mem.wf = true := by
  unfold dramRange
  grind [State.leaveCluster_mem, State.reach_mem, State.writeBack_wf, wf_foldl, wf_foldl_snd]

theorem jobSums_wf {s : State} (j : Job) (hs : s.mem.wf = true) : (jobSums s j).2.2.mem.wf = true := by
  unfold jobSums
  grind [dramRange_wf, wf_foldl_snd]

theorem jobWrite_wf (j : Job) (vals : List Byte) (flags : Nat) (ps : List (Nat × Nat)) (done gw : Nat) {s : State} (hs : s.mem.wf = true) :
    (jobWrite j vals flags ps done gw s).mem.wf = true := by
  induction ps generalizing done gw s with
  | nil => exact hs
  | cons p ps ih =>
    unfold jobWrite
    dsimp only
    split
    · refine ih _ _ (State.dramPut_wf _ _ _ _ ?_)
      rw [State.noteWrite_mem]
      exact wf_foldl (fun _ h hs => State.evict_wf h hs) hs
    · exact jobFault_wf _ _ _ hs
    · exact jobFault_wf _ _ _ hs

theorem runJob_wf {s : State} (j : Job) (hs : s.mem.wf = true) : (runJob s j).mem.wf = true := by
  unfold runJob
  grind [State.takeFree_mem, freeBytes_mem, jobFault_wf, jobSums_wf, jobWrite_wf]

theorem endJob_wf {s : State} (j : Job) (status flags : Nat) (hs : s.mem.wf = true) : (endJob s j status flags).mem.wf = true := by
  unfold endJob
  grind [State.ensureLine_wf, State.leaveCluster_mem, State.setNode_mem, State.settle_wf, State.writeCommitted_wf, jobFault_wf]

/-! ### The engine -/

theorem sendEntry_wf (c : Ctx) {s : State} (op : EngOp) (hs : s.mem.wf = true) : (sendEntry c s op).Wf := by
  unfold sendEntry
  grind [State.fresh_mem, openLanding_mem, Act.Wf]

/-! ### Agents at the homes -/

theorem atHome_wf {s : State} (asid va : Nat) (t : Trans) (hs : s.mem.wf = true) : (atHome s asid va t).mem.wf = true := by
  unfold atHome
  grind [State.ensureLine_wf, State.leaveCluster_mem]

theorem readHome_wf (nt : Bool) {s : State} (asid va : Nat) (t : Trans) (hs : s.mem.wf = true) :
    (readHome nt s asid va t).mem.wf = true := by
  unfold readHome
  grind [State.ensureLine_wf, State.leaveCluster_mem]

theorem writeHome_wf (nt : Bool) {s : State} (asid va : Nat) (t : Trans) (hs : s.mem.wf = true) :
    (writeHome nt s asid va t).mem.wf = true := by
  unfold writeHome
  grind [State.leaveCluster_mem, atHome_wf]

theorem homeRead_wf {s : State} {asid va n : Nat} {fam : Option Nat} {nt : Bool} {y : List Byte × State}
    (hy : homeRead s asid fam va n nt = .ok y) (hs : s.mem.wf = true) : y.2.mem.wf = true := by
  refine foldlM_keeps (P := fun x : List Byte × State => x.2.mem.wf = true) (fun x p y hy hx => ?_) _ hy hs
  grind [readHome_wf]

theorem writePieces_wf (asid : Nat) (fam : Option Nat) (nt : Bool) (ps : List (Nat × Nat)) (bs : List Byte) {r : Wrote}
    (hr : r.s.mem.wf = true) : (writePieces asid fam nt ps bs r).s.mem.wf = true := by
  induction ps generalizing bs r with
  | nil => exact hr
  | cons p ps ih =>
    unfold writePieces
    grind [writeHome_wf, State.writeVal_wf]

theorem homeWrite_wf {s : State} (asid : Nat) (fam : Option Nat) (va : Nat) (bs : List Byte) (nt : Bool) (hs : s.mem.wf = true) :
    (homeWrite s asid fam va bs nt).s.mem.wf = true :=
  writePieces_wf asid fam nt _ bs hs

/-! ### Rays -/

theorem saveRay_wf {s : State} (r : Ray) (hs : s.mem.wf = true) : (saveRay s r).mem.wf = true := by
  unfold saveRay
  grind [State.partWrite_wf]

theorem placeRay_wf {s : State} (r : Ray) (hs : s.mem.wf = true) : (placeRay s r).mem.wf = true := by
  unfold placeRay
  grind [State.partWrite_wf, saveRay_wf]

theorem endRay_wf {s : State} (r : Ray) (status : Nat) (hs : s.mem.wf = true) : (endRay s r status).mem.wf = true := by
  unfold endRay
  grind [State.fresh_mem, State.setRay_mem, contOf_mem, saveRay_wf]

theorem castRay_wf (c : Ctx) (x : Context) (b : Binding) (cont : Word64) (base ord : Nat) {s : State} (l : Nat)
    (hs : s.mem.wf = true) : (castRay c x b cont base ord s l).mem.wf = true := by
  unfold castRay
  grind [State.fresh_mem, State.takeFree_mem, placeRay_wf]

theorem castRays_wf (c : Ctx) (x : Context) (b : Binding) (cont : Word64) (base : Nat) {s : State} (hs : s.mem.wf = true) :
    (castRays c x b cont base s).Wf := by
  have hcast : ∀ ord, ((maskBits c.m).foldl (castRay c x b cont base ord)
      (unitLeave s.fresh.2 (unitRays c.w.asid) c.w.wid)).mem.wf = true := fun ord =>
    wf_foldl (fun _ l hs => castRay_wf c x b cont base ord l hs) hs
  unfold castRays
  dsimp only
  split
  · exact haltAct_wf c hs (haltWave_wf _ (by rw [popAll_mem]; exact hcast _))
  · exact hcast _

theorem traceWith_wf (c : Ctx) {s : State} (cont : Nat) (hs : s.mem.wf = true) : (traceWith c s cont).Wf := by
  unfold traceWith
  grind [castRays_wf, unitWait_mem, Act.illopnd, Act.Wf]

theorem fetchRecords_wf (c : Ctx) {s : State} (dest : LandDest) (val : Ray → List Nat) (hs : s.mem.wf = true) :
    (fetchRecords c s dest val).Wf := by
  unfold fetchRecords
  grind [State.fresh_mem, laneRecord_mem, mem_foldl_fst, openLanding_mem, Act.Wf]

theorem suspendRay_wf {s : State} (r : Ray) (place : RayAt) (hs : s.mem.wf = true) : (suspendRay s r place).mem.wf = true := by
  unfold suspendRay
  grind [State.setRay_mem, saveRay_wf]

theorem rayFault_wf {s : State} (r : Ray) (core pc cause addr key : Nat) (hs : s.mem.wf = true) :
    (rayFault s r core pc cause addr key).mem.wf = true := by
  unfold rayFault
  grind [State.appendRec_wf, State.noteFault_mem, suspendRay_wf]

/-! ### Kite -/

theorem kiteFinish_wf {s : State} (r : Ray) {a : KAct} (hs : s.mem.wf = true) (ha : a.Wf) : (kiteFinish s r a).mem.wf = true := by
  unfold kiteFinish
  split
  · exact ha
  · exact ha
  · exact endRay_wf _ _ hs
  · exact rayFault_wf _ _ _ _ _ _ hs

theorem rayRead_wf {s : State} {r : Ray} {fam : Option Nat} {a n : Nat} {y : List Byte × State} (hy : rayRead s r fam a n = .ok y)
    (hs : s.mem.wf = true) : y.2.mem.wf = true := by
  unfold rayRead at hy
  grind [→ homeRead_wf, State.openBytes_mem]

theorem loadNode_wf (b : Binding) (r : Ray) {s : State} (addr : Nat) (hs : s.mem.wf = true) : (loadNode b r s addr).Wf := by
  unfold loadNode
  grind [→ rayRead_wf, KAct.illegal, KAct.Wf]

theorem pushEntry_wf (r : Ray) {s : State} (x : Nat) (hs : s.mem.wf = true) : (pushEntry r s x).Wf := by
  unfold pushEntry
  grind [KAct.Wf]

theorem kiteLabel_wf (b : Binding) (r : Ray) {s : State} (k : KFields) (taken : Bool) (hs : s.mem.wf = true) :
    (kiteLabel b r s k taken).Wf := by
  unfold kiteLabel
  grind [KAct.illegal, KAct.Wf]

theorem reloadRay_wf {s : State} {b : Binding} {r : Ray} {y : Ray × State} (hy : reloadRay s b r = .ok y) (hs : s.mem.wf = true) :
    y.2.mem.wf = true := by
  unfold reloadRay at hy
  simp only [bind, Except.bind] at hy
  grind [→ rayRead_wf]

theorem kiteFetch_wf {s : State} (r : Ray) (hs : s.mem.wf = true) : (kiteFetch s r).Wf := by
  unfold kiteFetch
  grind [endRay_wf, rayFault_wf, → reloadRay_wf, → rayRead_wf, State.setRay_mem, KiteFetch.Wf]

/-! ### Textures -/

theorem withDesc_wf (c : Ctx) {s : State} (n : Nat) (ok : List Byte → Bool) {body : List Byte → State → Act} (hs : s.mem.wf = true)
    (hb : ∀ bs t, t.mem.wf = true → (body bs t).Wf) : (withDesc c s n ok body).Wf := by
  unfold withDesc
  dsimp only
  split
  · exact True.intro
  · refine withRead_wf c _ _ hs fun bs t ht => ?_
    split
    · exact hb bs t ht
    · exact True.intro

theorem tileBytes_wf {s : State} {w : Wave} {mode tile : Nat} {y : List Byte × List Byte × State} (hy : tileBytes s w mode tile = .ok y)
    (hs : s.mem.wf = true) : y.2.2.mem.wf = true := by
  unfold tileBytes at hy
  simp only [bind, Except.bind] at hy
  grind [→ arrGlobal_wf, dropCopies_mem, State.fresh_mem, State.openBytes_mem]

theorem laneBytes_wf {s : State} {w : Wave} {rs : List (Nat × Nat)} {y : List (List Byte) × State} (hy : laneBytes s w rs = .ok y)
    (hs : s.mem.wf = true) : y.2.mem.wf = true := by
  fun_induction laneBytes s w rs generalizing y with
  | case1 => cases hy; exact hs
  | case2 s m t rs ih =>
    simp only [bind, Except.bind] at hy
    grind [→ tileBytes_wf]
  | case3 s r rs h ih =>
    simp only [bind, Except.bind] at hy
    grind [→ arrGlobal_wf]

theorem lanesRead_wf (c : Ctx) {s : State} (reads : Nat → List (Nat × Nat)) (val : Nat → List (List Byte) → Nat × Flags)
    (hs : s.mem.wf = true) : (lanesRead c s reads val).s.mem.wf = true := by
  refine foldl_keeps (P := fun r : LaneReads => r.s.mem.wf = true) (fun r l hr => ?_) _ hs
  grind [→ laneBytes_wf]

theorem readLanes_wf (c : Ctx) {s : State} (count : Nat) (reads : Nat → List (Nat × Nat))
    (val : Nat → List (List Byte) → Nat × Flags) (hs : s.mem.wf = true) : (readLanes c s count reads val).Wf := by
  unfold readLanes
  grind [lanesRead_wf, landRead_mem, groupOf_mem, Act.Wf]

theorem withDone_wf (c : Ctx) {s : State} {body : List Byte → State → Act} (hs : s.mem.wf = true)
    (hb : ∀ d t, t.mem.wf = true → (body d t).Wf) : (withDone c s body).Wf := by
  refine withDesc_wf c _ _ hs fun d t ht => ?_
  split
  · exact hb d t ht
  · exact True.intro

theorem pixelRead_wf (c : Ctx) {s : State} (d : List Byte) (addr : Nat → Nat) (off0 : Nat) (hs : s.mem.wf = true) :
    (pixelRead c s d addr off0).Wf := by
  unfold pixelRead
  grind [readLanes_wf]

theorem convertTiles_wf (c : Ctx) {s : State} (op : Nat) (hs : s.mem.wf = true) : (convertTiles c s op).Wf := by
  refine withDesc_wf c _ _ hs fun d t ht => ?_
  grind [addOutst_mem, groupOf_mem, issueTiles_mem, Act.illopnd, Act.Wf]

/-! ### Passes -/

theorem putField_wf {s : State} (asid desc off n v : Nat) (hs : s.mem.wf = true) : (putField s asid desc off n v).mem.wf = true := by
  unfold putField
  grind [State.partWrite_wf]

theorem addField_wf {s : State} (asid desc off k : Nat) (hs : s.mem.wf = true) : (addField s asid desc off k).mem.wf = true := by
  unfold addField
  grind [passVal_mem, putField_wf]

/-- What an attempt of a pass's work leaves: the state of its answer, or the state in which it failed, has a canonical memory. -/
def PassWf {α : Type} (st : α → State) : Except PassErr α → Prop
  | .ok a => (st a).mem.wf = true
  | .error e => e.s.mem.wf = true

theorem PassWf.bind {α β : Type} {p : α → State} {q : β → State} {x : Except PassErr α} {k : α → Except PassErr β} (hx : PassWf p x)
    (hk : ∀ a, (p a).mem.wf = true → PassWf q (k a)) : PassWf q (x >>= k) := by
  cases x with
  | error e => exact hx
  | ok a => exact hk a hx

theorem PassWf.foldlM {α β : Type} {p : β → State} {g : β → α → Except PassErr β}
    (hg : ∀ b x, (p b).mem.wf = true → PassWf p (g b x)) (l : List α) {b : β} (hb : (p b).mem.wf = true) : PassWf p (l.foldlM g b) := by
  induction l generalizing b with
  | nil => exact hb
  | cons x l ih =>
    rw [List.foldlM_cons]
    exact (hg b x hb).bind fun _ => ih

theorem PassWf.iteBind {α β : Type} {p : α → State} {q : β → State} {c : Bool} {x y : Except PassErr α} {k : α → Except PassErr β}
    (hx : PassWf p x) (hy : PassWf p y) (hk : ∀ a, (p a).mem.wf = true → PassWf q (k a)) :
    PassWf q (if c = true then x >>= k else y >>= k) := by
  cases c with
  | true => exact hx.bind hk
  | false => exact hy.bind hk

theorem passPut_wf (asid va : Nat) (bs : List Byte) {r : State × Nat} (hr : r.1.mem.wf = true) : PassWf (·.1) (passPut asid va bs r) := by
  unfold passPut
  grind [State.openBytes_mem, homeWrite_wf, PassWf]

theorem passGet_wf (asid va n : Nat) {s : State} (gw : Nat) (hs : s.mem.wf = true) : PassWf (·.2) (passGet asid va n s gw) := by
  unfold passGet
  grind [→ homeRead_wf, PassWf]

theorem passScribble_wf (asid va n : Nat) {s : State} (hs : s.mem.wf = true) : PassWf id (passScribble asid va n s) :=
  (passPut_wf asid va _ hs).bind fun _ hr => hr

theorem passFault_wf {s : State} (k : Nat) (e : PassErr) (hs : s.mem.wf = true) : (passFault s k e).mem.wf = true := by
  unfold passFault
  grind [State.appendRec_wf, State.noteFault_mem, State.setPass_mem, writeSave_wf]

theorem flushTile_wf (p : Pass) (tile : Nat) {r : State × Nat} (hr : r.1.mem.wf = true) : PassWf (·.1.1) (flushTile p tile r) := by
  refine PassWf.foldlM (p := fun x : (State × Nat) × List Nat => x.1.1) (fun x y hx => ?_) _ hr
  simp only [bind, Except.bind]
  grind [passGet_wf, passPut_wf, PassWf]

theorem earlyFlush_wf (asid desc tile : Nat) {s : State} (hs : s.mem.wf = true) : PassWf id (earlyFlush asid desc tile s) := by
  unfold earlyFlush
  split
  · exact hs
  · exact (flushTile_wf _ tile hs).bind fun r hr => show (State.setPass _ _).mem.wf = true from addField_wf asid desc oFLUSHES 1 hr

theorem appendBin_wf (x : Append) {s : State} (hs : s.mem.wf = true) : PassWf id (appendBin x s) := by
  unfold appendBin
  split
  · exact hs
  · refine (passScribble_wf _ _ _ hs).bind fun s hs => (passScribble_wf _ _ _ hs).bind fun s hs => ?_
    dsimp only
    split
    · exact earlyFlush_wf _ _ _ hs
    · exact hs

theorem passDone_wf (k : Nat) {x : Except PassErr State} (hx : PassWf id x) : (passDone k x).mem.wf = true := by
  unfold passDone
  grind [State.setPass_mem, passFault_wf, PassWf]

theorem flushFull_wf (asid desc : Nat) {s : State} (hs : s.mem.wf = true) : PassWf id (flushFull asid desc s) := by
  unfold flushFull
  split
  · exact hs
  · exact PassWf.foldlM (fun _ _ hs => earlyFlush_wf _ _ _ hs) _ hs

theorem emptyPrim_wf (asid desc : Nat) {s : State} (hs : s.mem.wf = true) : PassWf id (emptyPrim asid desc s) := by
  refine (flushFull_wf asid desc hs).bind fun s hs => ?_
  refine (PassWf.foldlM (fun _ x hs => appendBin_wf x hs) _ hs).bind fun s hs => ?_
  split
  · exact hs
  · refine (PassWf.foldlM (fun _ _ hs => earlyFlush_wf _ _ _ hs) _ hs).bind fun s hs => ?_
    split <;> exact hs

theorem binTri_wf (asid desc : Nat) (t : Tri) {s : State} (hs : s.mem.wf = true) : PassWf id (binTri asid desc t s) := by
  unfold binTri
  dsimp only
  refine PassWf.iteBind (p := id) (emptyPrim_wf asid desc hs) hs fun s hs => ?_
  split
  · exact hs
  · exact (passScribble_wf _ _ _ hs).bind fun s hs => wf_foldl (fun _ _ hs => hs) hs

theorem emitLanes_wf (c : Ctx) (desc : Nat) (d : List Byte) (ls : List Nat) (dn res : Word) {s : State} (hs : s.mem.wf = true) :
    PassWf id (emitLanes c desc d ls dn res s).2.2 := by
  induction ls generalizing dn res s with
  | nil => exact hs
  | cons l ls ih =>
    unfold emitLanes
    dsimp only
    split
    · exact ih _ _ (addField_wf _ _ _ _ hs)
    · exact ih _ _ (addField_wf _ _ _ _ hs)
    · have ht := binTri_wf c.w.asid desc ‹_› hs
      split
      all_goals
        rename_i heq
        rw [heq] at ht
      · exact ih _ _ ht
      · exact ht

theorem openPass_wf (c : Ctx) {s : State} (desc : Nat) (d : List Byte) (hs : s.mem.wf = true) : (openPass c s desc d).mem.wf = true := by
  unfold openPass
  grind [State.fresh_mem, putField_wf, wf_foldl]

theorem emitInto_wf (c : Ctx) {s : State} (p : Pass) (hs : s.mem.wf = true) : (emitInto c s p).Wf := by
  unfold emitInto
  grind [emitLanes_wf, State.setPass_mem, passVal_mem, Ctx.putPred_mem, passFault_wf, PassWf, Act.Wf]

theorem withPassDesc_wf (c : Ctx) {s : State} {body : List Byte → State → Act} (hs : s.mem.wf = true)
    (hb : ∀ bs t, t.mem.wf = true → (body bs t).Wf) : (withPassDesc c s body).Wf := by
  unfold withPassDesc
  grind [→ homeRead_wf, Act.replayRest_wf, Act.illopnd, Act.Wf]

theorem sampleZero_wf (asid vis ns gw : Nat) {s : State} (p : Nat) (hs : s.mem.wf = true) : PassWf (·.2) (sampleZero asid vis ns gw s p) :=
  (passGet_wf asid _ 8 gw hs).bind fun _ hs => hs

theorem reprojectAll_wf (p : Pass) {r : State × Nat} (hr : r.1.mem.wf = true) : PassWf (·.1) (reprojectAll p r) := by
  refine PassWf.foldlM (fun r i hr => ?_) _ hr
  refine (sampleZero_wf _ _ _ _ _ hr).bind fun a ha => (passGet_wf _ _ _ _ ha).bind fun b hb => ?_
  dsimp only
  split
  · exact passPut_wf _ _ _ hb
  · exact (sampleZero_wf _ _ _ _ _ hb).bind fun a ha => passPut_wf _ _ _ ha

theorem dropBuffers_wf (p : Pass) {s : State} (hs : s.mem.wf = true) : (dropBuffers p s).2.mem.wf = true := by
  unfold dropBuffers
  grind [State.evict_wf, wf_foldl]

theorem closePass_wf (p : Pass) {s : State} (hs : s.mem.wf = true) : PassWf (·.1) (closePass p s) := by
  unfold closePass
  refine PassWf.bind (p := fun x : (State × Nat) × List Nat => x.1.1) ?_ fun a ha => ?_
  · refine PassWf.foldlM (p := fun x : (State × Nat) × List Nat => x.1.1) (fun x tile hx => ?_) _ hs
    exact (flushTile_wf p tile hx).bind fun x hr => hr
  · dsimp only
    refine PassWf.iteBind (p := fun x : State × Nat => x.1) (reprojectAll_wf p ha) ha fun r hr => ?_
    refine (passPut_wf _ _ _ hr).bind fun r hr => putField_wf _ _ _ _ _ (putField_wf _ _ _ _ _ ?_)
    rw [passVal_mem]
    exact hr

theorem flagPass_wf (p : Pass) (status : Nat) {s : State} (hs : s.mem.wf = true) : PassWf id (flagPass p status s) := by
  have ho := State.openBytes_mem s (passSpoiled s p) (leBytes 8 (1 + status * 256))
  exact PassWf.bind (p := fun x : State × Nat => x.1) (passPut_wf p.asid _ _ (ho ▸ hs)) fun _ hr => hr

theorem closeStep_wf (p : Pass) {s : State} (hs : s.mem.wf = true) : (closeStep p s).mem.wf = true := by
  have hclose := closePass_wf p hs
  unfold closeStep
  grind [dropBuffers_wf, State.setPass_mem, passFault_wf, PassWf]

theorem closeWork_wf (p : Pass) {s : State} (hs : s.mem.wf = true) : (closeWork p s).mem.wf = true := by
  unfold closeWork
  grind [closeStep_wf, passDone_wf, flagPass_wf, State.settle_wf]

theorem releasePass_wf {s : State} (asid desc : Nat) (hs : s.mem.wf = true) : (releasePass s asid desc).mem.wf = true := by
  unfold releasePass
  grind [flushFull_wf, State.setPass_mem, passFault_wf, PassWf]

theorem failPass_wf (p : Pass) {s : State} (hs : s.mem.wf = true) : (failPass p s).mem.wf = true := by
  unfold failPass
  grind [State.setPass_mem, dropBuffers_wf, putField_wf]

theorem endPass_wf {s : State} (asid desc : Nat) (hs : s.mem.wf = true) : (endPass s asid desc).mem.wf = true := by
  unfold endPass
  grind [failPass_wf]

/-! ### The host -/

theorem clearAreas_wf {s : State} (c : Context) (hs : s.mem.wf = true) : (clearAreas s c).mem.wf = true := by
  unfold clearAreas
  grind [State.partWrite_wf, physPut_wf]

theorem flushAsid_wf {s : State} (asid : Nat) (hs : s.mem.wf = true) : (flushAsid s asid).mem.wf = true := by
  unfold flushAsid
  grind [State.evict_wf, wf_foldl]

theorem acceptCreate_wf {s : State} (c : Context) (hs : s.mem.wf = true) : (acceptCreate s c).mem.wf = true := by
  unfold acceptCreate
  grind [clearAreas_wf]

theorem createContext_wf {s : State} (addr : Nat) (hs : s.mem.wf = true) : (createContext s addr).mem.wf = true := by
  unfold createContext
  grind [State.setCtx_mem, acceptCreate_wf, flushAsid_wf, physTouch_mem, replayNodes_mem]

theorem dropTasks_wf {s : State} (asid : Nat) (hs : s.mem.wf = true) : (dropTasks s asid).mem.wf = true := by
  unfold dropTasks
  grind [State.dropWaves_wf, State.freeNode_wf, State.freeRays_wf, State.releaseDependents_mem, wf_foldl]

theorem destroyContext_wf {s : State} (asid : Nat) (hs : s.mem.wf = true) : (destroyContext s asid).mem.wf = true := by
  unfold destroyContext
  grind [dropTasks_wf, flushAsid_wf]

theorem applyRelease_wf {s : State} (wt : Waiter) (hs : s.mem.wf = true) : (applyRelease s wt).mem.wf = true := by
  unfold applyRelease
  grind [State.setRay_mem, releaseLanes_mem, releasePass_wf, releaseWave_mem, resumeDebug_mem]

theorem endLane_wf {s : State} (id : Nat) (r : FaultRec) (hs : s.mem.wf = true) : (endLane s id r).mem.wf = true := by
  unfold endLane
  grind [State.setWave_mem, State.takeTrap_wf]

theorem applyEnd_wf {s : State} (wt : Waiter) (r : FaultRec) (hs : s.mem.wf = true) : (applyEnd s wt r).mem.wf = true := by
  unfold applyEnd
  grind [State.takeTrap_wf, endLane_wf, endPass_wf, endRay_wf, endReplay_mem]

theorem replyTo_wf {s : State} (asid seq action : Nat) (hs : s.mem.wf = true) : (replyTo s asid seq action).mem.wf = true := by
  unfold replyTo
  grind [State.setCtx_mem, applyEnd_wf, applyRelease_wf, resumeDebug_mem]

theorem finishGen_wf {s : State} (asid : Nat) (hs : s.mem.wf = true) : (finishGen s asid).mem.wf = true := by
  unfold finishGen
  grind [State.partWrite_wf, State.setCtx_mem, flushAsid_wf, releaseParked_mem, replyTo_wf, startNext_mem, wf_foldl]

theorem noteBenched_wf {s : State} (asid : Nat) (hs : s.mem.wf = true) : (noteBenched s asid).mem.wf = true := by
  unfold noteBenched
  grind [State.contextEvent_wf, State.setCtx_mem]

theorem startSlice_wf {s : State} (asid : Nat) (hs : s.mem.wf = true) : (startSlice s asid).mem.wf = true := by
  unfold startSlice
  grind [State.setCtx_mem, noteBenched_wf]

theorem endSlice_wf {s : State} (asid : Nat) (hs : s.mem.wf = true) : (endSlice s asid).mem.wf = true := by
  unfold endSlice
  grind [State.contextEvent_wf, State.setCtx_mem]

theorem copyLine_wf {s : State} (asid va : Nat) (new : Trans) (i : Nat) (hs : s.mem.wf = true) :
    (copyLine s asid va new i).mem.wf = true := by
  unfold copyLine
  grind [State.leaveCluster_mem, State.memPut_wf, State.modHome_mem]

theorem moveOn_wf {s : State} (asid : Nat) (hs : s.mem.wf = true) : (moveOn s asid).mem.wf = true := by
  unfold moveOn
  grind [State.setCtx_mem, copyLine_wf]

theorem finishMigrate_wf {s : State} (c : Context) (m : Migration) (rest : List Migration) (hs : s.mem.wf = true) :
    (finishMigrate s c m rest).mem.wf = true := by
  unfold finishMigrate
  grind [State.partWrite_wf, State.setCtx_mem, copyLine_wf, freeBytes_mem, physPut_wf, raiseOwn_mem, releaseParked_mem, startNext_mem,
    wf_foldl]

theorem barPerform_wf {s : State} (off v : Nat) (hs : s.mem.wf = true) : (barPerform s off v).mem.wf = true := by
  refine wf_ite hs <| wf_ite (wf_ite hs (createContext_wf _ hs)) <| wf_ite hs <| wf_ite hs <| wf_ite ?_ hs
  refine wf_ite (mem_wf_of_eq (ringDoorbell_mem _ _ _ _) hs) <| wf_ite (wf_ite (replyTo_wf _ _ _ hs) hs) <|
    wf_ite (wf_ite (mem_wf_of_eq (raiseGen_mem _ _) hs) hs) <| wf_ite ?_ <|
    wf_ite ?_ (wf_ite (mem_wf_of_eq (startMigrate_mem _ _ _) hs) hs)
  · split
    · exact mem_wf_of_eq (queueResume_mem ..) hs
    · exact mem_wf_of_eq (queueRerun_mem ..) hs
    · exact mem_wf_of_eq (queueSkip_mem ..) hs
    · exact hs
  · split
    · exact mem_wf_of_eq (startSave_mem _ _) hs
    · exact mem_wf_of_eq (startRestore_mem _ _) hs
    · exact destroyContext_wf _ hs
    · exact startSlice_wf _ hs
    · exact endSlice_wf _ hs
    · exact hs

theorem barWrite_wf {s : State} (off v : Nat) (hs : s.mem.wf = true) : (barWrite s off v).mem.wf = true := by
  unfold barWrite
  grind [barPerform_wf]

theorem resumeRegs_wf {s : State} (hs : s.mem.wf = true) : (resumeRegs s).mem.wf = true := by
  unfold resumeRegs
  grind [barPerform_wf, wf_foldl]

/-! ### The homes -/

theorem faultAcc_wf {s : State} (a : Access) (hs : s.mem.wf = true) : (faultAcc s a).mem.wf = true := by
  unfold faultAcc
  grind [State.appendRec_wf, State.setWave_mem, haltingFault_wf, lessOutst_mem]

theorem lockAcc_wf {s : State} (a : Access) (hs : s.mem.wf = true) : (lockAcc s a).mem.wf = true := by
  unfold lockAcc
  grind [State.modAcc_mem, faultAcc_wf]

theorem atPlace_wf {s : State} (a : Access) (t : Trans) (hs : s.mem.wf = true) : (atPlace s a t).mem.wf = true := by
  unfold atPlace
  grind [State.ensureLine_wf, State.leaveCluster_mem, State.noteWalk_mem, State.reach_mem]

theorem devStore_wf {s : State} (pa : Nat) (bs : List Byte) (hs : s.mem.wf = true) : (devStore s pa bs).mem.wf = true := by
  unfold devStore
  have h : ∀ off, (barWrite s off (leNat bs)).mem.wf = true := fun off => barWrite_wf off _ hs
  exact wf_ite (h (pa - Config.devBase)) hs

theorem putBytes_wf {s : State} (a : Access) (t : Trans) (bs : List Byte) (hs : s.mem.wf = true) :
    (putBytes s a t bs).1.mem.wf = true := by
  unfold putBytes
  grind [State.noteWrite_mem, State.writeVal_wf, atPlace_wf, devStore_wf]

theorem readAtPlace_wf {s : State} (a : Access) (t : Trans) (install : Bool) (hs : s.mem.wf = true) :
    (readAtPlace s a t install).2.mem.wf = true := by
  unfold readAtPlace
  grind [State.grantL1_mem, atPlace_wf, refreshL1_mem]

theorem performLoad_wf (install : Bool) (t : Trans) {s : State} (a : Access) (hs : s.mem.wf = true) :
    (performLoad install t s a).mem.wf = true := by
  unfold performLoad
  grind [State.dropAcc_mem, pushLand_mem, readAtPlace_wf]

theorem storeLine_wf {s : State} (a : Access) (t : Trans) (esz : Nat) (cells : List (Nat × Byte)) (hs : s.mem.wf = true) :
    (storeLine s a t esz cells).1.mem.wf = true := by
  unfold storeLine
  grind [putBytes_wf, wf_foldl_fst]

theorem storeTile_wf {s : State} (a : Access) (op tile colour : Nat) (hs : s.mem.wf = true) :
    (storeTile s a op tile colour).1.mem.wf = true := by
  unfold storeTile
  grind [State.noteWrite_mem, State.openBytes_mem, homeWrite_wf]

theorem performStore_wf {s : State} (a : Access) (t : Trans) (hs : s.mem.wf = true) : (performStore s a t).mem.wf = true := by
  unfold performStore
  grind [nowPerformed_mem, putBytes_wf, spWrite_mem, storeLine_wf, storeSpad_mem, storeTile_wf]

theorem atPort_wf {s : State} (a : Access) (t : Trans) (hs : s.mem.wf = true) : (atPort s a t).mem.wf = true := by
  unfold atPort
  grind [State.landPorts_wf, State.noteWrite_mem, State.writeCommitted_wf, atPlace_wf, nowPerformed_mem, pushLand_mem]

theorem rewriteAt_wf {s : State} (a : Access) (t : Trans) (hs : s.mem.wf = true) : (rewriteAt s a t).mem.wf = true := by
  unfold rewriteAt
  grind [atPlace_wf, countTalloc_mem, nowPerformed_mem, pushLand_mem, putBytes_wf, takeCluster_mem]

theorem performAtomic_wf {s : State} (a : Access) (t : Trans) (hs : s.mem.wf = true) : (performAtomic s a t).mem.wf = true := by
  unfold performAtomic
  grind [atPort_wf, rewriteAt_wf, rewriteSpad_mem, sendContrib_mem]

theorem performHost_wf {s : State} (a : Access) (t : Trans) (hs : s.mem.wf = true) : (performHost s a t).mem.wf = true := by
  unfold performHost
  grind [State.noteWrite_mem, State.writeCommitted_wf, atHome_wf, hostReply_mem]

/-! ### Clocks -/

theorem inTick_wf {s : State} (hs : s.mem.wf = true) : (inTick s).mem.wf = true := by
  unfold inTick
  grind [State.flushRings_wf, State.landPort_wf, State.repeatFlit_mem, State.resumeWaits_wf, moveOn_wf, noteBenched_wf, wf_foldl]

/-! ### The work of the engine -/

theorem engReadPieces_wf (size : Nat) (ps : List (Nat × Nat)) {r : EngRun} (hr : r.s.mem.wf = true) :
    (engReadPieces size ps r).s.mem.wf = true := by
  induction ps generalizing r with
  | nil => exact hr
  | cons p ps ih =>
    unfold engReadPieces
    grind [→ homeRead_wf]

theorem devStores_wf (pa : Nat × Nat → Nat) (bs : Nat × Nat → List Byte) (ps : List (Nat × Nat)) {s : State} (hs : s.mem.wf = true) :
    (ps.foldl (fun s p => devStore s (pa p) (bs p)) s).mem.wf = true := by
  induction ps generalizing s with
  | nil => exact hs
  | cons p ps ih =>
    rw [List.foldl_cons]
    exact ih (devStore_wf (pa p) (bs p) hs)

theorem engStore_wf {s : State} (fam : Option Nat) (nt : Bool) (asid a : Nat) (t : Trans) (bs : List Byte) (hs : s.mem.wf = true) :
    (engStore s fam nt asid a t bs).mem.wf = true := by
  unfold engStore
  split
  · exact devStores_wf _ _ _ hs
  · rw [State.noteWrite_mem]
    exact homeWrite_wf asid fam a bs nt hs

theorem engWritePieces_wf (size : Nat) (ps : List (Nat × Nat)) (bs : List Byte) {r : EngRun} (hr : r.s.mem.wf = true) :
    (engWritePieces size ps bs r).s.mem.wf = true := by
  induction ps generalizing bs r with
  | nil => exact hr
  | cons p ps ih =>
    unfold engWritePieces
    grind [engStore_wf]

theorem engFlush_wf (dst : Nat) {r : EngRun} (hr : r.s.mem.wf = true) : (engFlush dst r).s.mem.wf = true :=
  engWritePieces_wf 1 _ _ hr

theorem engCopy_wf (dst src len : Nat) {r : EngRun} (hr : r.s.mem.wf = true) : (engCopy dst src len r).s.mem.wf = true := by
  unfold engCopy
  grind [engReadPieces_wf, engFlush_wf, engDone_mem]

theorem engElement_wf (card : List Byte) (i : Nat) {r : EngRun} (hr : r.s.mem.wf = true) : (engElement card i r).s.mem.wf = true := by
  unfold engElement
  grind [engReadPieces_wf, engWritePieces_wf]

theorem engElements_wf (card : List Byte) {r : EngRun} (hr : r.s.mem.wf = true) : (engElements card r).s.mem.wf = true := by
  unfold engElements
  rw [engDone_mem]
  exact foldl_keeps (P := fun x : EngRun => x.s.mem.wf = true) (fun _ _ hx => engElement_wf card _ hx) _ hr

theorem engDecode_wf (card : List Byte) (k : Nat) {r : EngRun} (hr : r.s.mem.wf = true) : (engDecode card k r).s.mem.wf = true := by
  induction k generalizing r with
  | zero => exact hr
  | succ k ih =>
    unfold engDecode
    grind [freeBytes_mem, engFlush_wf, engDone_mem, engReadPieces_wf]

theorem engCard_wf (addr : Nat) (card : List Byte) {r : EngRun} (hr : r.s.mem.wf = true) : (engCard addr card r).s.mem.wf = true := by
  unfold engCard
  grind [engCopy_wf, engDecode_wf, engElements_wf, engWritePieces_wf]

theorem engRun_wf {r : EngRun} (hr : r.s.mem.wf = true) : (engRun r).s.mem.wf = true := by
  unfold engRun
  grind [engDone_mem, engCopy_wf, engCard_wf, engReadPieces_wf]

theorem engFault_wf {s : State} (e : EngEntry) (cause addr : Nat) (hs : s.mem.wf = true) : (engFault s e cause addr).mem.wf = true := by
  unfold engFault
  grind [State.appendRec_wf, State.noteFault_mem, writeSave_wf]

theorem engKeep_wf {r : EngRun} (hr : r.s.mem.wf = true) : (engKeep r).mem.wf = true := by
  unfold engKeep
  grind [State.enterHold_mem, engFault_wf]

theorem engComplete_wf {s : State} (e : EngEntry) (hs : s.mem.wf = true) : (engComplete s e).mem.wf = true := by
  unfold engComplete
  grind [State.setNode_mem, State.settle_wf]

/-! ### Loads and stores -/

theorem prefetch_wf (c : Ctx) (lvl va : Nat) {s : State} (hs : s.mem.wf = true) : (prefetch c lvl va s).mem.wf = true := by
  unfold prefetch
  grind [State.fillHome_wf, State.fillVictim_wf, State.grantL1_mem]

/-! ### Matrix instructions -/

theorem onArray_wf (c : Ctx) {s : State} {body : ArrayBank → Act} (hs : s.mem.wf = true) (hb : ∀ a, (body a).Wf) :
    (onArray c s body).Wf := by
  refine withDelivery_wf c true true hs ?_
  split
  · exact hb _
  · exact True.intro

theorem onConfig_wf (c : Ctx) {s : State} {body : ArrayBank → Nat → Act} (hs : s.mem.wf = true) (hb : ∀ a k, (body a k).Wf) :
    (onConfig c s body).Wf := by
  refine onArray_wf c hs fun a => ?_
  split
  · exact hb _ _
  · exact True.intro

theorem enqueue_wf (c : Ctx) {s : State} (a : ArrayBank) (cfg : Nat) (op : ArrOp) (extra : Nat) (hs : s.mem.wf = true) :
    (enqueue c s a cfg op extra).Wf := by
  unfold enqueue
  grind [State.setArray_mem, Act.Wf]

/-! ### The puppeteers -/

theorem fillLine_wf (w : Bool) (die asid : Nat) {s : State} (va : Nat) (hs : s.mem.wf = true) :
    (fillLine w die asid s va).mem.wf = true := by
  unfold fillLine
  grind [State.fillHome_wf]

theorem fillTiles_wf {s : State} (n : Node) (hs : s.mem.wf = true) : (fillTiles s n).mem.wf = true := by
  unfold fillTiles
  grind [fillLine_wf, wf_foldl]

theorem dispatchNode_wf {s : State} (n : Node) (hs : s.mem.wf = true) : (dispatchNode s n).mem.wf = true := by
  unfold dispatchNode
  dsimp only
  split
  · grind [placeWave_mem, State.setNode_mem]
  · grind [openFamily_mem, State.fresh_mem, State.setNode_mem]
  · exact hs
  · have hf : ∀ n m : Node, (fillTiles ((openFamily s n).2.setNode m) m).mem.wf = true := fun n m => 
      fillTiles_wf m (by rw [State.setNode_mem, openFamily_mem]; exact hs)
    refine wf_ite (State.settle_wf (hf _ _)) (wf_ite ?_ ?_)
    · exact getD_wf (fun t ht => mem_wf_of_eq (placeGang_mem ht) (hf _ _)) (hf _ _)
    · split
      · exact mem_wf_of_eq (placeWave_mem ..) (hf _ _)
      · exact hf _ _

theorem rangeReport_wf {s : State} (w : Wave) (hs : s.mem.wf = true) : (rangeReport s w).mem.wf = true := by
  unfold rangeReport
  grind [State.appendRec_wf]

theorem exchange_wf {s : State} (qs : List (Nat × Nat)) (hs : s.mem.wf = true) : (exchange s qs).mem.wf = true := by
  unfold exchange
  grind [noteBenched_wf, setQuad_mem, wf_foldl]

theorem acceptPacket_wf {s : State} {c : Context} {q : Nat} {r : Ring} {p : List Byte} {y : State} (hy : acceptPacket s c q r p = some y)
    (hs : s.mem.wf = true) : y.mem.wf = true := by
  unfold acceptPacket at hy
  grind [→ addNode_mem, physPut_wf, submit_mem, State.setNode_mem, State.setCtx_mem]

theorem readSlot_wf {s : State} (c : Context) (q : Nat) (r : Ring) (hs : s.mem.wf = true) : (readSlot s c q r).mem.wf = true := by
  have hp : (touchSource (physTouch s (r.base + 128 * (r.next % r.slots)) 128) c
      (physBytes s (r.base + 128 * (r.next % r.slots)) 128)).mem.wf = true := by
    rw [touchSource_mem, physTouch_mem]
    exact hs
  unfold readSlot
  dsimp only
  refine wf_ite (mem_wf_of_eq (State.setCtx_mem _ _) hp) ?_
  exact getD_wf (fun t ht => acceptPacket_wf ht hp) hp

theorem commitByte_wf (asid : Nat) {r : State × Nat} (x : Nat × Byte) (hr : r.1.mem.wf = true) :
    (commitByte asid r x).1.mem.wf = true := by
  unfold commitByte
  grind [State.writeCommitted_wf]

theorem commitFam_wf {s : State} (f : Family) (hs : s.mem.wf = true) : (commitFam s f).mem.wf = true :=
  wf_foldl_fst (fun _ _ hr => commitByte_wf f.asid _ hr) hs

theorem closeEntry_wf {r : State × Nat × Flags} (e : RedoEntry) (hr : r.1.mem.wf = true) : (closeEntry r e).1.mem.wf = true := by
  unfold closeEntry
  grind [atHome_wf, State.writeCommitted_wf, State.noteWrite_mem]

theorem closeFam_wf {s : State} (fid : Nat) (hs : s.mem.wf = true) : (closeFam s fid).1.mem.wf = true :=
  wf_foldl_fst (fun _ e hr => closeEntry_wf e hr) hs

theorem closeOwn_wf {s : State} (nid : Nat) (hs : s.mem.wf = true) : (closeOwn s nid).1.mem.wf = true := by
  unfold closeOwn
  grind [closeFam_wf, wf_foldl_fst]

theorem settleVersion_wf {s : State} (n : Node) (hs : s.mem.wf = true) : (settleVersion s n).mem.wf = true := by
  unfold settleVersion
  grind [State.setNode_mem, closeOwn_wf, commitFam_wf]

theorem retireNode_wf {s : State} (n : Node) (hs : s.mem.wf = true) : (retireNode s n).mem.wf = true := by
  unfold retireNode
  grind [State.appendEv_wf, State.freeNode_wf, State.releaseDependents_mem, State.setCtx_mem]

/-! ### The platform -/

theorem checkNodes_wf {s : State} (ids : List Nat) (hs : s.mem.wf = true) : (checkNodes s ids).mem.wf = true := by
  unfold checkNodes
  grind [State.endFamilyChecked_wf, wf_foldl]

theorem dropCore_wf {s : State} (core : Nat) (hs : s.mem.wf = true) : (dropCore s core).mem.wf = true := by
  unfold dropCore
  grind [State.dropWaiters_mem, State.endHolding_wf, State.settle_wf, wf_foldl]

theorem coreRecord_wf (core : Nat) (cause : McCause) {s : State} (asid : Nat) (hs : s.mem.wf = true) :
    (coreRecord core cause s asid).mem.wf = true := by
  unfold coreRecord
  grind [State.appendRec_wf]

theorem nodeRecord_wf {s : State} (n : Node) (r : FaultRec) (hs : s.mem.wf = true) : (nodeRecord s n r).mem.wf = true := by
  unfold nodeRecord
  grind [State.appendRec_wf]

theorem giveUp_wf {s : State} (id : Nat) (hs : s.mem.wf = true) : (giveUp s id).mem.wf = true := by
  unfold giveUp
  grind [State.dropAcc_mem, discardBank_mem, discardCmd_mem, failPass_wf, lessOutst_mem]

theorem retirePch_wf {s : State} (num : Nat) (hs : s.mem.wf = true) : (retirePch s num).mem.wf = true := by
  unfold retirePch
  grind [checkNodes_wf, dropPch_mem]

theorem resumeAll_wf {s : State} (hs : s.mem.wf = true) : (resumeAll s).mem.wf = true := by
  unfold resumeAll
  grind [resumeRegs_wf]

theorem wdExpire_wf {s : State} (c : Context) (hs : s.mem.wf = true) : (wdExpire s c).mem.wf = true := by
  unfold wdExpire
  grind [State.appendRec_wf, startSave_mem]

theorem spillAll_wf {s : State} (asid : Nat) (hs : s.mem.wf = true) : (spillAll s asid).mem.wf = true := by
  unfold spillAll
  grind [rewindStreams_mem, writeSave_wf, wf_foldl]

theorem loseContext_wf {s : State} (c : Context) (hs : s.mem.wf = true) : (loseContext s c).mem.wf = true := by
  unfold loseContext
  grind [State.cancelNodes_wf, State.discardFamily_wf, State.dropWaves_wf, State.releaseUnits_wf, replayNodes_mem, wf_foldl]

theorem functionReset_wf {s : State} (hs : s.mem.wf = true) : (functionReset s).mem.wf = true := by
  unfold functionReset
  grind [State.freeNode_wf, State.landPorts_wf, State.writeBack_wf, wf_foldl]

/-! ### Synchronisation -/

theorem afterSpad_wf (c : Ctx) (s : State) {body : Act} (hb : body.Wf) : (afterSpad c s body).Wf := by
  unfold afterSpad
  split
  · exact True.intro
  · exact hb

theorem arriveWait_wf (c : Ctx) {s : State} (kind : Bool) (hs : s.mem.wf = true) : (arriveWait c s kind).Wf := by
  unfold arriveWait
  split
  · exact hs
  · refine afterSpad_wf c s ?_
    grind [State.setWave_mem, afterStep_wf, popAll_mem, troupeTest_mem, → troupeArrive_mem, Act.illopnd, Act.Wf]

/-! ### Fetch -/

theorem fetch_wf {s : State} (w : Wave) (hs : s.mem.wf = true) : (fetch s w).Wf := by
  unfold fetch
  grind [→ fetchLine_mem, Fetched.Wf]

theorem fetchFault_wf {s : State} (w : Wave) (cause addr : Nat) (hs : s.mem.wf = true) : (fetchFault s w cause addr).mem.wf = true := by
  unfold fetchFault
  grind [State.enterReplay_wf]

/-! ### Selection -/

theorem takeUnit_wf {s : State} (w : Wave) (hs : s.mem.wf = true) : (takeUnit s w).mem.wf = true := by
  unfold takeUnit
  grind [unitLeave_mem]

theorem markReady_wf {s : State} (w : Wave) (hs : s.mem.wf = true) : (markReady s w).mem.wf = true := by
  unfold markReady
  grind [State.setWave_mem, unitWait_mem]

end Sys2Proof.Machine
end

section
/-! SUPPORT. The memory list stays canonical under each instruction and event. -/

namespace Sys2Proof.Machine

-- One declaration at a time: elaborated at once, so many of them would ask for more threads than there is memory for.
set_option Elab.async false

/-- Where the answer is a next state, its memory is canonical. -/
def AnswersWf : Host.Outcome State Fault Refusal → Prop
  | .next t => t.mem.wf = true
  | _ => True

/-! ### The frame of an instruction -/

theorem Act.Wf.of_stop {p : Prep} {a : Act} (h : p = .stop a) (hp : p.Wf) : a.Wf := by
  subst h
  exact hp

theorem issueOr_wf (i : Instr) (f : Fields) {s : State} {skip body : Ctx → State → Act} (hs : s.mem.wf = true)
    (hskip : ∀ c t, t.mem.wf = true → (skip c t).Wf) (hbody : ∀ c t, t.mem.wf = true → (body c t).Wf) :
    AnswersWf (issueOr i f s skip body) := by
  unfold issueOr
  split
  · exact True.intro
  dsimp only
  split
  · exact State.debugStop_wf _ _ _ _ _ hs
  split
  · exact State.debugStop_wf _ _ _ _ _ hs
  split
  case h_1 heq => exact finish_wf _ hs (.of_stop heq (prepare_wf i f _ hs))
  · exact finish_wf _ hs (hskip _ _ hs)
  · exact finish_wf _ hs (hbody _ _ hs)

theorem issue_wf (i : Instr) (f : Fields) {s : State} {body : Ctx → State → Act} (hs : s.mem.wf = true)
    (hbody : ∀ c t, t.mem.wf = true → (body c t).Wf) : AnswersWf (issue i f s body) :=
  issueOr_wf i f hs (fun _ _ ht => ht) hbody

theorem issueHint_wf (i : Instr) (f : Fields) {s : State} {body : Ctx → State → State} (hs : s.mem.wf = true)
    (hbody : ∀ c t, t.mem.wf = true → (body c t).mem.wf = true) : AnswersWf (issueHint i f s body) := by
  unfold issueHint
  split
  · exact True.intro
  dsimp only
  split
  · exact State.debugStop_wf _ _ _ _ _ hs
  split
  · exact State.debugStop_wf _ _ _ _ _ hs
  split
  · exact finish_wf _ hs (hbody _ _ hs)
  · exact finish_wf _ hs hs

theorem issueWord_wf {s : State} {a : State → Act} (hs : s.mem.wf = true) (ha : ∀ t, t.mem.wf = true → (a t).Wf) :
    AnswersWf (issueWord s a) := by
  unfold issueWord
  split
  · exact True.intro
  dsimp only
  split
  · exact State.debugStop_wf _ _ _ _ _ hs
  split
  · exact State.debugStop_wf _ _ _ _ _ hs
  · exact finish_wf _ hs (ha _ hs)

/-! ### Instructions that only write a register -/

section
variable (i : Instr) (f : Fields) {s : State}

theorem issue_putScalar_wf (n v : Ctx → State → Nat) (hs : s.mem.wf = true) :
    AnswersWf (issue i f s fun c s => .done (c.putScalar s (n c s) (v c s))) :=
  issue_wf i f hs fun c t ht => mem_wf_of_eq (Ctx.putScalar_mem c t _ _) ht

theorem issue_putVec_wf (n : Ctx → State → Nat) (m : Ctx → State → Word) (g : Ctx → State → Nat → Nat) (hs : s.mem.wf = true) :
    AnswersWf (issue i f s fun c s => .done (c.putVec s (n c s) (m c s) (g c s))) :=
  issue_wf i f hs fun c t ht => mem_wf_of_eq (Ctx.putVec_mem c t _ _ _) ht

theorem issue_putPred_wf (m v : Ctx → State → Word) (hs : s.mem.wf = true) :
    AnswersWf (issue i f s fun c s => .done (c.putPred s (m c s) (v c s))) :=
  issue_wf i f hs fun c t ht => mem_wf_of_eq (Ctx.putPred_mem c t _ _) ht

theorem issue_putFlagged_wf (n : Ctx → State → Nat) (g : Ctx → State → Nat → Nat × Flags) (hs : s.mem.wf = true) :
    AnswersWf (issue i f s fun c s => .done (c.putFlagged s (n c s) (g c s))) :=
  issue_wf i f hs fun c t ht => mem_wf_of_eq (Ctx.putFlagged_mem c t _ _) ht

theorem issue_putGroup_wf (p : Ctx → State → Nat) (g : Ctx → State → Nat → Nat → Nat × Flags) (hs : s.mem.wf = true) :
    AnswersWf (issue i f s fun c s => .done (c.putGroup s (p c s) (g c s))) :=
  issue_wf i f hs fun c t ht => mem_wf_of_eq (Ctx.putGroup_mem c t _ _) ht

end

/-! ### Control -/

theorem execNop_wf (f : Fields) {s : State} (hs : s.mem.wf = true) : AnswersWf (execNop f s) :=
  issue_wf _ _ hs fun _ _ ht => ht

theorem execBra_wf (f : Fields) {s : State} (hs : s.mem.wf = true) : AnswersWf (execBra f s) :=
  issue_wf _ _ hs fun _ _ ht => ht

theorem execBrs_wf (f : Fields) {s : State} (hs : s.mem.wf = true) : AnswersWf (execBrs f s) := by
  refine issue_wf _ _ hs fun c t ht => ?_
  grind [branchIf_wf]

theorem execBrm_wf (f : Fields) {s : State} (hs : s.mem.wf = true) : AnswersWf (execBrm f s) := by
  refine issue_wf _ _ hs fun c t ht => ?_
  grind [branchIf_wf]

theorem execCall_wf (f : Fields) {s : State} (hs : s.mem.wf = true) : AnswersWf (execCall f s) := by
  refine issue_wf _ _ hs fun c t ht => ?_
  grind [Ctx.putScalar_mem, Act.Wf]

theorem execRet_wf (f : Fields) {s : State} (hs : s.mem.wf = true) : AnswersWf (execRet f s) :=
  issue_wf _ _ hs fun _ _ ht => ht

theorem execJmpi_wf (f : Fields) {s : State} (hs : s.mem.wf = true) : AnswersWf (execJmpi f s) :=
  issue_wf _ _ hs fun _ _ ht => ht

theorem execLoop_wf (f : Fields) {s : State} (hs : s.mem.wf = true) : AnswersWf (execLoop f s) := by
  refine issue_wf _ _ hs fun c t ht => ?_
  grind [Ctx.putScalar_mem, branchIf_wf]

theorem execYield_wf (f : Fields) {s : State} (hs : s.mem.wf = true) : AnswersWf (execYield f s) :=
  issue_wf _ _ hs fun _ _ ht => ht

theorem execPark_wf (f : Fields) {s : State} (hs : s.mem.wf = true) : AnswersWf (execPark f s) := by
  refine issue_wf _ _ hs fun c t ht => ?_
  grind [State.setWave_mem, Act.Wf]

theorem execHalt_wf (f : Fields) {s : State} (hs : s.mem.wf = true) : AnswersWf (execHalt f s) := by
  refine issue_wf _ _ hs fun c t ht => ?_
  grind [haltAct_wf, haltWave_wf, Act.Wf]

theorem execGetid_wf (f : Fields) {s : State} (hs : s.mem.wf = true) : AnswersWf (execGetid f s) := by
  refine issue_wf _ _ hs fun c t ht => ?_
  grind [Ctx.putScalar_mem, Ctx.putVec_mem, Act.Wf, Act.det]

/-! ### Conversions -/

theorem execCvt_wf (f : Fields) {s : State} (hs : s.mem.wf = true) : AnswersWf (execCvt f s) := by
  refine issue_wf _ _ hs fun c t ht => ?_
  grind [Ctx.putFlagged_mem, Act.Wf]

theorem execCvs_wf (f : Fields) {s : State} (hs : s.mem.wf = true) : AnswersWf (execCvs f s) := by
  refine issue_wf _ _ hs fun c t ht => ?_
  grind [Ctx.putFlagged_mem, Act.Wf, Act.det]

theorem execMxsc_wf (f : Fields) {s : State} (hs : s.mem.wf = true) : AnswersWf (execMxsc f s) := by
  refine issue_wf _ _ hs fun c t ht => ?_
  grind [Ctx.addFlags_mem, Ctx.putScalar_mem, Ctx.putVec_mem, Act.Wf, Act.det]

/-! ### Streams -/

theorem bindStream_wf (i : Instr) (f : Fields) {s : State} (write : Bool) (hs : s.mem.wf = true) :
    AnswersWf (bindStream i f s write) := by
  refine issue_wf _ _ hs fun c t ht => ?_
  grind [State.setWave_mem, unitLeave_mem, unitWait_mem, Act.Wf, Act.illopnd]

theorem execAend_wf (f : Fields) {s : State} (hs : s.mem.wf = true) : AnswersWf (execAend f s) := by
  refine issue_wf _ _ hs fun c t ht => ?_
  grind [State.setStream_mem, State.setWave_mem, endStream_mem, streamFault_wf, withDelivery_wf, Act.Wf]

theorem execStreamFetch_wf (stream : Nat) {s : State} (hs : s.mem.wf = true) : AnswersWf (execStreamFetch stream s) := by
  unfold execStreamFetch
  grind [State.setStream_mem, fetchLanes_wf, refetch_wf, AnswersWf]

theorem execStreamStore_wf (stream : Nat) {s : State} (hs : s.mem.wf = true) : AnswersWf (execStreamStore stream s) := by
  unfold execStreamStore
  grind [storeEntry_wf, AnswersWf]

/-! ### The array banks -/

theorem execArrayCommandStart_wf (core quad bank : Nat) {s : State} (hs : s.mem.wf = true) :
    AnswersWf (execArrayCommandStart core quad bank s) := by
  unfold execArrayCommandStart
  grind [startCmd_wf, AnswersWf]

theorem execPlaneLoadComplete_wf (core quad bank : Nat) {s : State} (hs : s.mem.wf = true) :
    AnswersWf (execPlaneLoadComplete core quad bank s) := by
  unfold execPlaneLoadComplete
  grind [popCmd_mem, AnswersWf]

theorem execArrayContributionApply_wf (core quad bank : Nat) {s : State} (hs : s.mem.wf = true) :
    AnswersWf (execArrayContributionApply core quad bank s) := by
  unfold execArrayContributionApply
  grind [streamRow_wf, AnswersWf]

/-! ### Vector integer instructions -/

theorem execVbcast_wf (f : Fields) {s : State} (hs : s.mem.wf = true) : AnswersWf (execVbcast f s) := by
  refine issue_wf _ _ hs fun c t ht => ?_
  grind [Ctx.putVec_mem, Act.Wf, Act.det]

theorem execVshfl_wf (f : Fields) {s : State} (hs : s.mem.wf = true) : AnswersWf (execVshfl f s) := by
  refine issue_wf _ _ hs fun c t ht => ?_
  grind [Ctx.putVec_mem, Act.Wf, Act.det]

theorem execVaddx_wf (f : Fields) {s : State} (hs : s.mem.wf = true) : AnswersWf (execVaddx f s) := by
  refine issue_wf _ _ hs fun c t ht => ?_
  grind [Ctx.putVec_mem, State.setWave_mem, Act.Wf]

theorem execVscan_wf (f : Fields) {s : State} (hs : s.mem.wf = true) : AnswersWf (execVscan f s) := by
  refine issue_wf _ _ hs fun c t ht => ?_
  grind [Ctx.putVec_mem, Act.Wf, Act.det]

/-! ### Vector float instructions -/

theorem fpCmp_wf (dbl : Bool) (i : Instr) (f : Fields) {s : State} (hs : s.mem.wf = true) : AnswersWf (fpCmp dbl i f s) := by
  refine issue_wf _ _ hs fun c t ht => ?_
  grind [fpTest_mem, Act.Wf]

theorem fpClass_wf (dbl : Bool) (i : Instr) (f : Fields) {s : State} (hs : s.mem.wf = true) : AnswersWf (fpClass dbl i f s) := by
  refine issue_wf _ _ hs fun c t ht => ?_
  grind [fpTest_mem, Act.Wf]

theorem fpRed_wf (dbl : Bool) (i : Instr) (f : Fields) {s : State} (hs : s.mem.wf = true) : AnswersWf (fpRed dbl i f s) := by
  refine issue_wf _ _ hs fun c t ht => ?_
  grind [Ctx.addFlags_mem, Ctx.putScalar_mem, Ctx.putVec_mem, Act.Wf, Act.det]

/-! ### Atomics -/

theorem execAtom_wf (f : Fields) {s : State} (hs : s.mem.wf = true) : AnswersWf (execAtom f s) := by
  refine issue_wf _ _ hs fun c t ht => ?_
  grind [atomLanes_wf]

theorem execRed_wf (f : Fields) {s : State} (hs : s.mem.wf = true) : AnswersWf (execRed f s) := by
  refine issue_wf _ _ hs fun c t ht => ?_
  grind [atomLanes_wf]

theorem execAcas_wf (f : Fields) {s : State} (hs : s.mem.wf = true) : AnswersWf (execAcas f s) := by
  refine issue_wf _ _ hs fun c t ht => ?_
  grind [atomLanes_wf]

theorem execAtomf_wf (f : Fields) {s : State} (hs : s.mem.wf = true) : AnswersWf (execAtomf f s) := by
  refine issue_wf _ _ hs fun c t ht => ?_
  grind [atomLanes_wf]

theorem execRedf_wf (f : Fields) {s : State} (hs : s.mem.wf = true) : AnswersWf (execRedf f s) := by
  refine issue_wf _ _ hs fun c t ht => ?_
  grind [atomLanes_wf]

theorem execRedo_wf (f : Fields) {s : State} (hs : s.mem.wf = true) : AnswersWf (execRedo f s) := by
  refine issue_wf _ _ hs fun c t ht => ?_
  grind [atomLanes_wf]

/-! ### Tasks -/

theorem execTnew_wf (f : Fields) {s : State} (hs : s.mem.wf = true) : AnswersWf (execTnew f s) := by
  refine issue_wf _ _ hs fun c t ht => ?_
  grind [Ctx.putScalar_mem, newNode_wf, withRead_wf, Act.Wf]

theorem execTdep_wf (f : Fields) {s : State} (hs : s.mem.wf = true) : AnswersWf (execTdep f s) := by
  refine issue_wf _ _ hs fun c t ht => ?_
  grind [Ctx.putScalar_mem, State.setNode_mem, Act.Wf]

theorem execTsub_wf (f : Fields) {s : State} (hs : s.mem.wf = true) : AnswersWf (execTsub f s) := by
  refine issue_wf _ _ hs fun c t ht => ?_
  grind [Ctx.putScalar_mem, submit_mem, Act.Wf]

theorem execTalloc_wf (f : Fields) {s : State} (hs : s.mem.wf = true) : AnswersWf (execTalloc f s) := by
  refine issueOr_wf _ _ hs (fun c s hs => ?_) fun c s hs => ?_
  · grind [countTalloc_mem, reachTalloc_mem, Act.Wf]
  · grind [dataStop_wf, State.fresh_mem, addAccess_mem, reachTalloc_mem, addOutst_mem, openLanding_mem, Act.det, Act.Wf]

theorem execTgrow_wf (f : Fields) {s : State} (hs : s.mem.wf = true) : AnswersWf (execTgrow f s) := by
  refine issue_wf _ _ hs fun c t ht => ?_
  grind [Ctx.putScalar_mem, State.setArray_mem, Act.Wf, Act.det]

theorem execTabortNode_wf (f : Fields) {s : State} (hs : s.mem.wf = true) : AnswersWf (execTabortNode f s) := by
  refine issue_wf _ _ hs fun c t ht => ?_
  grind [Ctx.putScalar_mem, freeUnsubmitted_wf, Act.Wf]

theorem execTabortSelf_wf (f : Fields) {s : State} (hs : s.mem.wf = true) : AnswersWf (execTabortSelf f s) := by
  refine issue_wf _ _ hs fun c t ht => ?_
  grind [abortSelf_wf, Act.Wf]

/-! ### Bank commands -/

theorem execBankCommandPerform_wf (command : Nat) {s : State} (hs : s.mem.wf = true) : AnswersWf (execBankCommandPerform command s) := by
  unfold execBankCommandPerform
  grind [runCmd_wf, AnswersWf]

theorem execBkmodeAcq_wf (f : Fields) {s : State} (hs : s.mem.wf = true) : AnswersWf (execBkmodeAcq f s) := by
  refine issue_wf _ _ hs fun c t ht => ?_
  grind [bkmode_wf]

theorem execBkmodeAll_wf (f : Fields) {s : State} (hs : s.mem.wf = true) : AnswersWf (execBkmodeAll f s) := by
  refine issue_wf _ _ hs fun c t ht => ?_
  grind [bkmode_wf]

theorem execBkmodeOne_wf (f : Fields) {s : State} (hs : s.mem.wf = true) : AnswersWf (execBkmodeOne f s) := by
  refine issue_wf _ _ hs fun c t ht => ?_
  grind [bkmode_wf]

theorem execBkmodeRel_wf (f : Fields) {s : State} (hs : s.mem.wf = true) : AnswersWf (execBkmodeRel f s) := by
  refine issue_wf _ _ hs fun c t ht => ?_
  grind [bkmode_wf]

theorem execBkbc_wf (f : Fields) {s : State} (hs : s.mem.wf = true) : AnswersWf (execBkbc f s) := by
  refine issue_wf _ _ hs fun c t ht => ?_
  grind [sendCmd_wf, withDelivery_wf]

theorem execBkmac_wf (f : Fields) {s : State} (hs : s.mem.wf = true) : AnswersWf (execBkmac f s) := by
  refine issue_wf _ _ hs fun c t ht => ?_
  grind [walkIssue_wf]

theorem execBkop_wf (f : Fields) {s : State} (hs : s.mem.wf = true) : AnswersWf (execBkop f s) := by
  refine issue_wf _ _ hs fun c t ht => ?_
  grind [walkIssue_wf]

theorem execBkst_wf (f : Fields) {s : State} (hs : s.mem.wf = true) : AnswersWf (execBkst f s) := by
  refine issue_wf _ _ hs fun c t ht => ?_
  grind [walkIssue_wf]

theorem execBkrd_wf (f : Fields) {s : State} (hs : s.mem.wf = true) : AnswersWf (execBkrd f s) := by
  refine issue_wf _ _ hs fun c t ht => ?_
  grind [State.fresh_mem, openLanding_mem, sendCmd_wf, withDelivery_wf, Act.Wf]

theorem execBkfnIn_wf (f : Fields) {s : State} (hs : s.mem.wf = true) : AnswersWf (execBkfnIn f s) := by
  refine issue_wf _ _ hs fun c t ht => ?_
  grind [bkfn_wf]

theorem execBkfnOut_wf (f : Fields) {s : State} (hs : s.mem.wf = true) : AnswersWf (execBkfnOut f s) := by
  refine issue_wf _ _ hs fun c t ht => ?_
  grind [bkfn_wf]

theorem execBred_wf (f : Fields) {s : State} (hs : s.mem.wf = true) : AnswersWf (execBred f s) := by
  refine issue_wf _ _ hs fun c t ht => ?_
  grind [Ctx.putScalar_mem, State.enterHold_mem, State.fresh_mem, unitLeave_mem, unitWait_mem, withDelivery_wf, withRead_wf, Act.Wf]

theorem execBredJobStart_wf (job : Nat) {s : State} (hs : s.mem.wf = true) : AnswersWf (execBredJobStart job s) := by
  unfold execBredJobStart
  grind [runJob_wf, AnswersWf]

theorem execBredJobComplete_wf (job : Nat) {s : State} (hs : s.mem.wf = true) : AnswersWf (execBredJobComplete job s) := by
  unfold execBredJobComplete
  grind [endJob_wf, AnswersWf]

/-! ### The engine -/

theorem execEcpy_wf (f : Fields) {s : State} (hs : s.mem.wf = true) : AnswersWf (execEcpy f s) := by
  refine issue_wf _ _ hs fun c t ht => ?_
  grind [sendEntry_wf]

theorem execEgat_wf (f : Fields) {s : State} (hs : s.mem.wf = true) : AnswersWf (execEgat f s) := by
  refine issue_wf _ _ hs fun c t ht => ?_
  grind [sendEntry_wf]

theorem execEdcp_wf (f : Fields) {s : State} (hs : s.mem.wf = true) : AnswersWf (execEdcp f s) := by
  refine issue_wf _ _ hs fun c t ht => ?_
  grind [sendEntry_wf]

theorem execEfence_wf (f : Fields) {s : State} (hs : s.mem.wf = true) : AnswersWf (execEfence f s) := by
  refine issue_wf _ _ hs fun c t ht => ?_
  grind [sendEntry_wf]

theorem execEwait_wf (f : Fields) {s : State} (hs : s.mem.wf = true) : AnswersWf (execEwait f s) := by
  refine issue_wf _ _ hs fun c t ht => ?_
  grind [Ctx.putScalar_mem, Act.Wf]

/-! ### Rays -/

theorem execKbind_wf (f : Fields) {s : State} (hs : s.mem.wf = true) : AnswersWf (execKbind f s) := by
  refine issue_wf _ _ hs fun c t ht => ?_
  grind [Ctx.putScalar_mem, State.partWrite_wf, withRead_wf, Act.Wf, Act.det]

theorem execTrace_wf (f : Fields) {s : State} (hs : s.mem.wf = true) : AnswersWf (execTrace f s) := by
  refine issue_wf _ _ hs fun c t ht => ?_
  grind [traceWith_wf]

theorem execTracec_wf (f : Fields) {s : State} (hs : s.mem.wf = true) : AnswersWf (execTracec f s) := by
  refine issue_wf _ _ hs fun c t ht => ?_
  grind [traceWith_wf]

theorem execCgetLive_wf (f : Fields) {s : State} (hs : s.mem.wf = true) : AnswersWf (execCgetLive f s) := by
  refine issue_wf _ _ hs fun c t ht => ?_
  grind [fetchRecords_wf, Act.Wf, Act.illopnd]

theorem execCgetHit_wf (f : Fields) {s : State} (hs : s.mem.wf = true) : AnswersWf (execCgetHit f s) := by
  refine issue_wf _ _ hs fun c t ht => ?_
  grind [fetchRecords_wf, Act.Wf, Act.illopnd]

theorem execCend_wf (f : Fields) {s : State} (hs : s.mem.wf = true) : AnswersWf (execCend f s) := by
  refine issue_wf _ _ hs fun c t ht => ?_
  grind [State.freeRays_wf, State.setWave_mem, Act.Wf]

theorem execContGroupClose_wf (asid owner : Nat) (cont : BitVec 64) {s : State} (hs : s.mem.wf = true) :
    AnswersWf (execContGroupClose asid owner cont s) := by
  unfold execContGroupClose
  grind [closeGroup_mem, AnswersWf]

/-! ### Kite -/

theorem kiteStep_wf (i : Instr) {s : State} {body : Binding → Ray → State → KAct} (hs : s.mem.wf = true)
    (hbody : ∀ b r t, t.mem.wf = true → (body b r t).Wf) : AnswersWf (kiteStep i s body) := by
  unfold kiteStep
  split
  · exact True.intro
  dsimp only
  split
  · exact endRay_wf _ _ hs
  split
  · exact kiteFinish_wf _ hs (hbody _ _ _ hs)
  · exact endRay_wf _ _ hs

theorem execKiteNld_wf (k : KFields) {s : State} (hs : s.mem.wf = true) : AnswersWf (execKiteNld k s) := by
  refine kiteStep_wf _ hs fun b r t ht => ?_
  grind [loadNode_wf]

theorem execKiteNldRoot_wf (k : KFields) {s : State} (hs : s.mem.wf = true) : AnswersWf (execKiteNldRoot k s) := by
  refine kiteStep_wf _ hs fun b r t ht => ?_
  grind [loadNode_wf]

theorem execKiteNldChild_wf (k : KFields) {s : State} (hs : s.mem.wf = true) : AnswersWf (execKiteNldChild k s) := by
  refine kiteStep_wf _ hs fun b r t ht => ?_
  grind [loadNode_wf, KAct.Wf, KAct.illegal]

theorem execKiteBxi_wf (k : KFields) {s : State} (hs : s.mem.wf = true) : AnswersWf (execKiteBxi k s) := by
  refine kiteStep_wf _ hs fun b r t ht => ?_
  grind [KAct.Wf, KAct.illegal]

theorem execKiteTxi_wf (k : KFields) {s : State} (hs : s.mem.wf = true) : AnswersWf (execKiteTxi k s) := by
  refine kiteStep_wf _ hs fun b r t ht => ?_
  grind [KAct.Wf, KAct.illegal]

theorem execKitePush_wf (k : KFields) {s : State} (hs : s.mem.wf = true) : AnswersWf (execKitePush k s) := by
  refine kiteStep_wf _ hs fun b r t ht => ?_
  grind [pushEntry_wf, KAct.Wf, KAct.illegal]

theorem execKitePushTag_wf (k : KFields) {s : State} (hs : s.mem.wf = true) : AnswersWf (execKitePushTag k s) := by
  refine kiteStep_wf _ hs fun b r t ht => ?_
  grind [pushEntry_wf]

theorem execKitePop_wf (k : KFields) {s : State} (hs : s.mem.wf = true) : AnswersWf (execKitePop k s) := by
  refine kiteStep_wf _ hs fun b r t ht => ?_
  grind [KAct.Wf]

theorem execKiteSrt_wf (k : KFields) {s : State} (hs : s.mem.wf = true) : AnswersWf (execKiteSrt k s) :=
  kiteStep_wf _ hs fun _ _ _ ht => ht

theorem execKiteCmp_wf (k : KFields) {s : State} (hs : s.mem.wf = true) : AnswersWf (execKiteCmp k s) :=
  kiteStep_wf _ hs fun _ _ _ ht => ht

theorem execKiteCmpImm_wf (k : KFields) {s : State} (hs : s.mem.wf = true) : AnswersWf (execKiteCmpImm k s) :=
  kiteStep_wf _ hs fun _ _ _ ht => ht

theorem execKiteBr_wf (k : KFields) {s : State} (hs : s.mem.wf = true) : AnswersWf (execKiteBr k s) := by
  refine kiteStep_wf _ hs fun b r t ht => ?_
  grind [kiteLabel_wf]

theorem execKiteBrn_wf (k : KFields) {s : State} (hs : s.mem.wf = true) : AnswersWf (execKiteBrn k s) := by
  refine kiteStep_wf _ hs fun b r t ht => ?_
  grind [kiteLabel_wf]

theorem execKiteJmp_wf (k : KFields) {s : State} (hs : s.mem.wf = true) : AnswersWf (execKiteJmp k s) := by
  refine kiteStep_wf _ hs fun b r t ht => ?_
  grind [kiteLabel_wf]

theorem execKiteJmpReg_wf (k : KFields) {s : State} (hs : s.mem.wf = true) : AnswersWf (execKiteJmpReg k s) := by
  refine kiteStep_wf _ hs fun b r t ht => ?_
  grind [KAct.Wf, KAct.illegal]

theorem execKiteCall_wf (k : KFields) {s : State} (hs : s.mem.wf = true) : AnswersWf (execKiteCall k s) := by
  refine kiteStep_wf _ hs fun b r t ht => ?_
  grind [KAct.Wf, KAct.illegal]

theorem execKiteAcpt_wf (k : KFields) {s : State} (hs : s.mem.wf = true) : AnswersWf (execKiteAcpt k s) :=
  kiteStep_wf _ hs fun _ _ _ ht => ht

theorem execKiteHit_wf (k : KFields) {s : State} (hs : s.mem.wf = true) : AnswersWf (execKiteHit k s) := by
  refine kiteStep_wf _ hs fun b r t ht => ?_
  grind [KAct.Wf]

theorem execKiteIxf_wf (k : KFields) {s : State} (hs : s.mem.wf = true) : AnswersWf (execKiteIxf k s) := by
  refine kiteStep_wf _ hs fun b r t ht => ?_
  grind [→ rayRead_wf, KAct.Wf, KAct.illegal]

theorem execKiteItl_wf (k : KFields) {s : State} (hs : s.mem.wf = true) : AnswersWf (execKiteItl k s) :=
  kiteStep_wf _ hs fun _ _ _ ht => ht

theorem execKiteMov_wf (k : KFields) {s : State} (hs : s.mem.wf = true) : AnswersWf (execKiteMov k s) :=
  kiteStep_wf _ hs fun _ _ _ ht => ht

theorem execKiteMovImm_wf (k : KFields) {s : State} (hs : s.mem.wf = true) : AnswersWf (execKiteMovImm k s) :=
  kiteStep_wf _ hs fun _ _ _ ht => ht

theorem execKiteMovN_wf (k : KFields) {s : State} (hs : s.mem.wf = true) : AnswersWf (execKiteMovN k s) := by
  refine kiteStep_wf _ hs fun b r t ht => ?_
  grind [KAct.Wf, KAct.illegal]

theorem execKiteMovT_wf (k : KFields) {s : State} (hs : s.mem.wf = true) : AnswersWf (execKiteMovT k s) :=
  kiteStep_wf _ hs fun _ _ _ ht => ht

theorem execKiteAdd_wf (k : KFields) {s : State} (hs : s.mem.wf = true) : AnswersWf (execKiteAdd k s) :=
  kiteStep_wf _ hs fun _ _ _ ht => ht

theorem execKiteAddImm_wf (k : KFields) {s : State} (hs : s.mem.wf = true) : AnswersWf (execKiteAddImm k s) :=
  kiteStep_wf _ hs fun _ _ _ ht => ht

theorem execKiteEnd_wf (k : KFields) {s : State} (hs : s.mem.wf = true) : AnswersWf (execKiteEnd k s) := by
  refine kiteStep_wf _ hs fun b r t ht => ?_
  grind [KAct.Wf]

theorem execKiteRayTake_wf (core asid ray : Nat) {s : State} (hs : s.mem.wf = true) : AnswersWf (execKiteRayTake core asid ray s) := by
  unfold execKiteRayTake
  grind [State.fresh_mem, State.setRay_mem, recordOf_mem, AnswersWf]

theorem execRaySuspend_wf (asid ray : Nat) {s : State} (hs : s.mem.wf = true) : AnswersWf (execRaySuspend asid ray s) := by
  unfold execRaySuspend
  grind [suspendRay_wf, AnswersWf]

/-! ### Textures -/

theorem execTex_wf (f : Fields) {s : State} (hs : s.mem.wf = true) : AnswersWf (execTex f s) := by
  refine issue_wf _ _ hs fun c t ht => ?_
  grind [readLanes_wf, withDesc_wf]

theorem execTexg_wf (f : Fields) {s : State} (hs : s.mem.wf = true) : AnswersWf (execTexg f s) := by
  refine issue_wf _ _ hs fun c t ht => ?_
  grind [readLanes_wf, withDesc_wf]

theorem execTexn_wf (f : Fields) {s : State} (hs : s.mem.wf = true) : AnswersWf (execTexn f s) := by
  refine issue_wf _ _ hs fun c t ht => ?_
  grind [readLanes_wf, withDesc_wf, withRead_wf, Act.Wf, Act.illopnd]

theorem execVbrd_wf (f : Fields) {s : State} (hs : s.mem.wf = true) : AnswersWf (execVbrd f s) := by
  refine issue_wf _ _ hs fun c t ht => ?_
  grind [pixelRead_wf, withDone_wf, Act.Wf, Act.illopnd]

theorem execRpq_wf (f : Fields) {s : State} (hs : s.mem.wf = true) : AnswersWf (execRpq f s) := by
  refine issue_wf _ _ hs fun c t ht => ?_
  grind [pixelRead_wf, withDone_wf, Act.Wf, Act.illopnd]

theorem execAemit_wf (f : Fields) {s : State} (hs : s.mem.wf = true) : AnswersWf (execAemit f s) := by
  refine issue_wf _ _ hs fun c t ht => ?_
  grind [Ctx.putPred_mem, addOutst_mem, groupOf_mem, issueAttrs_mem, withDone_wf, withRead_wf, Act.Wf, Act.illopnd]

theorem execCcdcDec_wf (f : Fields) {s : State} (hs : s.mem.wf = true) : AnswersWf (execCcdcDec f s) := by
  refine issue_wf _ _ hs fun c t ht => ?_
  grind [convertTiles_wf]

theorem execCcdcEnc_wf (f : Fields) {s : State} (hs : s.mem.wf = true) : AnswersWf (execCcdcEnc f s) := by
  refine issue_wf _ _ hs fun c t ht => ?_
  grind [convertTiles_wf]

theorem execCcfc_wf (f : Fields) {s : State} (hs : s.mem.wf = true) : AnswersWf (execCcfc f s) := by
  refine issue_wf _ _ hs fun c t ht => ?_
  grind [convertTiles_wf]

/-! ### Passes -/

theorem execBinAppend_wf (append : Nat) {s : State} (hs : s.mem.wf = true) : AnswersWf (execBinAppend append s) := by
  unfold execBinAppend
  grind [appendBin_wf, passDone_wf, AnswersWf]

theorem execPemit_wf (f : Fields) {s : State} (hs : s.mem.wf = true) : AnswersWf (execPemit f s) := by
  refine issue_wf _ _ hs fun c t ht => ?_
  grind [Ctx.putPred_mem, addField_wf, emitInto_wf, openPass_wf, withPassDesc_wf, Act.Wf]

theorem execPemitClose_wf (f : Fields) {s : State} (hs : s.mem.wf = true) : AnswersWf (execPemitClose f s) := by
  refine issue_wf _ _ hs fun c s hs => withPassDesc_wf c hs fun d t ht => ?_
  have hopen := openPass_wf c c.vc.scalar64 d ht
  dsimp only
  split
  · exact True.intro
  · rename_i p u hu
    have hwf : u.mem.wf = true := by
      split at hu
      · split at hu
        · cases hu
          exact ht
        · cases hu
      · split at hu
        · obtain ⟨_, -, hu⟩ := Option.map_eq_some_iff.1 hu
          cases hu
          exact hopen
        · cases hu
    exact putField_wf _ _ _ _ _ hwf

theorem execPassCloseProcess_wf (asid desc : Nat) {s : State} (hs : s.mem.wf = true) : AnswersWf (execPassCloseProcess asid desc s) := by
  unfold execPassCloseProcess
  grind [closeWork_wf, AnswersWf]

/-! ### The host -/

theorem execCreate_wf (desc : Nat) {s : State} (hs : s.mem.wf = true) : AnswersWf (execCreate desc s) := by
  unfold execCreate
  grind [barWrite_wf, AnswersWf]

theorem execDoorbell_wf (asid ring index : Nat) {s : State} (hs : s.mem.wf = true) : AnswersWf (execDoorbell asid ring index s) := by
  unfold execDoorbell
  grind [barWrite_wf, AnswersWf]

theorem execReplyRelease_wf (asid seq : Nat) {s : State} (hs : s.mem.wf = true) : AnswersWf (execReplyRelease asid seq s) := by
  unfold execReplyRelease
  grind [barWrite_wf, AnswersWf]

theorem execReplyEnd_wf (asid seq : Nat) {s : State} (hs : s.mem.wf = true) : AnswersWf (execReplyEnd asid seq s) := by
  unfold execReplyEnd
  grind [barWrite_wf, AnswersWf]

theorem execReplyStep_wf (asid seq : Nat) {s : State} (hs : s.mem.wf = true) : AnswersWf (execReplyStep asid seq s) := by
  unfold execReplyStep
  grind [barWrite_wf, AnswersWf]

theorem execGen_wf (asid : Nat) {s : State} (hs : s.mem.wf = true) : AnswersWf (execGen asid s) := by
  unfold execGen
  grind [barWrite_wf, AnswersWf]

theorem execGenerationRaiseComplete_wf (asid : Nat) {s : State} (hs : s.mem.wf = true) :
    AnswersWf (execGenerationRaiseComplete asid s) := by
  unfold execGenerationRaiseComplete
  grind [finishGen_wf, AnswersWf]

theorem execQctlResume_wf (asid queue index : Nat) {s : State} (hs : s.mem.wf = true) :
    AnswersWf (execQctlResume asid queue index s) := by
  unfold execQctlResume
  grind [barWrite_wf, AnswersWf]

theorem execQctlRerun_wf (asid queue : Nat) {s : State} (hs : s.mem.wf = true) : AnswersWf (execQctlRerun asid queue s) := by
  unfold execQctlRerun
  grind [barWrite_wf, AnswersWf]

theorem execQctlSkip_wf (asid queue : Nat) {s : State} (hs : s.mem.wf = true) : AnswersWf (execQctlSkip asid queue s) := by
  unfold execQctlSkip
  grind [barWrite_wf, AnswersWf]

theorem execCtxSave_wf (asid : Nat) {s : State} (hs : s.mem.wf = true) : AnswersWf (execCtxSave asid s) := by
  unfold execCtxSave
  grind [barWrite_wf, AnswersWf]

theorem execCtxRestore_wf (asid : Nat) {s : State} (hs : s.mem.wf = true) : AnswersWf (execCtxRestore asid s) := by
  unfold execCtxRestore
  grind [barWrite_wf, AnswersWf]

theorem execCtxDestroy_wf (asid : Nat) {s : State} (hs : s.mem.wf = true) : AnswersWf (execCtxDestroy asid s) := by
  unfold execCtxDestroy
  grind [barWrite_wf, AnswersWf]

theorem execCtxSlice_wf (asid : Nat) {s : State} (hs : s.mem.wf = true) : AnswersWf (execCtxSlice asid s) := by
  unfold execCtxSlice
  grind [barWrite_wf, AnswersWf]

theorem execCtxUnslice_wf (asid : Nat) {s : State} (hs : s.mem.wf = true) : AnswersWf (execCtxUnslice asid s) := by
  unfold execCtxUnslice
  grind [barWrite_wf, AnswersWf]

theorem execMigrate_wf (asid block : Nat) {s : State} (hs : s.mem.wf = true) : AnswersWf (execMigrate asid block s) := by
  unfold execMigrate
  grind [barWrite_wf, AnswersWf]

theorem execMigrationComplete_wf (asid : Nat) {s : State} (hs : s.mem.wf = true) : AnswersWf (execMigrationComplete asid s) := by
  unfold execMigrationComplete
  grind [finishMigrate_wf, AnswersWf]

theorem execRegisterWrite_wf (bar offset : Nat) (value : BitVec 64) {s : State} (hs : s.mem.wf = true) :
    AnswersWf (execRegisterWrite bar offset value s) := by
  unfold execRegisterWrite
  grind [barWrite_wf, debugWrite_mem, AnswersWf]

theorem execHostWrite_wf (asid va : Nat) (bytes : List Byte) {s : State} (hs : s.mem.wf = true) :
    AnswersWf (execHostWrite asid va bytes s) := by
  unfold execHostWrite
  grind [State.flushRings_wf, State.noteWrite_mem, homeWrite_wf, AnswersWf]

theorem execHostRead_wf (asid va len : Nat) {s : State} (hs : s.mem.wf = true) : AnswersWf (execHostRead asid va len s) := by
  unfold execHostRead
  grind [freeBytes_mem, → homeRead_wf, AnswersWf]

/-! ### The homes -/

theorem execLoadAtHome_wf (access : Nat) {s : State} (hs : s.mem.wf = true) : AnswersWf (execLoadAtHome access s) := by
  unfold execLoadAtHome
  grind [lockAcc_wf, performLoad_wf, wf_foldl, AnswersWf]

theorem execStoreAtHome_wf (access : Nat) {s : State} (hs : s.mem.wf = true) : AnswersWf (execStoreAtHome access s) := by
  unfold execStoreAtHome
  grind [State.enterHold_mem, lockAcc_wf, performStore_wf, AnswersWf]

theorem execAtomicAtPlace_wf (access : Nat) {s : State} (hs : s.mem.wf = true) : AnswersWf (execAtomicAtPlace access s) := by
  unfold execAtomicAtPlace
  grind [State.enterHold_mem, deferAtomic_mem, lockAcc_wf, performAtomic_wf, AnswersWf]

theorem execDeferredAtomic_wf (access : Nat) {s : State} (hs : s.mem.wf = true) : AnswersWf (execDeferredAtomic access s) := by
  unfold execDeferredAtomic
  grind [State.enterHold_mem, performAtomic_wf, performHost_wf, AnswersWf]

theorem execHostAtomic_wf (asid va : Nat) (op : PortOp) (size : Nat) (arg cmp : BitVec 64) {s : State} (hs : s.mem.wf = true) :
    AnswersWf (execHostAtomic asid va op size arg cmp s) := by
  unfold execHostAtomic
  grind [State.fresh_mem, deferAtomic_mem, freeBytes_mem, performHost_wf, AnswersWf]

theorem execRedoContribution_wf (access : Nat) {s : State} (hs : s.mem.wf = true) : AnswersWf (execRedoContribution access s) := by
  unfold execRedoContribution
  grind [contribute_mem, lockAcc_wf, AnswersWf]

theorem execRedoOverflowMove_wf (slice : Nat) {s : State} (hs : s.mem.wf = true) : AnswersWf (execRedoOverflowMove slice s) := by
  unfold execRedoOverflowMove
  grind [AnswersWf]

theorem execAcknowledgement_wf (access : Nat) {s : State} (hs : s.mem.wf = true) : AnswersWf (execAcknowledgement access s) := by
  unfold execAcknowledgement
  grind [acknowledge_mem, AnswersWf]

theorem execLongLatencyResult_wf (group : Nat) {s : State} (hs : s.mem.wf = true) : AnswersWf (execLongLatencyResult group s) := by
  unfold execLongLatencyResult
  grind [State.setWave_mem, AnswersWf]

theorem execL1LeaseExpiry_wf (core asid line : Nat) {s : State} (hs : s.mem.wf = true) :
    AnswersWf (execL1LeaseExpiry core asid line s) := by
  unfold execL1LeaseExpiry
  grind [AnswersWf]

theorem execClusterLineIdle_wf (die asid line : Nat) {s : State} (hs : s.mem.wf = true) :
    AnswersWf (execClusterLineIdle die asid line s) := by
  unfold execClusterLineIdle
  grind [AnswersWf]

/-! ### Clocks -/

theorem execLeaseClockTick_wf {s : State} (hs : s.mem.wf = true) : AnswersWf (execLeaseClockTick s) := by
  unfold execLeaseClockTick
  grind [inTick_wf, AnswersWf]

theorem execParkTimeout_wf (wave : Nat) {s : State} (hs : s.mem.wf = true) : AnswersWf (execParkTimeout wave s) := by
  unfold execParkTimeout
  grind [State.setWave_mem, AnswersWf]

theorem execWaveOverdue_wf (wave : Nat) {s : State} (hs : s.mem.wf = true) : AnswersWf (execWaveOverdue wave s) := by
  unfold execWaveOverdue
  grind [State.setWave_mem, AnswersWf]

theorem execFunctionalUnitFree_wf (core quad unit : Nat) {s : State} (hs : s.mem.wf = true) :
    AnswersWf (execFunctionalUnitFree core quad unit s) := by
  unfold execFunctionalUnitFree
  grind [State.setWave_mem, AnswersWf]

/-! ### The work of the engine -/

theorem execEngineEntryStart_wf (entry : Nat) {s : State} (hs : s.mem.wf = true) : AnswersWf (execEngineEntryStart entry s) := by
  unfold execEngineEntryStart
  grind [engKeep_wf, engRun_wf, AnswersWf]

theorem execEngineEntryComplete_wf (entry : Nat) {s : State} (hs : s.mem.wf = true) : AnswersWf (execEngineEntryComplete entry s) := by
  unfold execEngineEntryComplete
  grind [engComplete_wf, AnswersWf]

/-! ### Loads and stores -/

theorem execLd_wf (f : Fields) {s : State} (hs : s.mem.wf = true) : AnswersWf (execLd f s) := by
  refine issue_wf _ _ hs fun c t ht => ?_
  grind [vectorLoad_wf]

theorem execLdnt_wf (f : Fields) {s : State} (hs : s.mem.wf = true) : AnswersWf (execLdnt f s) := by
  refine issue_wf _ _ hs fun c t ht => ?_
  grind [vectorLoad_wf]

theorem execLda_wf (f : Fields) {s : State} (hs : s.mem.wf = true) : AnswersWf (execLda f s) := by
  refine issue_wf _ _ hs fun c t ht => ?_
  grind [vectorLoad_wf]

theorem execLds_wf (f : Fields) {s : State} (hs : s.mem.wf = true) : AnswersWf (execLds f s) := by
  refine issue_wf _ _ hs fun c t ht => ?_
  grind [State.fresh_mem, State.setWave_mem, dataStop_wf, issueLoads_mem, openLanding_mem, Act.Wf]

theorem execPrf_wf (f : Fields) {s : State} (hs : s.mem.wf = true) : AnswersWf (execPrf f s) := by
  refine issue_wf _ _ hs fun c t ht => ?_
  grind [Ctx.putPred_mem, dataStop_wf, prefetch_wf, wf_foldl, Act.Wf]

theorem execSt_wf (f : Fields) {s : State} (hs : s.mem.wf = true) : AnswersWf (execSt f s) := by
  refine issue_wf _ _ hs fun c t ht => ?_
  grind [vectorStore_wf]

theorem execStnt_wf (f : Fields) {s : State} (hs : s.mem.wf = true) : AnswersWf (execStnt f s) := by
  refine issue_wf _ _ hs fun c t ht => ?_
  grind [vectorStore_wf]

theorem execStl_wf (f : Fields) {s : State} (hs : s.mem.wf = true) : AnswersWf (execStl f s) := by
  refine issue_wf _ _ hs fun c t ht => ?_
  grind [vectorStore_wf]

theorem execSts_wf (f : Fields) {s : State} (hs : s.mem.wf = true) : AnswersWf (execSts f s) := by
  refine issue_wf _ _ hs fun c t ht => ?_
  grind [State.fresh_mem, addAccess_mem, addOutst_mem, dataStop_wf, Act.Wf]

theorem execSpl_wf (f : Fields) {s : State} (hs : s.mem.wf = true) : AnswersWf (execSpl f s) := by
  refine issue_wf _ _ hs fun c t ht => ?_
  grind [spLoad_wf]

theorem execSps_wf (f : Fields) {s : State} (hs : s.mem.wf = true) : AnswersWf (execSps f s) := by
  refine issue_wf _ _ hs fun c t ht => ?_
  grind [spStore_wf]

theorem execSpcl_wf (f : Fields) {s : State} (hs : s.mem.wf = true) : AnswersWf (execSpcl f s) := by
  refine issue_wf _ _ hs fun c t ht => ?_
  grind [spLoad_wf]

theorem execSpcs_wf (f : Fields) {s : State} (hs : s.mem.wf = true) : AnswersWf (execSpcs f s) := by
  refine issue_wf _ _ hs fun c t ht => ?_
  grind [spStore_wf]

theorem execSpcp_wf (f : Fields) {s : State} (hs : s.mem.wf = true) : AnswersWf (execSpcp f s) := by
  refine issue_wf _ _ hs fun c t ht => ?_
  grind [State.fresh_mem, addOutst_mem, issueSpad_mem, noteRange_mem, Act.Wf]

/-! ### Mask instructions -/

theorem execMlane_wf (f : Fields) {s : State} (hs : s.mem.wf = true) : AnswersWf (execMlane f s) := by
  refine issue_wf _ _ hs fun c t ht => ?_
  grind [Ctx.putScalar_mem, Act.Wf, Act.det]

theorem execVote_wf (f : Fields) {s : State} (hs : s.mem.wf = true) : AnswersWf (execVote f s) := by
  refine issue_wf _ _ hs fun c t ht => ?_
  grind [Ctx.putScalar_mem, Act.Wf, Act.det]

/-! ### System instructions -/

theorem execTrap_wf (f : Fields) {s : State} (hs : s.mem.wf = true) : AnswersWf (execTrap f s) := by
  refine issue_wf _ _ hs fun c t ht => ?_
  grind [Act.Wf]

theorem execTret_wf (f : Fields) {s : State} (hs : s.mem.wf = true) : AnswersWf (execTret f s) := by
  refine issue_wf _ _ hs fun c t ht => ?_
  grind [State.setWave_mem, Act.Wf, Act.illopnd]

theorem execSrd_wf (f : Fields) {s : State} (hs : s.mem.wf = true) : AnswersWf (execSrd f s) := by
  refine issue_wf _ _ hs fun c t ht => ?_
  grind [Ctx.putScalar_mem, Act.Wf]

theorem execSwr_wf (f : Fields) {s : State} (hs : s.mem.wf = true) : AnswersWf (execSwr f s) := by
  refine issue_wf _ _ hs fun c t ht => ?_
  grind [State.setWave_mem, kickWatchdog_mem, Act.Wf, Act.illopnd]

theorem execBrk_wf (f : Fields) {s : State} (hs : s.mem.wf = true) : AnswersWf (execBrk f s) := by
  refine issue_wf _ _ hs fun c t ht => ?_
  grind [State.debugStop_wf, Act.Wf]

theorem execCtime_wf (f : Fields) {s : State} (hs : s.mem.wf = true) : AnswersWf (execCtime f s) := by
  refine issue_wf _ _ hs fun c t ht => ?_
  grind [Ctx.putScalar_mem, Act.Wf, Act.det]

theorem execHprf_wf (f : Fields) {s : State} (hs : s.mem.wf = true) : AnswersWf (execHprf f s) :=
  issueHint_wf _ _ hs fun _ _ ht => ht

theorem execHpri_wf (f : Fields) {s : State} (hs : s.mem.wf = true) : AnswersWf (execHpri f s) :=
  issueHint_wf _ _ hs fun _ _ ht => ht

theorem execHbranch_wf (f : Fields) {s : State} (hs : s.mem.wf = true) : AnswersWf (execHbranch f s) :=
  issueHint_wf _ _ hs fun _ _ ht => ht

theorem execHintNop_wf (_w : BitVec 96) {s : State} (hs : s.mem.wf = true) : AnswersWf (execHintNop _w s) :=
  issueWord_wf hs fun _ ht => ht

theorem execReservedWord_wf (_w : BitVec 96) {s : State} (hs : s.mem.wf = true) : AnswersWf (execReservedWord _w s) := by
  refine issueWord_wf hs fun t ht => ?_
  grind [Act.Wf]

/-! ### Matrix instructions -/

theorem execMcfg_wf (f : Fields) {s : State} (hs : s.mem.wf = true) : AnswersWf (execMcfg f s) := by
  refine issue_wf _ _ hs fun c t ht => ?_
  grind [enqueue_wf, onArray_wf, Act.Wf, Act.illopnd]

theorem execMlds_wf (f : Fields) {s : State} (hs : s.mem.wf = true) : AnswersWf (execMlds f s) := by
  refine issue_wf _ _ hs fun c t ht => ?_
  grind [enqueue_wf, onConfig_wf, Act.Wf, Act.illopnd]

theorem execMswp_wf (f : Fields) {s : State} (hs : s.mem.wf = true) : AnswersWf (execMswp f s) := by
  refine issue_wf _ _ hs fun c t ht => ?_
  grind [enqueue_wf, onArray_wf]

theorem execMclr_wf (f : Fields) {s : State} (hs : s.mem.wf = true) : AnswersWf (execMclr f s) := by
  refine issue_wf _ _ hs fun c t ht => ?_
  grind [enqueue_wf, onArray_wf, Act.Wf, Act.illopnd]

theorem execMstr_wf (f : Fields) {s : State} (hs : s.mem.wf = true) : AnswersWf (execMstr f s) := by
  refine issue_wf _ _ hs fun c t ht => ?_
  grind [enqueue_wf, onConfig_wf, Act.Wf, Act.illopnd, Act.det]

theorem execMrd_wf (f : Fields) {s : State} (hs : s.mem.wf = true) : AnswersWf (execMrd f s) := by
  refine issue_wf _ _ hs fun c t ht => ?_
  grind [State.fresh_mem, enqueue_wf, onConfig_wf, openLanding_mem, Act.Wf, Act.illopnd]

theorem execMst_wf (f : Fields) {s : State} (hs : s.mem.wf = true) : AnswersWf (execMst f s) := by
  refine issue_wf _ _ hs fun c t ht => ?_
  grind [addOutst_mem, enqueue_wf, onConfig_wf, Act.Wf, Act.illopnd]

theorem execMbnd_wf (f : Fields) {s : State} (hs : s.mem.wf = true) : AnswersWf (execMbnd f s) := by
  refine issue_wf _ _ hs fun c t ht => ?_
  grind [Ctx.putScalar_mem, State.setArray_mem, State.setWave_mem, onArray_wf, Act.Wf]

/-! ### Ordering -/

theorem execFenceAcq_wf (f : Fields) {s : State} (hs : s.mem.wf = true) : AnswersWf (execFenceAcq f s) := by
  refine issue_wf _ _ hs fun c t ht => ?_
  grind [withDelivery_wf, Act.Wf]

theorem execFenceRel_wf (f : Fields) {s : State} (hs : s.mem.wf = true) : AnswersWf (execFenceRel f s) := by
  refine issue_wf _ _ hs fun c t ht => ?_
  grind [State.landPorts_wf, withDelivery_wf, Act.Wf]

theorem execLwait_wf (f : Fields) {s : State} (hs : s.mem.wf = true) : AnswersWf (execLwait f s) := by
  refine issue_wf _ _ hs fun c t ht => ?_
  grind [Act.Wf]

/-! ### The puppeteers -/

theorem execNodeDispatch_wf (node : Nat) {s : State} (hs : s.mem.wf = true) : AnswersWf (execNodeDispatch node s) := by
  unfold execNodeDispatch
  grind [dispatchNode_wf, AnswersWf]

theorem execNodePassedOver_wf (node : Nat) {s : State} (hs : s.mem.wf = true) : AnswersWf (execNodePassedOver node s) := by
  unfold execNodePassedOver
  grind [State.setNode_mem, AnswersWf]

theorem execWavePlacement_wf (node : Nat) {s : State} (hs : s.mem.wf = true) : AnswersWf (execWavePlacement node s) := by
  unfold execWavePlacement
  grind [placeWave_mem, AnswersWf]

theorem execHaltingEnd_wf (wave : Nat) {s : State} (hs : s.mem.wf = true) : AnswersWf (execHaltingEnd wave s) := by
  unfold execHaltingEnd
  grind [State.endHolding_wf, State.setNode_mem, State.settle_wf, haltWave_wf, rangeReport_wf, reportHeld_wf, AnswersWf]

theorem execGangForwardArrival_wf (task die : Nat) {s : State} (hs : s.mem.wf = true) :
    AnswersWf (execGangForwardArrival task die s) := by
  unfold execGangForwardArrival
  grind [setTw_mem, troupeRelease_mem, AnswersWf]

theorem execGangReleaseMessage_wf (task die : Nat) {s : State} (hs : s.mem.wf = true) :
    AnswersWf (execGangReleaseMessage task die s) := by
  unfold execGangReleaseMessage
  grind [troupeRelease_mem, AnswersWf]

theorem execShadowBankSwap_wf (core quad : Nat) {s : State} (hs : s.mem.wf = true) : AnswersWf (execShadowBankSwap core quad s) := by
  unfold execShadowBankSwap
  grind [bringBack_mem, exchange_wf, restamp_mem, AnswersWf]

theorem execSpill_wf (wave : Nat) {s : State} (hs : s.mem.wf = true) : AnswersWf (execSpill wave s) := by
  unfold execSpill
  grind [State.setWave_mem, rewindStreams_mem, writeSave_wf, AnswersWf]

theorem execShadowBankRearm_wf (core quad : Nat) {s : State} (hs : s.mem.wf = true) : AnswersWf (execShadowBankRearm core quad s) := by
  unfold execShadowBankRearm
  grind [setQuad_mem, AnswersWf]

theorem execRingSlotRead_wf (asid ring : Nat) {s : State} (hs : s.mem.wf = true) : AnswersWf (execRingSlotRead asid ring s) := by
  unfold execRingSlotRead
  grind [readSlot_wf, AnswersWf]

theorem execHoldCommit_wf (family : Nat) {s : State} (hs : s.mem.wf = true) : AnswersWf (execHoldCommit family s) := by
  unfold execHoldCommit
  grind [commitFam_wf, goDirect_mem, AnswersWf]

theorem execTaskRetirement_wf (asid queue : Nat) {s : State} (hs : s.mem.wf = true) : AnswersWf (execTaskRetirement asid queue s) := by
  unfold execTaskRetirement
  grind [State.settle_wf, retireNode_wf, settleVersion_wf, AnswersWf]

/-! ### The platform -/

theorem execPowerOn_wf (ecdsaOk lmsOk : Bool) (version fuses : Nat) {s : State} (hs : s.mem.wf = true) :
    AnswersWf (execPowerOn ecdsaOk lmsOk version fuses s) := by
  unfold execPowerOn
  grind [AnswersWf]

theorem execRecoveryImageLoad_wf (ecdsaOk lmsOk : Bool) (version : Nat) {s : State} (hs : s.mem.wf = true) :
    AnswersWf (execRecoveryImageLoad ecdsaOk lmsOk version s) := by
  unfold execRecoveryImageLoad
  grind [AnswersWf]

theorem execSpdmRequest_wf (index : Nat) {s : State} (hs : s.mem.wf = true) : AnswersWf (execSpdmRequest index s) := by
  unfold execSpdmRequest
  grind [AnswersWf]

theorem execHostLinkTraining_wf (speed width : Nat) {s : State} (hs : s.mem.wf = true) :
    AnswersWf (execHostLinkTraining speed width s) := by
  unfold execHostLinkTraining
  grind [AnswersWf]

theorem execPeerFlit_wf (port seq : Nat) (crcOk : Bool) (body : FlitBody) {s : State} (hs : s.mem.wf = true) :
    AnswersWf (execPeerFlit port seq crcOk body s) := by
  unfold execPeerFlit
  grind [setPort_mem, AnswersWf]

theorem execSwitchStepAbort_wf (port step : Nat) {s : State} (hs : s.mem.wf = true) : AnswersWf (execSwitchStepAbort port step s) := by
  unfold execSwitchStepAbort
  grind [setPort_mem, AnswersWf]

theorem execLinkLaneFailure_wf (port : Nat) {s : State} (hs : s.mem.wf = true) : AnswersWf (execLinkLaneFailure port s) := by
  unfold execLinkLaneFailure
  grind [setPort_mem, AnswersWf]

theorem execCoreMachineCheck_wf (core : Nat) (cause : McCause) {s : State} (hs : s.mem.wf = true) :
    AnswersWf (execCoreMachineCheck core cause s) := by
  unfold execCoreMachineCheck
  grind [checkNodes_wf, coreRecord_wf, dropCore_wf, wf_foldl, AnswersWf]

theorem execDataloss_wf (access : Nat) {s : State} (hs : s.mem.wf = true) : AnswersWf (execDataloss access s) := by
  unfold execDataloss
  grind [State.endFamily_wf, giveUp_wf, nodeRecord_wf, AnswersWf]

theorem execBankParityError_wf (stack channel pch : Nat) {s : State} (hs : s.mem.wf = true) :
    AnswersWf (execBankParityError stack channel pch s) := by
  unfold execBankParityError
  grind [State.endFamilyChecked_wf, dropPch_mem, nodeRecord_wf, AnswersWf]

theorem execChannelFailure_wf (stack channel : Nat) {s : State} (hs : s.mem.wf = true) :
    AnswersWf (execChannelFailure stack channel s) := by
  unfold execChannelFailure
  grind [State.setGroup_mem, retirePch_wf, AnswersWf]

theorem execChannelTrafficResume_wf (stack group : Nat) {s : State} (hs : s.mem.wf = true) :
    AnswersWf (execChannelTrafficResume stack group s) := by
  unfold execChannelTrafficResume
  grind [State.resumePuts_wf, State.resumeWaits_wf, State.setGroup_mem, releaseParked_mem, resumeAll_wf, wf_foldl, AnswersWf]

theorem execRebuildComplete_wf (stack group : Nat) {s : State} (hs : s.mem.wf = true) :
    AnswersWf (execRebuildComplete stack group s) := by
  unfold execRebuildComplete
  grind [State.setGroup_mem, AnswersWf]

theorem execWatchdogExpiry_wf (asid : Nat) {s : State} (hs : s.mem.wf = true) : AnswersWf (execWatchdogExpiry asid s) := by
  unfold execWatchdogExpiry
  grind [wdExpire_wf, AnswersWf]

theorem execSaveComplete_wf (asid : Nat) {s : State} (hs : s.mem.wf = true) : AnswersWf (execSaveComplete asid s) := by
  unfold execSaveComplete
  grind [State.contextEvent_wf, State.setCtx_mem, spillAll_wf, stopIfHot_mem, AnswersWf]

theorem execSaveTimeout_wf (asid : Nat) {s : State} (hs : s.mem.wf = true) : AnswersWf (execSaveTimeout asid s) := by
  unfold execSaveTimeout
  grind [State.contextEvent_wf, State.setCtx_mem, loseContext_wf, stopIfHot_mem, AnswersWf]

theorem execRestoreComplete_wf (asid : Nat) {s : State} (hs : s.mem.wf = true) : AnswersWf (execRestoreComplete asid s) := by
  unfold execRestoreComplete
  grind [State.contextEvent_wf, State.setCtx_mem, → placeCores_mem, AnswersWf]

theorem execThermalThrottle_wf {s : State} (hs : s.mem.wf = true) : AnswersWf (execThermalThrottle s) := by
  unfold execThermalThrottle
  grind [AnswersWf]

theorem execThermalShutdown_wf {s : State} (hs : s.mem.wf = true) : AnswersWf (execThermalShutdown s) := by
  unfold execThermalShutdown
  grind [stopIfHot_mem, wdExpire_wf, wf_foldl, AnswersWf]

theorem execFunctionReset_wf {s : State} (hs : s.mem.wf = true) : AnswersWf (execFunctionReset s) := by
  unfold execFunctionReset
  grind [State.freeRays_wf, functionReset_wf, AnswersWf]

/-! ### Scalar integer instructions -/

theorem execSaddx_wf (f : Fields) {s : State} (hs : s.mem.wf = true) : AnswersWf (execSaddx f s) := by
  refine issue_wf _ _ hs fun c t ht => ?_
  grind [Ctx.putScalar_mem, State.setWave_mem, Act.Wf]

/-! ### Synchronisation -/

theorem execBini_wf (f : Fields) {s : State} (hs : s.mem.wf = true) : AnswersWf (execBini f s) := by
  refine issue_wf _ _ hs fun c t ht => ?_
  grind [afterSpad_wf, setTw_mem, Act.Wf, Act.illopnd]

theorem execJoin_wf (f : Fields) {s : State} (hs : s.mem.wf = true) : AnswersWf (execJoin f s) := by
  refine issue_wf _ _ hs fun c t ht => ?_
  grind [State.setWave_mem, afterSpad_wf, setTw_mem, Act.Wf, Act.illopnd]

theorem execLeave_wf (f : Fields) {s : State} (hs : s.mem.wf = true) : AnswersWf (execLeave f s) := by
  refine issue_wf _ _ hs fun c t ht => ?_
  grind [afterSpad_wf, troupeLeave_mem, Act.Wf, Act.illopnd]

theorem execBarr_wf (f : Fields) {s : State} (hs : s.mem.wf = true) : AnswersWf (execBarr f s) := by
  refine issue_wf _ _ hs fun c t ht => ?_
  grind [arriveWait_wf]

theorem execBarw_wf (f : Fields) {s : State} (hs : s.mem.wf = true) : AnswersWf (execBarw f s) := by
  refine issue_wf _ _ hs fun c t ht => ?_
  grind [Ctx.putScalar_mem, afterSpad_wf, troupeTest_mem, → troupeArrive_mem, Act.Wf, Act.illopnd]

theorem execBwait_wf (f : Fields) {s : State} (hs : s.mem.wf = true) : AnswersWf (execBwait f s) := by
  refine issue_wf _ _ hs fun c t ht => ?_
  grind [afterSpad_wf, Act.Wf]

theorem execDrain_wf (f : Fields) {s : State} (hs : s.mem.wf = true) : AnswersWf (execDrain f s) := by
  refine issue_wf _ _ hs fun c t ht => ?_
  grind [State.setWave_mem, arriveWait_wf, withDelivery_wf, Act.Wf]

theorem execGbar_wf (f : Fields) {s : State} (hs : s.mem.wf = true) : AnswersWf (execGbar f s) := by
  refine issue_wf _ _ hs fun c t ht => ?_
  grind [arriveWait_wf, Act.Wf, Act.illopnd]

end Sys2Proof.Machine
end

section
/-! SUPPORT. The memory list stays canonical under every step. -/

namespace Sys2Proof.Machine

theorem exec_wf (i : Instr) {s : State} (hs : s.mem.wf = true) : AnswersWf (exec i s) := by
  cases i
  all_goals
    simp only [exec, hs, execMand, execMor, execMxor, execMandn, execMnot, execMmov, execMpopc, execMfirst, execSadd, execSsub, execSmul,
      execSmulh, execSdiv, execSrem, execSand, execSor, execSxor, execSshl, execSshr, execSsra, execSmin, execSmax, execScmp, execSsel,
      execSli, execSmov, execSbfe, execSbfi, execSclz, execSpopc, execVadd, execVsub, execVmul, execVmulh, execVmad, execVand, execVor,
      execVxor, execVshl, execVshr, execVsra, execVmin, execVmax, execVabs, execVcmp, execVsel, execVbfe, execVbfi, execVpopc, execVclz,
      execVmov, execDadd, execDsub, execDmul, execDfma, execDmin, execDmax, execDcmp, execDclass, execDrcpe, execDrsqe, execDldx, execDfrx,
      execDred, execFadd, execFsub, execFmul, execFfma, execFmin, execFmax, execFcmp, execFclass, execFrcp, execFrsq, execFex2, execFlg2,
      execFsin, execFcos, execFdot2, execFred, execPkd8, execUpd8, execPkt3, execUpt3, execPkf8, execUpf8, execAstr, execAstw, fpArith,
      fpFunc, fpMinMax, maskOp, siaOp, siaShift, viaOp, viaShift, issue_putScalar_wf, issue_putVec_wf, issue_putPred_wf,
      issue_putFlagged_wf, issue_putGroup_wf, bindStream_wf, fpClass_wf, fpCmp_wf, fpRed_wf, execNop_wf, execBra_wf, execBrs_wf, execBrm_wf,
      execCall_wf, execRet_wf, execJmpi_wf, execLoop_wf, execYield_wf, execPark_wf, execHalt_wf, execGetid_wf, execMlane_wf, execVote_wf,
      execSaddx_wf, execVbcast_wf, execVaddx_wf, execVshfl_wf, execVscan_wf, execCvt_wf, execCvs_wf, execMxsc_wf, execLd_wf, execLda_wf,
      execLds_wf, execPrf_wf, execAend_wf, execLdnt_wf, execSt_wf, execStl_wf, execSts_wf, execStnt_wf, execSpl_wf, execSps_wf, execSpcl_wf,
      execSpcs_wf, execSpcp_wf, execAtom_wf, execAcas_wf, execAtomf_wf, execRed_wf, execRedf_wf, execRedo_wf, execBini_wf, execBarr_wf,
      execBwait_wf, execBarw_wf, execJoin_wf, execLeave_wf, execDrain_wf, execGbar_wf, execFenceAcq_wf, execFenceRel_wf, execLwait_wf,
      execMcfg_wf, execMlds_wf, execMswp_wf, execMclr_wf, execMstr_wf, execMrd_wf, execMst_wf, execMbnd_wf, execTnew_wf, execTdep_wf,
      execTsub_wf, execTalloc_wf, execTgrow_wf, execTabortNode_wf, execTabortSelf_wf, execEcpy_wf, execEgat_wf, execEdcp_wf, execEfence_wf,
      execEwait_wf, execBkmodeAcq_wf, execBkmodeAll_wf, execBkmodeOne_wf, execBkmodeRel_wf, execBkbc_wf, execBkmac_wf, execBkop_wf,
      execBkrd_wf, execBkfnIn_wf, execBkfnOut_wf, execBred_wf, execBkst_wf, execKbind_wf, execTrace_wf, execTracec_wf, execCgetLive_wf,
      execCgetHit_wf, execCend_wf, execTex_wf, execTexn_wf, execTexg_wf, execPemit_wf, execPemitClose_wf, execAemit_wf, execVbrd_wf,
      execRpq_wf, execCcdcDec_wf, execCcdcEnc_wf, execCcfc_wf, execTrap_wf, execTret_wf, execSrd_wf, execSwr_wf, execBrk_wf, execCtime_wf,
      execHprf_wf, execHpri_wf, execHbranch_wf, execHintNop_wf, execReservedWord_wf, execKiteNld_wf, execKiteNldRoot_wf,
      execKiteNldChild_wf, execKiteBxi_wf, execKiteTxi_wf, execKitePush_wf, execKitePushTag_wf, execKitePop_wf, execKiteSrt_wf,
      execKiteCmp_wf, execKiteCmpImm_wf, execKiteBr_wf, execKiteBrn_wf, execKiteJmp_wf, execKiteJmpReg_wf, execKiteHit_wf, execKiteAcpt_wf,
      execKiteCall_wf, execKiteIxf_wf, execKiteItl_wf, execKiteMov_wf, execKiteMovImm_wf, execKiteMovN_wf, execKiteMovT_wf, execKiteAdd_wf,
      execKiteAddImm_wf, execKiteEnd_wf, execPowerOn_wf, execFunctionReset_wf, execCreate_wf, execDoorbell_wf, execReplyRelease_wf,
      execReplyEnd_wf, execReplyStep_wf, execGen_wf, execGenerationRaiseComplete_wf, execQctlResume_wf, execQctlRerun_wf, execQctlSkip_wf,
      execCtxSave_wf, execCtxRestore_wf, execCtxDestroy_wf, execCtxSlice_wf, execCtxUnslice_wf, execMigrate_wf, execMigrationComplete_wf,
      execRegisterWrite_wf, execHostWrite_wf, execHostRead_wf, execHostAtomic_wf, execSpdmRequest_wf, execPeerFlit_wf,
      execSwitchStepAbort_wf, execLinkLaneFailure_wf, execChannelFailure_wf, execChannelTrafficResume_wf, execRebuildComplete_wf,
      execDataloss_wf, execCoreMachineCheck_wf, execBankParityError_wf, execThermalThrottle_wf, execThermalShutdown_wf,
      execWatchdogExpiry_wf, execSaveComplete_wf, execSaveTimeout_wf, execRestoreComplete_wf, execParkTimeout_wf, execWaveOverdue_wf,
      execL1LeaseExpiry_wf, execClusterLineIdle_wf, execRedoOverflowMove_wf, execNodePassedOver_wf, execLongLatencyResult_wf,
      execAcknowledgement_wf, execLoadAtHome_wf, execStoreAtHome_wf, execAtomicAtPlace_wf, execRedoContribution_wf, execDeferredAtomic_wf,
      execGangForwardArrival_wf, execGangReleaseMessage_wf, execStreamFetch_wf, execStreamStore_wf, execHaltingEnd_wf,
      execShadowBankSwap_wf, execSpill_wf, execShadowBankRearm_wf, execRingSlotRead_wf, execNodeDispatch_wf, execWavePlacement_wf,
      execHoldCommit_wf, execTaskRetirement_wf, execEngineEntryStart_wf, execEngineEntryComplete_wf, execPlaneLoadComplete_wf,
      execArrayContributionApply_wf, execBankCommandPerform_wf, execBredJobStart_wf, execBredJobComplete_wf, execKiteRayTake_wf,
      execRaySuspend_wf, execContGroupClose_wf, execBinAppend_wf, execPassCloseProcess_wf, execLeaseClockTick_wf, execFunctionalUnitFree_wf,
      execArrayCommandStart_wf, execRecoveryImageLoad_wf, execHostLinkTraining_wf]

theorem runWave_wf {s : State} (w : Wave) (hs : s.mem.wf = true) : AnswersWf (runWave s w) := by
  have hf := fetch_wf w hs
  unfold runWave
  split
  · exact State.takeTrap_wf _ _ _ hs
  · exact fetchFault_wf _ _ _ hs
  · rename_i heq
    rw [heq] at hf
    exact exec_wf _ hf

theorem issueCycle_wf {s : State} (core quad : Nat) (hs : s.mem.wf = true) : AnswersWf (issueCycle s core quad) := by
  have hready : ((candidates s core quad).foldl markReady s).mem.wf = true := wf_foldl (fun _ _ ht => markReady_wf _ ht) hs
  unfold issueCycle
  dsimp only
  split
  · exact hready
  · refine runWave_wf _ ?_
    rw [State.setWave_mem]
    exact takeUnit_wf _ (mem_wf_of_eq (countWaits_mem _ _ _ _) hready)

theorem kiteTurn_wf {s : State} (rid : Nat) (hs : s.mem.wf = true) : AnswersWf (kiteTurn s rid) := by
  fun_cases kiteTurn s rid
  case case3 r _ core _ _ t hf =>
    have h := kiteFetch_wf r hs
    rwa [hf] at h
  case case4 r _ core _ _ w t hf i hdec =>
    have h := kiteFetch_wf r hs
    rw [hf] at h
    exact exec_wf i h
  case case5 r _ core _ _ w t hf _ _ =>
    have h := kiteFetch_wf r hs
    rw [hf] at h
    dsimp only [AnswersWf]
    split
    · exact endRay_wf _ _ h
    · exact h
  all_goals exact hs

theorem runAccess_wf {s : State} (id : Nat) (hs : s.mem.wf = true) : AnswersWf (runAccess s id) := by
  unfold runAccess
  grind [execAcknowledgement_wf, execDeferredAtomic_wf, execLoadAtHome_wf, execRedoContribution_wf, execAtomicAtPlace_wf,
    execStoreAtHome_wf, AnswersWf]

theorem runWork_wf (x : Work) {s : State} (hs : s.mem.wf = true) : AnswersWf (runWork x s) := by
  cases x with
  | access id => exact runAccess_wf id hs
  | stream sid =>
    unfold runWork
    dsimp only
    split
    · split
      · exact execStreamStore_wf sid hs
      · exact execStreamFetch_wf sid hs
    · exact hs
  | gang release node die =>
    cases release with
    | true => exact execGangReleaseMessage_wf node die hs
    | false => exact execGangForwardArrival_wf node die hs
  | _ =>
    simp only [runWork, hs, execLongLatencyResult_wf, execArrayCommandStart_wf, execPlaneLoadComplete_wf, execArrayContributionApply_wf,
      execBankCommandPerform_wf, execBredJobStart_wf, execBredJobComplete_wf, execEngineEntryStart_wf, execEngineEntryComplete_wf,
      execFunctionalUnitFree_wf, execParkTimeout_wf, execHaltingEnd_wf, execSpill_wf, execRedoOverflowMove_wf, execClusterLineIdle_wf,
      execL1LeaseExpiry_wf, execKiteRayTake_wf, execRaySuspend_wf, execContGroupClose_wf, execBinAppend_wf, execPassCloseProcess_wf,
      execShadowBankSwap_wf, execShadowBankRearm_wf, execNodePassedOver_wf, execNodeDispatch_wf, execWavePlacement_wf, execHoldCommit_wf,
      execRingSlotRead_wf, execTaskRetirement_wf, execGenerationRaiseComplete_wf, execMigrationComplete_wf, execSaveComplete_wf,
      execSaveTimeout_wf, execRestoreComplete_wf, execWatchdogExpiry_wf]

theorem runTurn_wf (t : Turn) {s : State} (hs : s.mem.wf = true) : AnswersWf (runTurn t s) := by
  cases t with
  | issue core quad => exact issueCycle_wf core quad hs
  | kite rid => exact kiteTurn_wf rid hs
  | event i => exact exec_wf i hs
  | work x => exact runWork_wf x hs
  | tick => exact execLeaseClockTick_wf hs

theorem step_wf {s : State} (hs : s.mem.wf = true) : AnswersWf (step s) :=
  runTurn_wf _ hs

end Sys2Proof.Machine

namespace Sys2Proof.Claims

open Sys2Proof.Machine

/-- Settles O49, by `step_wf`: each turn of the machine ends in an answer whose memory is canonical where it was before. -/
theorem everyStepKeepsMemoryCanonical : Obligations.EveryStepKeepsMemoryCanonical := by
  unfold Obligations.EveryStepKeepsMemoryCanonical
  intro s t hs ht
  have h := step_wf hs
  rw [ht] at h
  exact h

end Sys2Proof.Claims
end

section
/-! SUPPORT. Atomics: the one body that they share issues their lanes where nothing stops it (R206). -/

namespace Sys2Proof.Claims

open Sys2Proof.Machine

/-- An atomic with nothing to stop it issues its lanes: those in range of a scratchpad in `.troupe` scope (R199), and otherwise all,
as none of them fails R171. -/
theorem atomLanes_of_atomClear {c : Ctx} {s : State} {kind : AccKind} {wide ret redo : Bool} {off : Int}
    (h : atomClear c s wide redo (atomAddr c off)) :
    atomLanes c s kind wide ret redo off = .done (atomed c s kind wide ret (atomAddr c off)) := by
  obtain ⟨hdet, hclear, hroom⟩ := h
  by_cases hscope : c.f.m 5 3 = 1
  · simp only [atomMask, hscope, beq_self_eq_true, if_true] at hroom
    simp only [atomLanes, atomed, atomMask, hscope, hroom, beq_self_eq_true, bne_self_eq_false, Bool.false_and, Bool.false_eq_true,
      if_true, if_false]
    rfl
  · obtain ⟨hmatch, hfail⟩ := hclear.resolve_left hscope
    have hmatch : dataMatch s c true true (atomSize wide) (atomAddr c off) = none := hmatch
    have hdet : (c.det && !redo) = false := by
      obtain hredo | hdet := hdet.resolve_left hscope
      · simp [hredo]
      · simp [hdet]
    have hscope : (c.f.m 5 3 == 1) = false := beq_eq_false_iff_ne.2 hscope
    simp only [atomMask, hscope, Bool.false_eq_true, if_false] at hroom
    simp only [atomLanes, atomed, atomMask, hscope, hmatch, hfail, hroom, hdet, and_not_zero, bne, beq_self_eq_true, Bool.not_true,
      Bool.not_false, Bool.true_and, Bool.false_eq_true, if_false] <;> rfl

/-- An instruction whose body is that of an atomic issues its lanes where nothing stops it. -/
theorem atomics_of {i : Fields → Instr} {kind : Fields → AccKind} {wide : Fields → Bool} {ret redo : Bool} {off : Fields → Int}
    (h : ∀ f s, exec (i f) s = issue (i f) f s fun c s => atomLanes c s (kind f) (wide f) ret redo (off f)) :
    Atomics i (fun c => kind c.f) (fun c => wide c.f) ret redo fun c => off c.f :=
  completes_of h fun _ _ => atomLanes_of_atomClear

/-- Settles O22: the six atomics share `atomLanes`, and each gives it its own operation, width, result and offset. -/
theorem atomicsIssueTheirLanes : Obligations.AtomicsIssueTheirLanes := by
  unfold Obligations.AtomicsIssueTheirLanes
  refine ⟨?atom, ?red, ?acas, ?atomf, ?redf, ?redo⟩
  case atom => exact atomics_of (kind := fun f => .atom (f.e 24 21) (f.m 1 1 == 1) true) (wide := fun f => f.m 2 2 == 1) fun _ _ => rfl
  case red => exact atomics_of (kind := fun f => .atom (f.e 24 21) (f.m 1 1 == 1) false) (wide := fun f => f.m 2 2 == 1) fun _ _ => rfl
  case acas => exact atomics_of (kind := fun _ => .cas) (wide := fun f => f.m 2 2 == 1) (off := fun _ => 0) fun _ _ => rfl
  case atomf => exact atomics_of (kind := fun f => .atomf (f.e 24 21) (f.m 2 1) true) (wide := fun f => f.m 2 1 == 1) fun _ _ => rfl
  case redf => exact atomics_of (kind := fun f => .atomf (f.e 24 21) (f.m 2 1) false) (wide := fun f => f.m 2 1 == 1) fun _ _ => rfl
  case redo => exact atomics_of (kind := fun f => .redo (f.m 2 1 == 1)) (wide := fun f => f.m 2 1 == 1) fun _ _ => rfl

end Sys2Proof.Claims
end

section
/-! SUPPORT. Troupe instructions (R222 to R228): what a step on the word answers before and after the wave's scratchpad accesses are
performed, and the arrival that `barr`, `drain` and `gbar` share. -/

namespace Sys2Proof.Machine

/-! ### Waiting for the scratchpad (R200, R231) -/

/-- Once the wave's scratchpad accesses are performed, a step on the word is taken. -/
theorem afterSpad_of_performed {c : Ctx} {s : State} (body : Act) (h : spadPending s c.w = false) : afterSpad c s body = body := by
  simp only [afterSpad, h, Bool.false_eq_true, if_false]

/-- While one is left, the step waits. -/
theorem afterSpad_of_pending {c : Ctx} {s : State} (body : Act) (h : spadPending s c.w = true) : afterSpad c s body = .wait := if_pos h

/-! ### Arrivals (R225) -/

/-- An open phase of one kind admits no arrival of the other. -/
theorem troupeArrive_of_mismatch {s : State} {node : Nat} {r : TroupeRef} {kind : Bool} (hopen : 0 < (getTw s node r).arrived)
    (hkind : (getTw s node r).kind = !kind) : troupeArrive s node r kind = none := by
  have hne : (getTw s node r).kind ≠ kind := by simp [hkind]
  exact if_pos (by simp [hopen, hne])

/-- The state after a wave has arrived in phase ph and waits for its release, where u is the state after the arrival: the completion
test comes after the wait is entered, so that the last member's own wait ends at once. -/
def awaitRelease (c : Ctx) (u : State) (r : TroupeRef) (ph : Nat) : State :=
  let v := popAll u c.w c.m c.pops
  afterStep (troupeTest (v.setWave { retire (c.wave v) with pc := (c.wave v).pc + 12, st := .barrier (.release ph) }) c.w.node r) c.w.wid

/-- A wave of no troupe passes. -/
theorem arriveWait_of_no_troupe {c : Ctx} {s : State} {kind : Bool} (h : c.w.troupe = none) : arriveWait c s kind = .done s := by
  simp only [arriveWait, h]

/-- An arrival waits for the wave's scratchpad accesses. -/
theorem arriveWait_of_pending {c : Ctx} {s : State} {kind : Bool} {r : TroupeRef} (hr : c.w.troupe = some r)
    (hpad : spadPending s c.w = true) : arriveWait c s kind = .wait := by
  simp only [arriveWait, hr, afterSpad_of_pending _ hpad]

/-- An arrival that the word admits enters its wait. -/
theorem arriveWait_of_arrives {c : Ctx} {s u : State} {kind : Bool} {r : TroupeRef} {ph : Nat} (hr : c.w.troupe = some r)
    (hpad : spadPending s c.w = false) (harrive : troupeArrive s c.w.node r kind = some (ph, u)) :
    arriveWait c s kind = .final (awaitRelease c u r ph) := by
  simp only [arriveWait, hr, afterSpad_of_performed _ hpad, harrive, awaitRelease]

/-- An arrival of another kind than the open phase's is illegal. -/
theorem arriveWait_of_mismatch {c : Ctx} {s : State} {kind : Bool} {r : TroupeRef} (hr : c.w.troupe = some r)
    (hpad : spadPending s c.w = false) (hopen : 0 < (getTw s c.w.node r).arrived) (hkind : (getTw s c.w.node r).kind = !kind) :
    arriveWait c s kind = .illopnd := by
  simp only [arriveWait, hr, afterSpad_of_performed _ hpad, troupeArrive_of_mismatch hopen hkind]

/-! ### Deferred faults (R116) -/

/-- An instruction that delivers every deferred fault does what its body says where its wave has none. -/
theorem withDelivery_of_noDeferred {c : Ctx} {s : State} (body : Act) (h : Claims.NoDeferred c s) :
    withDelivery c s true true body = body := by
  obtain ⟨hagain, harray, hbank⟩ := h
  simp [withDelivery, deliver, hagain, harray, hbank]

end Sys2Proof.Machine

namespace Sys2Proof.Claims

open Sys2Proof.Machine

/-- An instruction whose body enters a scheduling state rests in it. -/
theorem rests_of {i : Fields → Instr} {cond : Ctx → State → Prop} {st : Ctx → State → WSt} {body : Fields → Ctx → State → Act}
    (h1 : ∀ f s, exec (i f) s = issue (i f) f s (body f)) (h2 : ∀ c s, cond c s → body c.f c s = .rest s (st c s)) :
    Rests i cond st := by
  intro f s c h hc
  obtain rfl := ready_f h
  rw [h1, issue_ready h, h2 c _ hc]

/-- An instruction whose body sets the wave's state itself leaves the state that it names. -/
theorem exec_of_final {i : Fields → Instr} {f : Fields} {s t : State} {c : Ctx} {body : Ctx → State → Act}
    (h1 : exec (i f) s = issue (i f) f s body) (h : ready (i f) f s = some c) (h2 : body c (start s) = .final t) :
    exec (i f) s = .next t := by
  rw [h1, issue_ready h, h2]
  rfl

/-- An instruction that acts on the word of its wave's troupe waits where its body does. -/
theorem blocks_of_member {i : Fields → Instr} {body : Fields → Ctx → State → Act}
    (h1 : ∀ f s, exec (i f) s = issue (i f) f s (body f))
    (h2 : ∀ c s r, c.w.troupe = some r → spadPending s c.w = true → body c.f c s = .wait) :
    Blocks i (fun c s => c.w.troupe ≠ none ∧ spadPending s c.w = true) :=
  blocks_of h1 fun c s ⟨htroupe, hpad⟩ =>
    have ⟨r, hr⟩ := Option.ne_none_iff_exists'.1 htroupe
    h2 c s r hr hpad

/-- Settles O23: `barr`, `drain` and `gbar` share `arriveWait`; the others read the word themselves once `afterSpad` lets them. -/
theorem troupeInstructionsActOnTheirWord : Obligations.TroupeInstructionsActOnTheirWord := by
  unfold Obligations.TroupeInstructionsActOnTheirWord
  refine ⟨fun r => ?bini, fun r => ?join, ?leaveAlone, fun r => ?leave, ?barrAlone, fun r ph u => ?barr, ?barwAlone, fun r ph u => ?barw
    , ?bwaitAlone, fun r => ?bwaitPast, fun r => ?bwaitRests, ?drainPast, fun r ph u => ?drain, ?drainWaits, fun r ph u => ?gbar
    , ?gbarTraps, ?biniRange, fun r => ?biniUsed, ?joinRange, fun r => ?joinTraps, fun r => ?leaveTraps, ?barrKind, fun r => ?gbarKind
    , fun r => ?drainKind, ?wordBlocks, ?memberBlocks⟩
  case bini =>
    refine completes_of (fun f s => show _ = execBini f s from rfl) fun c s ⟨hpad, hword, hfree⟩ => ?_
    have hfree : ((getTw s c.w.node r).init && (getTw s c.w.node r).members != 0) = false := by
      obtain hinit | hmembers := hfree
      · simp [hinit]
      · simp [hmembers]
    simp only [afterSpad_of_performed _ hpad, hword, hfree, Bool.false_eq_true, if_false]
  case join =>
    refine completes_of (fun f s => show _ = execJoin f s from rfl) fun c s ⟨hpad, hword, halone, hinit, hgang⟩ => ?_
    simp only [afterSpad_of_performed _ hpad, hword, halone, hinit, hgang, Option.isSome_none, Bool.not_true, Bool.or_self,
      Bool.false_eq_true, if_false]
  case leaveAlone => exact completes_of (fun f s => show _ = execLeave f s from rfl) fun c s halone => by simp only [halone]
  case leave =>
    refine completes_of (fun f s => show _ = execLeave f s from rfl) fun c s ⟨hr, hpad, hgang⟩ => ?_
    simp only [hr, afterSpad_of_performed _ hpad, hgang, Bool.false_eq_true, if_false]
  case barrAlone => exact completes_of (fun f s => show _ = execBarr f s from rfl) fun _ _ => arriveWait_of_no_troupe
  case barr => exact fun f s c h hr hpad ha => exec_of_final (show _ = execBarr f s from rfl) h (arriveWait_of_arrives hr hpad ha)
  case barwAlone => exact completes_of (fun f s => show _ = execBarw f s from rfl) fun c s halone => by simp only [halone]
  case barw =>
    refine completes_of (fun f s => show _ = execBarw f s from rfl) fun c s ⟨hr, hpad, harrive⟩ => ?_
    simp only [hr, afterSpad_of_performed _ hpad, harrive]
  case bwaitAlone => exact completes_of (fun f s => show _ = execBwait f s from rfl) fun c s halone => by simp only [halone]
  case bwaitPast =>
    refine completes_of (fun f s => show _ = execBwait f s from rfl) fun c s ⟨hr, hpad, hphase⟩ => ?_
    simp only [hr, afterSpad_of_performed _ hpad, bne_iff_ne, ne_eq, hphase, not_false_eq_true, if_true]
  case bwaitRests =>
    refine rests_of (fun f s => show _ = execBwait f s from rfl) fun c s ⟨hr, hpad, hphase⟩ => ?_
    simp only [hr, afterSpad_of_performed _ hpad, hphase, bne_self_eq_false, Bool.false_eq_true, if_false]
  case drainPast =>
    refine completes_of (fun f s => show _ = execDrain f s from rfl) fun c s ⟨hdef, hcount, hpass⟩ => ?_
    simp only [withDelivery_of_noDeferred _ hdef, hcount, beq_self_eq_true, if_true]
    obtain hpass | halone := hpass
    · simp only [hpass, beq_self_eq_true, if_true]
    · simp only [arriveWait_of_no_troupe halone, ite_self]
  case drain =>
    intro f s c h hdef hcount hmode hr hpad harrive
    refine exec_of_final (show _ = execDrain f s from rfl) h ?_
    simp only [withDelivery_of_noDeferred _ hdef, hcount, hmode, arriveWait_of_arrives hr hpad harrive, beq_self_eq_true, if_true]
    rfl
  case drainWaits =>
    intro f s c h hdef hcount
    refine exec_of_final (show _ = execDrain f s from rfl) h ?_
    simp only [withDelivery_of_noDeferred _ hdef, beq_eq_false_iff_ne.2 hcount, Bool.false_eq_true, if_false]
  case gbar =>
    intro f s c h hgang hr hpad harrive
    exact exec_of_final (show _ = execGbar f s from rfl) h ((if_pos hgang).trans (arriveWait_of_arrives hr hpad harrive))
  case gbarTraps => exact traps_of (fun f s => show _ = execGbar f s from rfl) fun _ _ hgang => if_neg (Bool.eq_false_iff.1 hgang)
  case biniRange =>
    refine traps_of (fun f s => show _ = execBini f s from rfl) fun c s ⟨hpad, hword⟩ => ?_
    simp only [afterSpad_of_performed _ hpad, hword, Act.illopnd]
  case biniUsed =>
    refine traps_of (fun f s => show _ = execBini f s from rfl) fun c s ⟨hpad, hword, hinit, hmembers⟩ => ?_
    simp only [afterSpad_of_performed _ hpad, hword, hinit, bne_iff_ne.2 hmembers, Bool.and_self, if_true, Act.illopnd]
  case joinRange =>
    refine traps_of (fun f s => show _ = execJoin f s from rfl) fun c s ⟨hpad, hword⟩ => ?_
    simp only [afterSpad_of_performed _ hpad, hword, Act.illopnd]
  case joinTraps =>
    refine traps_of (fun f s => show _ = execJoin f s from rfl) fun c s ⟨hpad, hword, hbad⟩ => ?_
    have hbad : (c.w.troupe.isSome || !(getTw s c.w.node r).init || (getTw s c.w.node r).gang) = true := by
      simpa only [Bool.or_eq_true, Bool.not_eq_true', Option.isSome_iff_ne_none, or_assoc] using hbad
    simp only [afterSpad_of_performed _ hpad, hword, hbad, if_true, Act.illopnd]
  case leaveTraps =>
    refine traps_of (fun f s => show _ = execLeave f s from rfl) fun c s ⟨hr, hpad, hgang⟩ => ?_
    simp only [hr, afterSpad_of_performed _ hpad, hgang, if_true, Act.illopnd]
  case barrKind =>
    rintro i (rfl | rfl) r
    · exact traps_of (fun f s => show _ = execBarr f s from rfl) fun c s ⟨hr, hpad, hopen, hkind⟩ =>
        arriveWait_of_mismatch hr hpad hopen hkind
    · refine traps_of (fun f s => show _ = execBarw f s from rfl) fun c s ⟨hr, hpad, hopen, hkind⟩ => ?_
      simp only [hr, afterSpad_of_performed _ hpad, troupeArrive_of_mismatch (kind := false) hopen hkind, Act.illopnd]
  case gbarKind =>
    exact traps_of (fun f s => show _ = execGbar f s from rfl) fun c s ⟨hgang, hr, hpad, hopen, hkind⟩ =>
      (if_pos hgang).trans (arriveWait_of_mismatch hr hpad hopen hkind)
  case drainKind =>
    refine traps_of (fun f s => show _ = execDrain f s from rfl) fun c s ⟨hdef, hcount, hmode, hr, hpad, hopen, hkind⟩ => ?_
    simp only [withDelivery_of_noDeferred _ hdef, hcount, hmode, arriveWait_of_mismatch (kind := false) hr hpad hopen hkind,
      beq_self_eq_true, if_true]
    rfl
  case wordBlocks =>
    rintro i (rfl | rfl)
    · exact blocks_of (fun f s => show _ = execBini f s from rfl) fun _ _ hpad => afterSpad_of_pending _ hpad
    · exact blocks_of (fun f s => show _ = execJoin f s from rfl) fun _ _ hpad => afterSpad_of_pending _ hpad
  case memberBlocks =>
    rintro i (rfl | rfl | rfl | rfl)
    · exact blocks_of_member (fun f s => show _ = execLeave f s from rfl) fun c s r hr hpad => by
        simp only [hr, afterSpad_of_pending _ hpad]
    · exact blocks_of_member (fun f s => show _ = execBarr f s from rfl) fun _ _ _ => arriveWait_of_pending
    · exact blocks_of_member (fun f s => show _ = execBarw f s from rfl) fun c s r hr hpad => by
        simp only [hr, afterSpad_of_pending _ hpad]
    · exact blocks_of_member (fun f s => show _ = execBwait f s from rfl) fun c s r hr hpad => by
        simp only [hr, afterSpad_of_pending _ hpad]

end Sys2Proof.Claims
end

section
/-! SUPPORT. Fences (O24): what each waits for, as one fact about its wave's accesses; and the reset state (O48). -/

namespace Sys2Proof.Machine

/-- Every earlier load has returned where none of the wave's landings is a load (R243). -/
theorem loadsReturned_iff {s : State} {wid : Nat} : loadsReturned s wid = true ↔ (s.lands.all fun l => l.wid != wid || !l.load) = true := by
  simp [loadsReturned, imp_iff_not_or]

/-- A release of `.wave` or `.troupe` scope, scope 1, waits for the wave's loads and its scratchpad accesses (R244). -/
theorem releaseReady_spad (s : State) (w : Wave) : releaseReady s w 1 = (loadsReturned s w.wid && !spadOutstanding s w) := rfl

/-- A release of a wider scope waits for the wave's loads, for its outstanding count and for the clock to pass its release mark (R244). -/
theorem releaseReady_wide {s : State} {w : Wave} {scope : Nat} (h : scope ≠ 1) :
    releaseReady s w scope = (loadsReturned s w.wid && (w.outst == 0 && decide (s.ns ≥ w.relMark + 2))) := by
  simp only [releaseReady, beq_eq_false_iff_ne.2 h, Bool.false_eq_true, if_false]

end Sys2Proof.Machine

namespace Sys2Proof.Claims

open Sys2Proof.Machine

/-- A release completes where it is ready, and the posted writes land with the flushing reads of `.system` scope (R244). -/
theorem fenceRel_completes {cond : Ctx → State → Prop} {eff : Ctx → State → State}
    (hready : ∀ c s, cond c s → NoDeferred c s ∧ releaseReady s c.w (c.f.m 5 3) = true)
    (heff : ∀ c s, cond c s → eff c s = if c.f.m 5 3 = 4 then s.landPorts else s) : Completes .fenceRel cond eff := by
  refine completes_of (fun f s => show _ = execFenceRel f s from rfl) fun c s h => ?_
  obtain ⟨hdef, hrel⟩ := hready c s h
  rw [withDelivery_of_noDeferred _ hdef, if_pos hrel, heff c s h]
  simp only [beq_iff_eq]

/-- A release that is not ready waits. -/
theorem fenceRel_blocks {cond : Ctx → State → Prop}
    (hready : ∀ c s, cond c s → NoDeferred c s ∧ releaseReady s c.w (c.f.m 5 3) = false) : Blocks .fenceRel cond := by
  refine blocks_of (fun f s => show _ = execFenceRel f s from rfl) fun c s h => ?_
  obtain ⟨hdef, hrel⟩ := hready c s h
  rw [withDelivery_of_noDeferred _ hdef, if_neg (Bool.eq_false_iff.1 hrel)]

/-- Settles O24: a fence completes where its conditions hold (`loadsReturned_iff`, `releaseReady_spad`, `releaseReady_wide`) and waits
where one fails. -/
theorem fencesWaitForTheirConditions : Obligations.FencesWaitForTheirConditions := by
  unfold Obligations.FencesWaitForTheirConditions
  refine ⟨?acq, ?acqWaits, ?wide, ?wideWaits, ?spad, ?spadWaits, ?lwait, ?lwaitWaits⟩
  case acq =>
    refine completes_of (fun f s => show _ = execFenceAcq f s from rfl) fun c s ⟨hdef, hloads⟩ => ?_
    rw [withDelivery_of_noDeferred _ hdef, if_pos (loadsReturned_iff.2 hloads)]
  case acqWaits =>
    refine blocks_of (fun f s => show _ = execFenceAcq f s from rfl) fun c s ⟨hdef, hload⟩ => ?_
    rw [withDelivery_of_noDeferred _ hdef, if_neg (by simp [loadsReturned, hload])]
  case wide =>
    refine fenceRel_completes (fun c s ⟨hdef, hscope, hloads, houtst, hmark⟩ => ⟨hdef, ?_⟩) fun _ _ _ => rfl
    simp [releaseReady_wide hscope, hloads, houtst, hmark]
  case wideWaits =>
    refine fenceRel_blocks fun c s ⟨hdef, hscope, hleft⟩ => ⟨hdef, ?_⟩
    rw [releaseReady_wide hscope]
    obtain hloads | houtst | hmark := hleft
    · simp [hloads]
    · simp [houtst]
    · simp [hmark]
  case spad =>
    refine fenceRel_completes (fun c s ⟨hdef, hscope, hloads, hspad⟩ => ⟨hdef, ?_⟩) fun c s ⟨_, hscope, _⟩ => by simp [hscope]
    simp [hscope, releaseReady_spad, hloads, hspad]
  case spadWaits =>
    refine fenceRel_blocks fun c s ⟨hdef, hscope, hleft⟩ => ⟨hdef, ?_⟩
    rw [hscope, releaseReady_spad]
    obtain hloads | hspad := hleft
    · simp [hloads]
    · simp [hspad]
  case lwait => exact completes_of (fun f s => show _ = execLwait f s from rfl) fun _ _ hmark => if_pos hmark
  case lwaitWaits => exact blocks_of (fun f s => show _ = execLwait f s from rfl) fun _ _ hmark => if_neg (Nat.not_le.2 hmark)

/-- Settles O48: `State.reset` gives every field its default, and its memory lists nothing. -/
theorem resetLeavesTheMachineIdle : Obligations.ResetLeavesTheMachineIdle := by
  unfold Obligations.ResetLeavesTheMachineIdle
  refine ⟨rfl, rfl, rfl, rfl, rfl, rfl, rfl, rfl, rfl, rfl, rfl, rfl, rfl, rfl, rfl, rfl, rfl, rfl, rfl, rfl, rfl, Memory.nil_wf, fun _ => rfl⟩

end Sys2Proof.Claims
end

section
/-! SUPPORT. Rays, continuation groups, bins and passes (O43): one equation for each case in which an event is due. -/

namespace Sys2Proof.Machine

/-! ### Sorting -/

/-- Insertion and sorting permute. -/
theorem insertBy_perm {α : Type} (le : α → α → Bool) (x : α) (l : List α) : (insertBy le x l).Perm (x :: l) := by
  induction l with
  | nil => rfl
  | cons y l ih =>
    unfold insertBy
    split
    · rfl
    · exact (ih.cons y).trans (.swap x y l)

theorem sortBy_perm {α : Type} (le : α → α → Bool) (l : List α) : (sortBy le l).Perm l := by
  induction l with
  | nil => rfl
  | cons x l ih => exact (insertBy_perm le x _).trans (ih.cons x)

/-! ### Rays (R387, R393 to R396) -/

/-- A ray whose records software has not written stands as it is. -/
theorem recordOf_of_not_spoiled {s : State} {r : Ray} (h : raySpoiled s r = false) : recordOf s r = (r, s) := by
  rw [recordOf, if_neg (Bool.eq_false_iff.1 h)]

/-- A Kite with room takes a ray that may go to it, with what its record holds. -/
theorem execKiteRayTake_of_room {s : State} {core asid num : Nat} {r : Ray} (hr : s.rayNum? asid num = some r)
    (htake : mayTake s r core = true) (hroom : (kiteLoad s core).length < 256) : execKiteRayTake core asid num s =
      .next (({ (recordOf s r).2 with nextId := (recordOf s r).2.nextId + 1 } : State).setRay
        { (recordOf s r).1 with place := .kite core, age := (recordOf s r).2.nextId }) := by
  have hc : (mayTake s r core && decide ((kiteLoad s core).length < kiteCap)) = true := by simp [htake, kiteCap, hroom]
  simp only [execKiteRayTake, hr, hc, if_true]
  rfl

theorem execRaySuspend_of_due {s : State} {asid num core : Nat} {r : Ray} (hr : s.rayNum? asid num = some r)
    (hplace : r.place = .kite core) (hdue : mustSuspend s r core = true) : execRaySuspend asid num s = .next (suspendRay s r .queued) := by
  simp only [execRaySuspend, hr, hplace, hdue, if_true]

/-- The records of a group are the ended rays of its owner that resume at its address. -/
theorem mem_readyGroup {s : State} {asid owner : Nat} {cont : Word64} {r : Ray} :
    r ∈ readyGroup s asid owner cont ↔ r ∈ s.rays ∧ r.asid = asid ∧ r.owner = owner ∧ r.place = .ended ∧ r.cont = cont := by
  rw [readyGroup, (sortBy_perm _ _).mem_iff, List.mem_filter]
  simp only [Bool.and_eq_true, beq_iff_eq, and_assoc]

theorem execContGroupClose_of_due {s : State} {asid owner : Nat} {cont : Word64} {o : Node} (ho : s.node? owner = some o)
    (hne : readyGroup s asid owner cont ≠ []) (hdue : groupDue s asid owner (readyGroup s asid owner cont) = true) :
    execContGroupClose asid owner cont s = .next (closeGroup s o cont (readyGroup s asid owner cont)) := by
  simp [execContGroupClose, ho, hne, hdue]

/-! ### Bins and passes (R414, R416) -/

theorem execBinAppend_of_room {s : State} {id : Nat} {x : Append} {p : Pass} (hx : (s.appends.find? fun x => x.id == id) = some x)
    (hp : s.livePass x.asid x.desc = some p) (hheld : p.held = false) (hpark : s.anyParked = false)
    (hroom : binLen p x.tile < pdBinCap p.bytes) : execBinAppend id s = .next (passDone p.since (appendBin x s)) := by
  simp [execBinAppend, hx, hp, hheld, hpark, Nat.not_le.2 hroom]

/-- The flag ends its pass (R416 step 6). -/
theorem notMem_of_flagPass {p : Pass} {status : Nat} {s t : State} (h : flagPass p status s = .ok t) : ∀ q ∈ t.passes, q.since ≠ p.since := by
  simp only [flagPass, bind, Except.bind] at h
  split at h
  · cases h
  · cases h
    intro q hq
    simpa using (List.mem_filter.1 hq).2

/-- Nothing of a pass is left to count repeats for once its flag is written. -/
theorem passDone_flagPass {p : Pass} {status : Nat} {s t : State} (h : flagPass p status s = .ok t) :
    passDone p.since (flagPass p status s) = t := by
  have hnone : t.passNo p.since = none := by
    rw [State.passNo, List.find?_eq_none]
    exact fun q hq => by simpa using notMem_of_flagPass h q hq
  rw [h]
  simp only [passDone, hnone]

theorem execPassCloseProcess_eq {s : State} {asid desc : Nat} {p : Pass} (hp : s.closedPass asid desc = some p) (hpark : s.anyParked = false) :
    execPassCloseProcess asid desc s = .next (closeWork p s) := by
  simp [execPassCloseProcess, hp, hpark]

end Sys2Proof.Machine

namespace Sys2Proof.Claims

open Sys2Proof.Machine

/-- Settles O43: each event by the equation of the case in which it is due. -/
theorem raysAndPassesAdvance : Obligations.RaysAndPassesAdvance := by
  unfold Obligations.RaysAndPassesAdvance
  refine ⟨?take, fun _ _ => recordOf_of_not_spoiled, ?suspend, ?group, fun _ _ _ _ _ => mem_readyGroup, ?append, ?close, ?flag
    , fun _ _ _ _ => notMem_of_flagPass⟩
  case take => exact fun _ _ _ _ _ => execKiteRayTake_of_room
  case suspend => exact fun _ _ _ _ _ => execRaySuspend_of_due
  case group => exact fun _ _ _ _ _ => execContGroupClose_of_due
  case append => exact fun _ _ _ _ => execBinAppend_of_room
  case close =>
    intro asid desc s p t gw status hp hpark hst hbinned hclose
    refine (execPassCloseProcess_eq hp hpark).trans ?_
    simp only [closeWork, hst, hbinned, if_true, closeStep, hclose]
  case flag =>
    intro asid desc s p status gw t hp hpark hst hdue hflag
    refine (execPassCloseProcess_eq hp hpark).trans ?_
    simp only [closeWork, hst, ge_iff_le, hdue, if_true, passDone_flagPass hflag]

end Sys2Proof.Claims
end

section
/-! SUPPORT. A row that an array applies after a release (O41): the counter of repeated faults starts again at 0, which the claim's next
state leaves out. -/

namespace Sys2Proof.Claims

open Sys2Proof.Machine

/-- A stream of two rows from a queue, in its first pass. -/
def twoRows : ArrCmd := { id := 3, wid := 2, pc := 0, cfg := 0x18841, op := .str false 0 0 2 0 0 (some 4) none, started := true }

/-- The array that has it at its head, once a reply has released it from a fault of the queue: the fault is cleared, and the counter of
repeated faults kept (R173, R296, `resumeArray`). -/
def releasedArray : ArrayBank :=
  { core := 0, quad := 0, bank := 0, holder := 0, grant := 1, active := { loaded := true, bf := 4, s := 2 }, queue := [twoRows], again := true
    count := 1 }

/-- The queue that the rows come from, with some entries. -/
def rowQueueOf (l : List QEntry) : Stream :=
  { sid := 4, wid := 2, qn := 0, write := false, sp := false, ty := 4, base := 0, dims := [], total := 64, next := 64, entries := l }

/-- The released array with the bytes of the first row in its queue. -/
def rowReleased : State :=
  { placeWord .reset [] with arrays := [releasedArray], streams := [rowQueueOf (List.replicate 2 { vals := List.replicate 32 0 })] }

/-- The same once the row is popped. -/
def rowPopped : State := { rowReleased with streams := [rowQueueOf []] }

/-- The row that a source gives, if it gives one. -/
def rowGiven : RowIn → Option (List Byte × List Byte × ArrCmd × State)
  | .row bs sc h s => some (bs, sc, h, s)
  | _ => none

theorem eq_row_of_rowGiven {x : RowIn} {bs sc : List Byte} {h : ArrCmd} {s : State} (hx : rowGiven x = some (bs, sc, h, s)) :
    x = .row bs sc h s := by
  cases x with
  | row => cases hx; rfl
  | wait | stop => cases hx

theorem nextRow_rowReleased : nextRow rowReleased (placedWave .reset) (arrCfg twoRows.cfg) twoRows =
    .row (List.replicate 256 0) [] twoRows rowPopped := eq_row_of_rowGiven (by decide +kernel)

/-- The counter of repeated faults of the array of quadrant a of core 0 after an outcome. -/
def repeatsAfter : Host.Outcome State Fault Refusal → Option Nat
  | .next t => (t.array? 0 0 0).map (·.count)
  | _ => none

/-- The row is applied, and with it the counter is 0 (`streamRow`). -/
theorem repeatsAfter_rowReleased : repeatsAfter (exec (.arrayContributionApply 0 0 0) rowReleased) = some 0 := by decide +kernel

/-- Refutes O41: its clause on a row applied in the first pass gives the next state with the array's counter of repeated faults as it was;
in `rowReleased` it was 1, and the row sets it to 0 (`repeatsAfter_rowReleased`). -/
theorem not_unitsPerformTheirCommands : ¬ Obligations.UnitsPerformTheirCommands := by
  unfold Obligations.UnitsPerformTheirCommands
  rintro ⟨-, -, -, happly, -⟩
  obtain ⟨-, hfirst, -⟩ := happly 0 0 0 rowReleased releasedArray twoRows [] (placedWave .reset) false 0 0 2 0 0 (some 4) none rfl rfl rfl rfl rfl
    rfl rfl (by decide +kernel) rfl (by decide +kernel) rfl
  have hcount := repeatsAfter_rowReleased.symm.trans (congrArg repeatsAfter (hfirst _ _ _ _ rfl nextRow_rowReleased))
  exact absurd hcount (by decide +kernel)

end Sys2Proof.Claims
end

section
/-! SUPPORT. Registers of BAR0 (O44): where a write is performed, and which register an offset of a context page is. -/

namespace Sys2Proof.Machine

/-! ### Performing a write (R443, R444, R461) -/

section
variable {s : State} {off v : Nat}

/-- A write that makes the part read no memory, or that no parked group holds back, is performed. -/
theorem barWrite_of_performed (h : readsMemory off = false ∨ (s.plat.groups.any fun g => g.parked) = false) :
    barWrite s off v = barPerform s off v := by
  have hc : (readsMemory off && s.plat.fwRunning && !s.plat.stopped && s.plat.groups.any fun g => g.parked) = false := by
    obtain h | h := h <;> simp [h]
  rw [barWrite, hc]
  rfl

/-- Registers take no write before firmware runs, nor once the part has stopped. -/
theorem barWrite_of_not_running (h : s.plat.fwRunning = false ∨ s.plat.stopped = true) : barWrite s off v = s := by
  obtain h | h := h <;> simp [barWrite, barPerform, h]

end

/-! ### The registers of a context page (R444) -/

/-- An offset of a context page is no register of the part's own, and tells the context and its register. -/
theorem pageReg_spec (asid : Nat) {o : Nat} (ho : o < 0x1000) :
    pageReg asid o ≠ 0 ∧ pageReg asid o ≠ 0x10 ∧ pageReg asid o ≠ 0x18 ∧ 0x10000 ≤ pageReg asid o ∧ pageReg asid o < 0x1010000
      ∧ (pageReg asid o - 0x10000) / 0x1000 = asid % 4096 ∧ pageReg asid o % 0x1000 = o := by
  unfold pageReg
  omega

/-- What operation op of QCTL does to a queue, with an index (R453). -/
def queueControl (s : State) (asid q i : Nat) : Nat → State
  | 0 => queueResume s asid q i
  | 1 => queueRerun s asid q
  | 2 => queueSkip s asid q
  | _ => s

/-- What a value written to CTX does to a context (R440, R447, R455). -/
def contextControl (s : State) (asid : Nat) : Nat → State
  | 1 => startSave s asid
  | 2 => startRestore s asid
  | 3 => destroyContext s asid
  | 4 => startSlice s asid
  | 5 => endSlice s asid
  | _ => s

/-- What a write of a register of its page does to a context (R444). -/
def pageWrite (s : State) (asid o v : Nat) : State :=
  if o < 0x200 then ringDoorbell s asid (o / 8) (v % 2 ^ 32)
  else if o == 0x200 then (if v / 2 ^ 34 == 0 then replyTo s asid (v % 2 ^ 32) (State.bits v 33 32) else s)
  else if o == 0x208 then (if v % 2 == 1 then raiseGen s asid else s)
  else if o == 0x210 then queueControl s asid (v % 64) (v / 2 ^ 32) (State.bits v 7 6)
  else if o == 0x218 then contextControl s asid v
  else if o == 0x220 then startMigrate s asid v
  else s

/-- Where firmware runs, a write at an offset of a page is one of its context's register. -/
theorem barPerform_pageReg {s : State} (hrun : s.plat.fwRunning = true) (hstop : s.plat.stopped = false) (asid v : Nat) {o : Nat}
    (ho : o < 0x1000) : barPerform s (pageReg asid o) v = pageWrite s (asid % 4096) o v := by
  obtain ⟨h0, h1, h2, hlo, hhi, hasid, hreg⟩ := pageReg_spec asid ho
  have hin : (decide (0x10000 ≤ pageReg asid o) && decide (pageReg asid o < 0x1010000)) = true := by simp [hlo, hhi]
  simp only [barPerform, hrun, hstop, beq_eq_false_iff_ne.2 h0, beq_eq_false_iff_ne.2 h1, beq_eq_false_iff_ne.2 h2, hin, hasid, hreg,
    Bool.not_true, Bool.or_self, Bool.false_eq_true, if_false, if_true]
  rfl

/-- Of the registers of a page, MIGRATE alone makes the part read memory. -/
theorem readsMemory_pageReg (asid : Nat) {o : Nat} (ho : o < 0x1000) : readsMemory (pageReg asid o) = (o == 0x220) := by
  obtain ⟨h0, -, -, hlo, hhi, -, hreg⟩ := pageReg_spec asid ho
  simp [readsMemory, h0, hlo, hhi, hreg]

theorem barWrite_pageReg {s : State} (hrun : s.plat.fwRunning = true) (hstop : s.plat.stopped = false) (asid v : Nat) {o : Nat}
    (ho : o < 0x1000) (hne : o ≠ 0x220) : barWrite s (pageReg asid o) v = pageWrite s (asid % 4096) o v :=
  (barWrite_of_performed (.inl (by simp [readsMemory_pageReg asid ho, hne]))).trans (barPerform_pageReg hrun hstop asid v ho)

theorem pageWrite_doorbell (s : State) (asid v : Nat) {q : Nat} (hq : q < 64) :
    pageWrite s asid (8 * q) v = ringDoorbell s asid q (v % 2 ^ 32) := by
  rw [pageWrite, if_pos (by omega), Nat.mul_div_cancel_left q (by decide)]

/-- REPLY takes a sequence number and an action (R428). -/
theorem pageWrite_reply (s : State) (asid : Nat) {seq action v : Nat} (hv : v = seq + action * 2 ^ 32) (hseq : seq < 2 ^ 32) (haction : action < 4) :
    pageWrite s asid 0x200 v = replyTo s asid seq action := by
  have hhigh : (v / 2 ^ 34 == 0) = true := by rw [beq_iff_eq]; omega
  have hlow : v % 2 ^ 32 = seq := by omega
  have hmid : State.bits v 33 32 = action := by unfold State.bits; omega
  show (if v / 2 ^ 34 == 0 then replyTo s asid (v % 2 ^ 32) (State.bits v 33 32) else s) = _
  rw [if_pos hhigh, hlow, hmid]

/-- QCTL takes a queue, an operation and an index (R453). -/
theorem pageWrite_qctl (s : State) (asid : Nat) {q op i v : Nat} (hv : v = q + 64 * op + i * 2 ^ 32) (hq : q < 64) (hop : op < 4) :
    pageWrite s asid 0x210 v = queueControl s asid q i op := by
  have hmid : State.bits v 7 6 = op := by unfold State.bits; omega
  have hlow : v % 64 = q := by omega
  have hhigh : v / 2 ^ 32 = i := by omega
  show queueControl s asid (v % 64) (v / 2 ^ 32) (State.bits v 7 6) = _
  rw [hlow, hhigh, hmid]

end Sys2Proof.Machine
end

section
/-! SUPPORT. Contexts (O44): looking one up after it is replaced, and what the part's own writes of memory leave alone. -/

namespace Sys2Proof.Machine

/-! ### Records of contexts -/

/-- A context that is found has the number it is found under. -/
theorem State.asid_of_ctx? {s : State} {asid : Nat} {c : Context} (h : s.ctx? asid = some c) : c.asid = asid := by simpa using List.find?_some h

/-- Replacing a context that is there makes it the context of its number. -/
theorem State.ctx?_setCtx_self {s : State} {asid : Nat} {c x : Context} (h : s.ctx? asid = some x) (hc : c.asid = asid) :
    (s.setCtx c).ctx? asid = some c := by
  have hx := State.asid_of_ctx? h
  rw [State.ctx?] at h
  rw [State.ctx?, State.setCtx, find?_modify (fun y hy => by simp [beq_iff_eq.1 hy]), h]
  simp [hx, hc]

/-! ### What the part's own writes of memory leave alone -/

/-- The fields of the state that contexts, generations and their tasks are kept in, and what a creation reads of the platform. -/
structure HostSide where
  ctxs : List Context
  gens : List (Nat × Nat)
  nodes : List Node
  fams : List Family
  ns : Nat
  startup : Bool
  work0 : Nat
  work1 : Nat

def State.hostSide (s : State) : HostSide := ⟨s.ctxs, s.gens, s.nodes, s.fams, s.ns, s.plat.startup, s.plat.work0, s.plat.work1⟩

/-- What every step of a fold leaves alone, the whole fold leaves alone. -/
theorem hostSide_foldl {α : Type} {l : List α} {g : State → α → State} {s : State} (hg : ∀ s x, (g s x).hostSide = s.hostSide) :
    (l.foldl g s).hostSide = s.hostSide :=
  foldl_keeps (P := fun t : State => t.hostSide = s.hostSide) (fun t x h => (hg t x).trans h) l rfl

namespace State

theorem hostSide_noteTag (s : State) (pa : Nat) (bank : Bool) : (s.noteTag pa bank).hostSide = s.hostSide := by
  have ho := congrArg hostSide (noteTag_only s pa bank)
  exact ho

theorem hostSide_memPut (s : State) (pa : Nat) (bs : List Byte) (bank : Bool) : (s.memPut pa bs bank).hostSide = s.hostSide := by
  have ho := congrArg hostSide (memPut_only s pa bs bank)
  exact ho

theorem hostSide_noteWalk (s : State) (asid va : Nat) : (s.noteWalk asid va).hostSide = s.hostSide := by
  unfold noteWalk
  split
  · rfl
  · split
    · exact hostSide_foldl fun s pa => hostSide_noteTag s pa false
    · rfl

theorem hostSide_partTouch (s : State) (asid va : Nat) : (s.partTouch asid va).hostSide = s.hostSide := by
  unfold partTouch
  split
  · rfl
  · split
    · exact (hostSide_noteTag ..).trans (hostSide_noteWalk ..)
    · exact hostSide_noteWalk ..

theorem hostSide_writeCommitted (s : State) (asid va : Nat) (t : Trans) (bs : List Byte) :
    (s.writeCommitted asid va t bs).hostSide = s.hostSide := by
  unfold writeCommitted
  split
  · split
    · exact hostSide_memPut ..
    · dsimp only
      split
      · exact hostSide_memPut ..
      · rfl
  · exact hostSide_memPut ..

theorem hostSide_partPut (s : State) (asid va : Nat) (bs : List Byte) : (s.partPut asid va bs).hostSide = s.hostSide := by
  refine (hostSide_foldl fun s ib => ?_).trans (hostSide_foldl fun s i => hostSide_partTouch s asid (va + i))
  split
  · exact hostSide_writeCommitted ..
  · rfl

theorem hostSide_partWrite (s : State) (asid va : Nat) (bs : List Byte) : (s.partWrite asid va bs).hostSide = s.hostSide := by
  unfold partWrite
  split
  · rfl
  · exact hostSide_partPut ..

theorem hostSide_writeBack (s : State) (h : HomeLine) : (s.writeBack h).hostSide = s.hostSide := by
  unfold writeBack
  split
  · exact hostSide_memPut ..
  · rfl

theorem hostSide_evict (s : State) (h : HomeLine) : (s.evict h).hostSide = s.hostSide := hostSide_writeBack s h

end State

theorem hostSide_physPut (s : State) (pa : Nat) (bs : List Byte) : (physPut s pa bs).hostSide = s.hostSide := s.hostSide_memPut pa bs false

theorem hostSide_flushAsid (s : State) (asid : Nat) : (flushAsid s asid).hostSide = s.hostSide := by
  have h : ((s.homes.filter fun h => h.asid == asid).foldl State.evict s).hostSide = s.hostSide := hostSide_foldl State.hostSide_evict
  exact h

theorem hostSide_clearAreas (s : State) (c : Context) : (clearAreas s c).hostSide = s.hostSide := by
  unfold clearAreas
  dsimp only
  split
  · exact ((State.hostSide_partWrite ..).trans (State.hostSide_partWrite ..)).trans (hostSide_physPut ..)
  · exact ((State.hostSide_partWrite ..).trans ((State.hostSide_partWrite ..).trans (State.hostSide_partWrite ..))).trans (hostSide_physPut ..)

theorem hostSide_copyLine (s : State) (asid va : Nat) (new : Trans) (i : Nat) : (copyLine s asid va new i).hostSide = s.hostSide := by
  unfold copyLine
  dsimp only
  split
  · rfl
  · exact State.hostSide_memPut ..


/-! ### Creation (R446, R447) -/

/-- Whether a creation is accepted as far as the descriptor at an address and the work areas go. -/
def createOk (s : State) (addr : Nat) : Bool :=
  let d := physBytes s addr 128
  s.plat.work0 != 0 && s.plat.work1 != 0 && addr % 128 == 0 && decide (addr + 128 ≤ 2 ^ 39) && descOk d
    && (List.range 64).all fun q => bytesNat d 0x18 8 / 2 ^ q % 2 == 0 || ringOk (physBytes s (bytesNat d 0x10 8 + 16 * q) 16)

/-- The state once a creation has read its descriptor and its ring table. -/
def createRead (s : State) (addr : Nat) : State := physTouch (physTouch s addr 128) (bytesNat (physBytes s addr 128) 0x10 8) (16 * 64)

/-- The ASID of the descriptor at an address. -/
def createAsid (s : State) (addr : Nat) : Nat := bytesNat (physBytes s addr 128) 0 2 % 4096

/-- CSTAT reports an outcome of a creation. -/
def reportCreate (s : State) (status asid : Nat) : State := { s with plat := { s.plat with cstat := cstatOf status asid, cstatBusy := true } }

/-- A context that was made: its status is open where a work area is not where R445 has it. -/
def reportMade (s : State) (asid : Nat) : State :=
  if workOk s then reportCreate s 0 asid else reportCreate { s with free := s.free + 1 } (Config.freeNat s.free) asid

/-- The context that takes the place of a lost one keeps the state of its queues and the places in its rings. -/
def renewed (old new : Context) : Context :=
  { new with queues := old.queues, rings := new.rings.zipWith (fun r o => { r with next := o.next, door := o.door }) old.rings }

/-- The state once a lost context is renewed: its binding table goes where its ray area is another, its lines leave the chip, and its
accepted work runs again. -/
def renewContext (s : State) (asid : Nat) (old new : Context) : State :=
  let c := renewed old new
  let s := if c.raycap != 0 && c.raybase == old.raybase then s else { s with bindings := s.bindings.filter fun b => b.asid != asid }
  reportMade (replayNodes (acceptCreate ((flushAsid s asid).setCtx c) c) asid) asid

/-- A creation once its descriptor has been read: whether it was accepted, and the context that it describes. -/
def createAfter (s : State) (asid : Nat) (ok : Bool) (new : Context) : State :=
  if !ok then reportCreate s 1 asid
  else match s.ctx? asid with
    | some old => if old.wd == .lost then renewContext s asid old new else reportCreate s 2 asid
    | none => reportMade (acceptCreate { s with ctxs := s.ctxs ++ [new] } new) asid

/-- What a creation refuses for is that it is not `createOk`. -/
theorem not_createOk (s : State) (addr : Nat) : (!createOk s addr) = (s.plat.work0 == 0 || s.plat.work1 == 0 || addr % 128 != 0
    || decide (addr + 128 > Config.hbmEnd) || !descOk (physBytes s addr 128)
    || !(List.range 64).all fun q => bytesNat (physBytes s addr 128) 0x18 8 / 2 ^ q % 2 == 0
      || ringOk (physBytes s (bytesNat (physBytes s addr 128) 0x10 8 + 16 * q) 16)) := by
  simp only [createOk, Bool.not_and, bne, Bool.not_not, ← decide_not, Nat.not_le]
  rfl

/-- What a descriptor describes does not depend on the tags of groups. -/
theorem contextOf_createRead (s : State) (addr : Nat) (d : List Byte) : contextOf (createRead s addr) addr d = contextOf s addr d := rfl

theorem createContext_eq (s : State) (addr : Nat) : createContext s addr =
    createAfter (createRead s addr) (createAsid s addr) (createOk s addr) (contextOf s addr (physBytes s addr 128)) := by
  rw [← contextOf_createRead]
  unfold createAfter
  rw [not_createOk]
  unfold createContext renewContext reportMade reportCreate renewed createRead createAsid
  generalize physBytes s addr 128 = d
  dsimp only
  generalize bytesNat d 0 2 % 4096 = asid
  generalize contextOf _ addr d = new
  rfl

/-- The reading of a descriptor leaves the tags of groups alone. -/
theorem hostSide_createRead (s : State) (addr : Nat) : (createRead s addr).hostSide = s.hostSide := rfl

theorem hostSide_reportMade (s : State) (asid : Nat) : (reportMade s asid).hostSide = s.hostSide := by
  unfold reportMade
  split <;> rfl

theorem cstat_reportMade {s : State} {asid : Nat} (h : workOk s = true) (hasid : asid < 4096) : (reportMade s asid).plat.cstat = asid * 2 ^ 16 := by
  rw [reportMade, if_pos h]
  simp [reportCreate, cstatOf, Nat.mod_eq_of_lt hasid]

/-- A creation gives its ASID the generation zero and ends the start-up test. -/
theorem hostSide_acceptCreate (s : State) (c : Context) :
    (acceptCreate s c).hostSide = { s.hostSide with gens := s.hostSide.gens.filter fun g => g.1 != c.asid, startup := false } :=
  hostSide_clearAreas _ c

theorem State.ctx?_of_hostSide {s t : State} (h : t.hostSide.ctxs = s.hostSide.ctxs) (asid : Nat) : t.ctx? asid = s.ctx? asid :=
  congrArg (fun l : List Context => l.find? fun c : Context => c.asid == asid) h

/-- Whether the work areas are as R445 has them depends on WORK0 and WORK1 alone. -/
theorem workOk_of_hostSide {s t : State} (h0 : t.hostSide.work0 = s.hostSide.work0) (h1 : t.hostSide.work1 = s.hostSide.work1) :
    workOk t = workOk s :=
  congrArg₂ (fun a b : Nat => [a, b].all fun x => x % Config.workAlign == 0 && decide (x < Config.hbmEnd)) h0 h1

theorem hostSide_setCtx (s : State) (c : Context) :
    (s.setCtx c).hostSide = { s.hostSide with ctxs := modify (fun x => x.asid == c.asid) (fun _ => c) s.hostSide.ctxs } := rfl

theorem hostSide_replayNodes (s : State) (asid : Nat) : (replayNodes s asid).hostSide = { s.hostSide with
    nodes := modify (fun n => n.asid == asid && n.index.isSome && n.stage != .stopped) (replayNode s) s.hostSide.nodes } := rfl

/-- Which tasks run again depends on the families and on the clock. -/
theorem replayNode_of_hostSide {s t : State} (hf : t.hostSide.fams = s.hostSide.fams) (hn : t.hostSide.ns = s.hostSide.ns) :
    replayNode t = replayNode s := by
  have hfam : t.fam? = s.fam? := congrArg (fun (l : List Family) (fid : Nat) => l.find? fun f : Family => f.fid == fid) hf
  have hn : t.ns = s.ns := hn
  funext n
  simp only [replayNode, outcomeStands, hfam, hn]
  rfl

section
variable {u : State} {asid : Nat} {new : Context}

theorem createAfter_refused : createAfter u asid false new = reportCreate u 1 asid := by
  rw [createAfter, if_pos (by rfl)]

/-- A creation for an ASID that a live context has is refused. -/
theorem createAfter_of_live {c : Context} (hc : u.ctx? asid = some c) (hlive : c.wd ≠ .lost) :
    createAfter u asid true new = reportCreate u 2 asid := by
  simp [createAfter, hc, hlive]

theorem createAfter_of_free (hc : u.ctx? asid = none) :
    createAfter u asid true new = reportMade (acceptCreate { u with ctxs := u.ctxs ++ [new] } new) asid := by
  simp [createAfter, hc]

theorem createAfter_of_lost {o : Context} (hc : u.ctx? asid = some o) (hlost : o.wd = .lost) :
    createAfter u asid true new = renewContext u asid o new := by
  simp [createAfter, hc, hlost]

/-- A creation for a free ASID appends the context that its descriptor describes, at generation zero, and keeps the tasks. -/
theorem hostSide_createAfter_of_free (hc : u.ctx? asid = none) (hnew : new.asid = asid) :
    (createAfter u asid true new).hostSide
      = { u.hostSide with ctxs := u.ctxs ++ [new], gens := u.gens.filter fun g => g.1 != asid, startup := false } := by
  subst hnew
  rw [createAfter_of_free hc, hostSide_reportMade, hostSide_acceptCreate]
  rfl

theorem cstat_createAfter_of_free (hc : u.ctx? asid = none) (hasid : asid < 4096) (hwork : workOk u = true) :
    (createAfter u asid true new).plat.cstat = asid * 2 ^ 16 := by
  have hside := hostSide_acceptCreate { u with ctxs := u.ctxs ++ [new] } new
  have hkeep : workOk (acceptCreate { u with ctxs := u.ctxs ++ [new] } new) = workOk u := workOk_of_hostSide (by rw [hside]; rfl) (by rw [hside]; rfl)
  rw [createAfter_of_free hc, cstat_reportMade (hkeep.trans hwork) hasid]

/-- Renewing a lost context puts `renewed` in its place, and its accepted work runs again. -/
theorem hostSide_renewContext (o : Context) :
    (renewContext u asid o new).hostSide = { u.hostSide with
        ctxs := (u.setCtx (renewed o new)).ctxs, gens := u.gens.filter fun g => g.1 != (renewed o new).asid, startup := false
        nodes := modify (fun n => n.asid == asid && n.index.isSome && n.stage != .stopped) (replayNode u) u.nodes } := by
  unfold renewContext
  dsimp only
  generalize hv : (if (renewed o new).raycap != 0 && (renewed o new).raybase == o.raybase then u
    else { u with bindings := u.bindings.filter fun b => b.asid != asid }) = v
  have hbind : v.hostSide = u.hostSide := by
    rw [← hv]
    split <;> rfl
  have hside : (acceptCreate ((flushAsid v asid).setCtx (renewed o new)) (renewed o new)).hostSide = { u.hostSide with
      ctxs := (u.setCtx (renewed o new)).ctxs, gens := u.gens.filter fun g => g.1 != (renewed o new).asid, startup := false } := by
    rw [hostSide_acceptCreate, hostSide_setCtx, (hostSide_flushAsid v asid).trans hbind]
    rfl
  rw [hostSide_reportMade, hostSide_replayNodes, replayNode_of_hostSide (s := u) (by rw [hside]) (by rw [hside]), hside]
  rfl

end

section
variable {s : State} {addr : Nat}

/-- The ASID of an accepted descriptor takes twelve bits. -/
theorem asid_contextOf (h : createOk s addr = true) : (contextOf s addr (physBytes s addr 128)).asid = createAsid s addr := by
  simp only [createOk, descOk, Bool.and_eq_true, decide_eq_true_eq, and_assoc] at h
  obtain ⟨-, -, -, -, hlt, -⟩ := h
  exact (Nat.mod_eq_of_lt hlt).symm

theorem createContext_of_invalid (h : createOk s addr = false) :
    createContext s addr = reportCreate (createRead s addr) 1 (createAsid s addr) := by
  rw [createContext_eq, h, createAfter_refused]

theorem createContext_of_live {c : Context} (h : createOk s addr = true) (hc : s.ctx? (createAsid s addr) = some c) (hlive : c.wd ≠ .lost) :
    createContext s addr = reportCreate (createRead s addr) 2 (createAsid s addr) := by
  have hread : (createRead s addr).ctx? (createAsid s addr) = some c := hc
  rw [createContext_eq, h, createAfter_of_live hread hlive]

/-- A creation for a free ASID appends the context that its descriptor describes. -/
theorem hostSide_createContext_of_free (h : createOk s addr = true) (hc : s.ctx? (createAsid s addr) = none) :
    (createContext s addr).hostSide = { s.hostSide with
        ctxs := s.ctxs ++ [contextOf s addr (physBytes s addr 128)], gens := s.gens.filter fun g => g.1 != createAsid s addr, startup := false } := by
  have hread : (createRead s addr).ctx? (createAsid s addr) = none := hc
  rw [createContext_eq, h, hostSide_createAfter_of_free hread (asid_contextOf h), hostSide_createRead]
  rfl

theorem cstat_createContext_of_free (h : createOk s addr = true) (hc : s.ctx? (createAsid s addr) = none) (hwork : workOk s = true) :
    (createContext s addr).plat.cstat = createAsid s addr * 2 ^ 16 := by
  have hread : (createRead s addr).ctx? (createAsid s addr) = none := hc
  rw [createContext_eq, h, cstat_createAfter_of_free hread (Nat.mod_lt _ (by decide)) hwork]

/-- A creation for the ASID of a lost context renews the context. -/
theorem hostSide_createContext_of_lost {o : Context} (h : createOk s addr = true) (hc : s.ctx? (createAsid s addr) = some o)
    (hlost : o.wd = .lost) : (createContext s addr).hostSide = { s.hostSide with
        ctxs := (s.setCtx (renewed o (contextOf s addr (physBytes s addr 128)))).ctxs
        gens := s.gens.filter fun g => g.1 != (renewed o (contextOf s addr (physBytes s addr 128))).asid
        startup := false
        nodes := modify (fun n => n.asid == createAsid s addr && n.index.isSome && n.stage != .stopped) (replayNode s) s.nodes } := by
  have hread : (createRead s addr).ctx? (createAsid s addr) = some o := hc
  have hsame := hostSide_createRead s addr
  rw [createContext_eq, h, createAfter_of_lost hread hlost, hostSide_renewContext, replayNode_of_hostSide (s := s) (by rw [hsame]) (by rw [hsame]),
    hsame]
  rfl

end

end Sys2Proof.Machine
end

section
/-! SUPPORT. Generations, queue control, slices and migrations (O44): what each operation leaves in its context and on chip. -/

namespace Sys2Proof.Machine

/-! ### Queue control (R453) -/

/-- A queue with no stopped task has none to rerun or to skip. -/
theorem stoppedNode_eq_none {s : State} {asid q : Nat} (h : ∀ m ∈ s.nodes, m.asid = asid → m.queue = q → m.stage ≠ .stopped) :
    stoppedNode s asid q = none := by
  have hnil : (s.nodes.filter fun n => n.asid == asid && n.queue == q && n.stage == .stopped) = [] := by
    simpa [List.filter_eq_nil_iff] using h
  rw [stoppedNode, hnil]
  rfl

/-- The stop of a queue ends once its one stopped task is replaced by one that is not stopped. -/
theorem clearStop_setNode {s : State} {asid q : Nat} {n : Node} {c : Context} {t : TQueue} (hstage : n.stage ≠ .stopped)
    (honly : ∀ m ∈ s.nodes, m.asid = asid → m.queue = q → m.stage = .stopped → m.nid = n.nid) (hc : s.ctx? asid = some c)
    (ht : c.queues[q]? = some t) :
    clearStop (s.setNode n) asid q = (s.setNode n).setCtx { c with queues := c.queues.set q { t with stopped := none } } := by
  have hnone : stoppedNode (s.setNode n) asid q = none := by
    refine stoppedNode_eq_none fun m hm hasid hq => ?_
    obtain ⟨x, hx, rfl⟩ := List.mem_map.1 hm
    by_cases hx' : x.nid = n.nid
    · simp [hx', hstage]
    · have hold : (if x.nid == n.nid then n else x) = x := if_neg (by simpa using hx')
      rw [hold] at hasid hq ⊢
      exact fun hstop => hx' (honly x hx hasid hq hstop)
  have hctx : (s.setNode n).ctx? asid = some c := hc
  simp [clearStop, hctx, ht, hnone]

/-! ### Slices (R455) -/

/-- Benching a context reports once no wave of it stands in an active bank. -/
theorem startSlice_of_not_benched {s : State} {asid : Nat} {c : Context} (hc : s.ctx? asid = some c) (hb : c.benched = false) :
    startSlice s asid = if (s.waves.any fun w => w.asid == asid && resident s w) = true
      then s.setCtx { c with benched := true, benchReported := false }
      else ((s.setCtx { c with benched := true, benchReported := false }).setCtx { c with benched := true, benchReported := true }).contextEvent
        { c with benched := true, benchReported := true } 19 := by
  have hasid : c.asid = asid := State.asid_of_ctx? hc
  have hset := State.ctx?_setCtx_self (c := { c with benched := true, benchReported := false }) hc hasid
  have hres (x : Context) : ((s.setCtx x).waves.any fun w => w.asid == asid && resident (s.setCtx x) w)
      = s.waves.any fun w => w.asid == asid && resident s w := rfl
  simp only [startSlice, hc, hb, Bool.false_eq_true, if_false, noteBenched, hset, hres]
  cases s.waves.any fun w => w.asid == asid && resident s w <;> rfl

/-! ### Raises and migrations (R449, R457) -/

theorem ctx?_raiseOwn {s : State} {asid : Nat} {c : Context} (hc : s.ctx? asid = some c) : (raiseOwn s asid).ctx? asid = some (nextGen c) := by
  have hasid : c.asid = asid := State.asid_of_ctx? hc
  rw [raiseOwn, hc]
  exact State.ctx?_setCtx_self hc hasid

theorem raiseOwn_tlb (s : State) (asid : Nat) : (raiseOwn s asid).tlb = s.tlb := by
  unfold raiseOwn
  split <;> rfl

/-- The state once what is left of a page is copied, its leaf written and its translation dropped. -/
def movePage (s : State) (c : Context) (m : Migration) (rest : List Migration) (new : Trans) (slot : Nat) : State :=
  let u := (List.range' m.lines (64 - m.lines)).foldl (fun s i => copyLine s c.asid m.va new i) s
  let v := physPut (u.setCtx { c with migs := rest, moves := c.moves ++ [m.compl] }) slot (leBytes 8 m.leaf)
  { v with tlb := v.tlb.filter fun t => !(t.asid == c.asid && t.page == m.va / 8192) }

section
variable {s : State} {c : Context} {m : Migration} {rest : List Migration} {old new : Trans} {slot : Nat}

theorem finishMigrate_eq (ht : s.translate c.asid m.va = some old) (hn : State.leaf m.leaf 13 m.va = some new)
    (hk : leafSlot s c.root m.va = some slot) : finishMigrate s c m rest = raiseOwn (movePage s c m rest new slot) c.asid := by
  simp only [finishMigrate, ht, hn, hk]
  rfl

theorem ctx?_movePage (hc : s.ctx? c.asid = some c) :
    (movePage s c m rest new slot).ctx? c.asid = some { c with migs := rest, moves := c.moves ++ [m.compl] } := by
  have hfold := hostSide_foldl (l := List.range' m.lines (64 - m.lines)) (s := s) fun s i => hostSide_copyLine s c.asid m.va new i
  refine (State.ctx?_of_hostSide (congrArg HostSide.ctxs (hostSide_physPut ..)) c.asid).trans ?_
  exact State.ctx?_setCtx_self ((State.ctx?_of_hostSide (congrArg HostSide.ctxs hfold) c.asid).trans hc) rfl

theorem movePage_tlb : ∀ e ∈ (movePage s c m rest new slot).tlb, e.asid ≠ c.asid ∨ e.page ≠ m.va / 8192 := by
  intro e he
  have hkept := (List.mem_filter.1 he).2
  simpa [imp_iff_not_or] using hkept

end

/-- A line that is copied takes its committed value to the new frame. -/
theorem mem_get_copyLine {s : State} {asid va i k : Nat} {new t : Trans} (hwf : s.mem.wf = true) (hl : s.locate asid (va + 128 * i) = some t)
    (hk : k < 128) (hpa : new.pa / 8192 * 8192 + 128 * i < 2 ^ 39) (hown : s.isOwn (new.pa / 8192 * 8192 + 128 * i) = false)
    (hparked : s.isParked (new.pa / 8192 * 8192 + 128 * i) = false) :
    (copyLine s asid va new i).mem.get (new.pa / 8192 * 8192 + 128 * i + k) = s.committed asid (va + 128 * i + k) { t with pa := t.pa + k } := by
  have hmem (g : HomeLine → HomeLine) (bs : List Byte) := (State.memPut_of_lt
    (s := (s.leaveCluster none asid (va + 128 * i)).modHome asid ((va + 128 * i) / 128) g) hpa hparked bs new.bank).2
  have hown' (g : HomeLine → HomeLine) : ((s.leaveCluster none asid (va + 128 * i)).modHome asid ((va + 128 * i) / 128) g).isOwn
      (new.pa / 8192 * 8192 + 128 * i) = false := hown
  simp only [hown', Bool.false_eq_true, if_false] at hmem
  simp only [copyLine, hl, hmem]
  refine (Memory.get_setBytes hwf _ _ _).trans ?_
  rw [if_pos (by simp [hk])]
  simp [hk]

/-! ### What leaves the chip -/

/-- What the chip keeps of contexts' pages: translations, lines at home, copies and instructions. -/
structure OnChip where
  tlb : List TlbEntry
  homes : List HomeLine
  l1 : List L1Line
  ilines : List ILine

def State.onChip (s : State) : OnChip := ⟨s.tlb, s.homes, s.l1, s.ilines⟩

theorem onChip_foldl {α : Type} {l : List α} {g : State → α → State} {s : State} (hg : ∀ s x, (g s x).onChip = s.onChip) :
    (l.foldl g s).onChip = s.onChip :=
  foldl_keeps (P := fun t : State => t.onChip = s.onChip) (fun t x h => (hg t x).trans h) l rfl

theorem onChip_redoStreams (s : State) (wid : Nat) : (redoStreams s wid).onChip = s.onChip := rfl

theorem onChip_resumeArray (s : State) (a : ArrayBank) (h : ArrCmd) : (resumeArray s a h).onChip = s.onChip := by
  unfold resumeArray
  split <;> rfl

theorem onChip_resumeBank (s : State) (c : BankCmd) : (resumeBank s c).onChip = s.onChip := rfl

theorem onChip_setWave (s : State) (w : Wave) : (s.setWave w).onChip = s.onChip := rfl

theorem onChip_releaseWave (s : State) (wid : Nat) : (releaseWave s wid).onChip = s.onChip := by
  unfold releaseWave
  grind [onChip_redoStreams, onChip_resumeArray, onChip_resumeBank, onChip_setWave, onChip_foldl]

theorem onChip_releaseParked (s : State) (asid : Nat) (p : Nat → Bool) : (releaseParked s asid p).onChip = s.onChip :=
  onChip_foldl fun s w => onChip_releaseWave s w.wid

theorem onChip_startNext (s : State) (asid : Nat) : (startNext s asid).onChip = s.onChip := by
  unfold startNext
  split
  · split
    · split <;> rfl
    · rfl
  · rfl

/-- The ASIDs and numbers of the lines at home. -/
def State.homeKeys (s : State) : List (Nat × Nat) := s.homes.map fun h => (h.asid, h.line)

theorem State.homes_memPut (s : State) (pa : Nat) (bs : List Byte) (bank : Bool) : (s.memPut pa bs bank).homes = s.homes := by
  have ho := congrArg State.homes (memPut_only s pa bs bank)
  exact ho

theorem State.homeKeys_writeBack (s : State) (h : HomeLine) : (s.writeBack h).homeKeys = s.homeKeys := by
  unfold writeBack
  split
  · simp only [homeKeys, modify, List.map_map]
    refine List.map_congr_left fun x _ => ?_
    simp only [Function.comp]
    split <;> rfl
  · rfl

/-- A line that is evicted is at home no more, and no line comes home. -/
theorem State.homeKeys_evict (s : State) (h : HomeLine) : (s.evict h).homeKeys = s.homeKeys.filter fun k => !(k == (h.asid, h.line)) := by
  rw [← s.homeKeys_writeBack h]
  simp only [homeKeys, List.filter_map]
  rfl

theorem State.mem_homeKeys_foldl_evict (l : List HomeLine) (s : State) (k : Nat × Nat) :
    k ∈ (l.foldl State.evict s).homeKeys ↔ k ∈ s.homeKeys ∧ ∀ h ∈ l, k ≠ (h.asid, h.line) := by
  induction l generalizing s with
  | nil => simp
  | cons h l ih => simp [ih, homeKeys_evict, and_assoc]

/-- No line of an ASID whose lines are flushed stays at home. -/
theorem flushAsid_homes (s : State) (asid : Nat) : ∀ h ∈ (flushAsid s asid).homes, h.asid ≠ asid := by
  intro h hh hasid
  have hkey : (h.asid, h.line) ∈ (flushAsid s asid).homeKeys := List.mem_map.2 ⟨h, hh, rfl⟩
  obtain ⟨hkey, hgone⟩ := (State.mem_homeKeys_foldl_evict _ s _).1 hkey
  obtain ⟨x, hx, hxkey⟩ := List.mem_map.1 hkey
  refine hgone x (List.mem_filter.2 ⟨hx, ?_⟩) hxkey.symm
  rw [(Prod.mk.inj hxkey).1, hasid, beq_self_eq_true]

theorem flushAsid_l1 (s : State) (asid : Nat) : ∀ x ∈ (flushAsid s asid).l1, x.asid ≠ asid := by
  intro x hx
  simpa using (List.mem_filter.1 hx).2

theorem flushAsid_ilines (s : State) (asid : Nat) : ∀ x ∈ (flushAsid s asid).ilines, x.asid ≠ asid := by
  intro x hx
  simpa using (List.mem_filter.1 hx).2

theorem State.evict_tlb (s : State) (h : HomeLine) : (s.evict h).tlb = s.tlb := by
  unfold evict writeBack
  split
  · have ho := congrArg State.tlb (memPut_only s h.tr.pa h.data h.tr.bank)
    exact ho
  · rfl

theorem flushAsid_tlb (s : State) (asid : Nat) : ∀ x ∈ (flushAsid s asid).tlb, x ∈ s.tlb := by
  intro x hx
  have hfold : ((s.homes.filter fun h => h.asid == asid).foldl State.evict s).tlb = s.tlb :=
    foldl_keeps (P := fun t : State => t.tlb = s.tlb) (fun t h ht => (State.evict_tlb t h).trans ht) _ rfl
  exact hfold ▸ (List.mem_filter.1 hx).1

/-- Where a raise has no migration to complete and no reply to give, the chip keeps what its generation allows. -/
theorem onChip_finishGen {s : State} {asid : Nat} {c : Context} (hc : s.ctx? asid = some c) (hbusy : c.busy = true) (hheld : c.heldReplies = [])
    (hmoves : c.moves = []) : (finishGen s asid).onChip
      = (if c.wrapped = true then flushAsid { s with tlb := s.tlb.filter fun t => t.asid != asid || t.gen == c.gen } asid
          else { s with tlb := s.tlb.filter fun t => t.asid != asid || t.gen == c.gen }).onChip := by
  simp only [finishGen, hc, hbusy, hheld, hmoves, List.foldl_nil, Bool.not_true, Bool.false_eq_true, if_false]
  rw [onChip_startNext, onChip_releaseParked]
  rfl

end Sys2Proof.Machine
end

section
/-! SUPPORT. The registers that control a context (O44): each clause from the rules above. -/

namespace Sys2Proof.Machine

section
variable {s : State} (hrun : s.plat.fwRunning = true) (hstop : s.plat.stopped = false)
include hrun hstop

/-- REPLY of a context, with an action, takes the reply to its record (R428). -/
theorem barWrite_reply (asid : Nat) {seq action v : Nat} (hv : v = seq % 2 ^ 32 + action * 2 ^ 32) (haction : action < 4) :
    barWrite s (pageReg asid 0x200) v = replyTo s (asid % 4096) (seq % 2 ^ 32) action := by
  rw [barWrite_pageReg hrun hstop asid v (by decide) (by decide), pageWrite_reply s _ hv (Nat.mod_lt _ (by decide)) haction]

theorem barWrite_qctl (asid i : Nat) {q op v : Nat} (hv : v = q % 64 + 64 * op + i * 2 ^ 32) (hop : op < 4) :
    barWrite s (pageReg asid 0x210) v = queueControl s (asid % 4096) (q % 64) i op := by
  rw [barWrite_pageReg hrun hstop asid v (by decide) (by decide), pageWrite_qctl s _ hv (Nat.mod_lt _ (by decide)) hop]

theorem barWrite_ctx (asid v : Nat) : barWrite s (pageReg asid 0x218) v = contextControl s (asid % 4096) v := by
  rw [barWrite_pageReg hrun hstop asid v (by decide) (by decide)]
  rfl

end

/-- A context that is destroyed is gone. -/
theorem ctx?_destroyContext (s : State) (asid : Nat) : (destroyContext s asid).ctx? asid = none := by
  unfold destroyContext
  split
  · assumption
  · rw [State.ctx?, List.find?_filter]
    simp

/-- The generation that a destroyed context leaves is the next one. -/
theorem genOf_destroyContext {s : State} {asid : Nat} {c : Context} (hc : s.ctx? asid = some c) :
    (destroyContext s asid).genOf asid = (c.gen + 1) % 2 ^ 20 := by
  rw [State.genOf, ctx?_destroyContext]
  simp [destroyContext, hc]

/-- A reply to a record whose first reply is held changes nothing (R428). -/
theorem replyTo_of_held {s : State} {asid seq : Nat} {c : Context} (hc : s.ctx? asid = some c)
    (hheld : (c.heldReplies.any fun x => x.1 == seq) = true) (action : Nat) : replyTo s asid seq action = s := by
  simp only [replyTo, hc]
  split
  · rfl
  · simp [hheld]

theorem replayNode_of_stands {s : State} {n : Node} (h : outcomeStands s n = true) :
    replayNode s n = { n with settled := n.settled || n.stage == .complete } := by
  rw [replayNode, if_pos h]

theorem replayNode_of_open {s : State} {n : Node} (h : outcomeStands s n = false) :
    replayNode s n = { State.fresh' n with stage := if n.preds.isEmpty then .ready else .waiting, readyAt := s.ns } := by
  rw [replayNode, h]
  rfl

/-- A renewed context keeps the places in its rings. -/
theorem renewed_rings {o new : Context} {q : Nat} {r p : Ring} (hr : (renewed o new).rings[q]? = some r) (hp : o.rings[q]? = some p) :
    r.next = p.next ∧ r.door = p.door := by
  simp only [renewed, List.getElem?_zipWith, hp] at hr
  cases hq : new.rings[q]? with
  | none => simp [hq] at hr
  | some x =>
    rw [hq] at hr
    cases hr
    exact ⟨rfl, rfl⟩

theorem startNext_of_moves {s : State} {asid : Nat} {c : Context} (hc : s.ctx? asid = some c) (h : c.moves ≠ []) : startNext s asid = s := by
  simp only [startNext, hc]
  split
  · simp [h]
  · rfl

end Sys2Proof.Machine

namespace Sys2Proof.Claims

open Sys2Proof.Machine

/-- Settles O44: each register by `pageWrite`, creation by `createAfter`, and the rest by what each operation leaves in its context
(`State.ctx?_setCtx_self`) and on chip. -/
theorem hostRegistersControlContexts : Obligations.HostRegistersControlContexts := by
  unfold Obligations.HostRegistersControlContexts
  refine ⟨?registers, ?ignored, ?misaligned, ?create, ?replay, ?resume, ?control, ?noStop, ?restore, ?slice, ?migrate, ?finish, ?copy, ?gen,
    ?complete, ?next, ?waits, ?chip, ?moved, ?doorbell, ?save, ?destroyed, ?raised, ?second⟩
  case registers =>
    intro s hrun hstop
    refine ⟨?creation, ?hot, ?parked, ?reply, ?generation, ?resumption, ?rerunAndSkip, ?ctx, ?migration, ?bell, ?work⟩
    case creation =>
      intro hpark hhot a
      show execCreate a s = _
      simp [execCreate, barWrite_of_performed (.inr hpark), barPerform, hrun, hstop, hhot]
    case hot =>
      intro hpark hhot a
      show execCreate a s = _
      simp [execCreate, barWrite_of_performed (.inr hpark), barPerform, hhot]
    case parked =>
      intro hpark a
      show execCreate a s = _
      simp [execCreate, barWrite, readsMemory, hrun, hstop, hpark]
    case reply =>
      exact fun asid seq => ⟨congrArg Host.Outcome.next (barWrite_reply hrun hstop asid (action := 0) rfl (by decide)),
        congrArg Host.Outcome.next (barWrite_reply hrun hstop asid (action := 1) (by omega) (by decide)),
        congrArg Host.Outcome.next (barWrite_reply hrun hstop asid (action := 2) rfl (by decide))⟩
    case generation => exact fun asid => congrArg Host.Outcome.next (barWrite_pageReg hrun hstop asid 1 (o := 0x208) (by decide) (by decide))
    case resumption => exact fun asid q i => congrArg Host.Outcome.next (barWrite_qctl hrun hstop asid (i % 2 ^ 32) (op := 0) rfl (by decide))
    case rerunAndSkip =>
      exact fun asid q => ⟨congrArg Host.Outcome.next (barWrite_qctl hrun hstop asid 0 (op := 1) (by omega) (by decide)),
        congrArg Host.Outcome.next (barWrite_qctl hrun hstop asid 0 (op := 2) (by omega) (by decide))⟩
    case ctx =>
      have hctx (asid v : Nat) := congrArg (Host.Outcome.next (φ := Fault) (ρ := Refusal)) (barWrite_ctx hrun hstop asid v)
      exact fun asid => ⟨hctx asid 1, hctx asid 2, hctx asid 3, hctx asid 4, hctx asid 5⟩
    case migration =>
      intro hpark asid b
      show execMigrate asid b s = _
      rw [execMigrate, barWrite_of_performed (.inr hpark), barPerform_pageReg hrun hstop asid b (by decide)]
      rfl
    case bell =>
      intro asid ring i hdue
      show execDoorbell asid ring i s = _
      rw [execDoorbell, if_pos hdue, barWrite_pageReg hrun hstop asid _ (by omega) (by omega), pageWrite_doorbell s _ _ (Nat.mod_lt _ (by decide)),
        Nat.mod_mod]
    case work =>
      intro v
      constructor
      all_goals
        show execRegisterWrite 0 _ v s = _
        simp [execRegisterWrite, Config.devSize, isDoorbell, barWrite, readsMemory, barPerform, hrun, hstop]
  case ignored =>
    intro s off v h
    constructor
    · show execRegisterWrite 0 off v s = _
      simp [execRegisterWrite, barWrite_of_not_running h]
    · exact congrArg Host.Outcome.next (barWrite_of_not_running h)
  case misaligned =>
    intro s bar off v h
    show execRegisterWrite bar off v s = _
    unfold execRegisterWrite
    split <;> simp [h]
  case create =>
    intro s addr d asid valid u
    refine ⟨fun h => ?refused, fun c h hc hlive => ?live, fun h hc => ?free, fun o h hc hlost => ?lost⟩
    case refused =>
      refine (createContext_of_invalid h).trans ?_
      rw [reportCreate, cstatOf, createAsid, Nat.mod_mod]
      rfl
    case live =>
      refine (createContext_of_live h hc hlive).trans ?_
      rw [reportCreate, cstatOf, createAsid, Nat.mod_mod]
      rfl
    case free =>
      have hside := hostSide_createContext_of_free h hc
      have hctx : (createContext s addr).ctx? asid = some (contextOf s addr d) := by
        rw [State.ctx?, show (createContext s addr).ctxs = s.ctxs ++ [contextOf s addr d] from congrArg HostSide.ctxs hside]
        rw [List.find?_append, show s.ctxs.find? (fun c => c.asid == asid) = none from hc]
        simp [show (contextOf s addr d).asid = asid from asid_contextOf h]
      refine ⟨_, hctx, rfl, cstat_createContext_of_free h hc, ?_, congrArg HostSide.startup hside, congrArg HostSide.nodes hside⟩
      rw [State.genOf, hctx]
      rfl
    case lost =>
      have hside := hostSide_createContext_of_lost h hc hlost
      have hctx : (createContext s addr).ctx? asid = some (renewed o (contextOf s addr d)) :=
        (State.ctx?_of_hostSide (s := s.setCtx (renewed o (contextOf s addr d))) (by rw [hside]; rfl) asid).trans
          (State.ctx?_setCtx_self hc (asid_contextOf h))
      exact ⟨_, hctx, rfl, rfl, fun q r p hr hp => renewed_rings hr hp, congrArg HostSide.nodes hside⟩
  case replay =>
    intro s n
    constructor
    · intro h
      rw [replayNode_of_stands h]
      exact ⟨rfl, rfl⟩
    · intro h
      rw [replayNode_of_open h]
      refine ⟨?_, rfl, rfl, rfl⟩
      cases n.preds.isEmpty
      · exact .inr rfl
      · exact .inl rfl
  case resume =>
    intro s asid c r q i hc hr
    simp only [queueResume, hc, hr]
  case control =>
    intro s asid q n c t hn hc ht honly
    constructor
    · rw [queueRerun, hn]
      exact clearStop_setNode (n := { State.fresh' n with readyAt := s.ns }) nofun honly hc ht
    · rw [queueSkip, hn]
      exact clearStop_setNode (n := { n with stage := .complete }) nofun honly hc ht
  case noStop =>
    intro s asid q hn
    simp [queueRerun, queueSkip, hn]
  case restore =>
    intro s asid c hc
    simp [startRestore, hc]
  case slice =>
    intro s asid c hc
    refine ⟨fun hb => ?again, fun hb hres => ?resident, fun hb hres => ?displaced, fun hb => ?idle, fun hb => ?unbench⟩
    case again => simp [startSlice, hc, hb]
    case resident => rw [startSlice_of_not_benched hc hb, if_pos hres]
    case displaced => rw [startSlice_of_not_benched hc hb, if_neg (by simp [hres])]
    case idle => simp [endSlice, hc, hb]
    case unbench => simp [endSlice, hc, hb]
  case migrate =>
    intro s asid b c hc d
    have hctx : (physTouch s b 32).ctx? asid = some c := hc
    simp only [startMigrate, hctx, bne_iff_ne, ne_eq, ite_not]
    rfl
  case finish =>
    rintro s c m rest - hc ⟨t, n, k, ht, hn, hk⟩
    rw [finishMigrate_eq ht hn hk]
    refine ⟨_, ctx?_raiseOwn (ctx?_movePage hc), rfl, rfl, rfl, rfl, ?_⟩
    rw [raiseOwn_tlb]
    exact movePage_tlb
  case copy =>
    intro s asid va new i t k hwf hl hk hpa hown hparked
    exact mem_get_copyLine hwf hl hk (by omega) hown hparked
  case gen =>
    intro s asid c hc hbusy
    simp only [raiseGen, hc, hbusy, Bool.false_eq_true, if_false]
    rfl
  case complete => exact fun s asid => rfl
  case next =>
    intro s asid c m rest hc hm hstart hmoves
    have hasid : c.asid = asid := State.asid_of_ctx? hc
    refine ⟨{ c with migs := { m with started := true } :: rest }, ?_, rfl⟩
    simp only [startNext, hc, hm, hmoves, List.isEmpty_nil, if_true]
    exact State.ctx?_setCtx_self hc hasid
  case waits => exact fun s asid c hc hmoves => startNext_of_moves hc hmoves
  case chip =>
    intro s asid c hc hbusy hheld hmoves
    have hchip := onChip_finishGen hc hbusy hheld hmoves
    constructor
    · have htlb : (finishGen s asid).tlb = _ := congrArg OnChip.tlb hchip
      intro t ht
      rw [htlb] at ht
      have hkept : t ∈ s.tlb.filter fun t => t.asid != asid || t.gen == c.gen := by
        split at ht
        · exact flushAsid_tlb _ asid t ht
        · exact ht
      simpa using (List.mem_filter.1 hkept).2
    · intro hwrapped
      rw [if_pos hwrapped] at hchip
      have hhomes : (finishGen s asid).homes = _ := congrArg OnChip.homes hchip
      have hl1 : (finishGen s asid).l1 = _ := congrArg OnChip.l1 hchip
      have hilines : (finishGen s asid).ilines = _ := congrArg OnChip.ilines hchip
      rw [hhomes, hl1, hilines]
      exact ⟨flushAsid_homes _ asid, flushAsid_l1 _ asid, flushAsid_ilines _ asid⟩
  case moved =>
    intro s asid c m rest hc hm
    show execMigrationComplete asid s = _
    simp [execMigrationComplete, hc, hm, or_assoc]
  case doorbell =>
    intro s asid c r q i hc hr
    simp only [ringDoorbell, hc, hr]
  case save =>
    intro s asid c hc hwd
    rw [startSave, hc]
    exact if_pos (by rw [hwd]; rfl)
  case destroyed => exact ctx?_destroyContext
  case raised => exact fun s asid c hc => genOf_destroyContext hc
  case second => exact fun s asid seq action c hc hheld => replyTo_of_held hc hheld action

end Sys2Proof.Claims
end

section
/-! SUPPORT. Matrix instructions (O25): what the checks common to them come to, how a command enters the queue of its array, and the
sources of a stream. -/

namespace Sys2Proof.Machine

section

variable {c : Ctx} {s : State} {a : ArrayBank} {k : Nat}

/-- A matrix instruction does what its body says with the array that its wave's task holds (R277). -/
theorem onArray_of_own {body : ArrayBank → Act} (hdef : Claims.NoDeferred c s) (ha : ownArray s c.w = some a) :
    onArray c s body = body a := by
  rw [onArray, withDelivery_of_noDeferred _ hdef, ha]

/-- Without an array a matrix instruction has an illegal operand (R277). -/
theorem onArray_of_none {body : ArrayBank → Act} (hdef : Claims.NoDeferred c s) (ha : ownArray s c.w = none) :
    onArray c s body = .illopnd := by
  rw [onArray, withDelivery_of_noDeferred _ hdef, ha]

/-- An instruction that needs a configuration reads it in the queue view (R278, R281). -/
theorem onConfig_of_configured {body : ArrayBank → Nat → Act} (h : Claims.Configured c s a k) : onConfig c s body = body a k := by
  obtain ⟨⟨hdef, ha, -⟩, hk⟩ := h
  rw [onConfig, onArray_of_own hdef ha, hk]

/-- A command that the queue has room for enters it (R254, R255). -/
theorem enqueue_of_room {cfg : Nat} {op : ArrOp} {extra : Nat} (hroom : a.queue.length < 8) :
    enqueue c s a cfg op extra = .done (Claims.queued c s a cfg op extra) := if_neg (Nat.not_le.2 hroom)

end

end Sys2Proof.Machine

namespace Sys2Proof.Claims

open Sys2Proof.Machine

/-! ### Forms of a matrix instruction -/

section

variable {i : Fields → Instr} {cond : Ctx → State → Prop} {eff : Ctx → State → State} {a : ArrayBank}

/-- An instruction that acts on its wave's array completes where its body does. -/
theorem completes_onArray {body : Fields → Ctx → State → ArrayBank → Act}
    (h1 : ∀ f s, exec (i f) s = issue (i f) f s fun c s => onArray c s (body f c s))
    (hown : ∀ c s, cond c s → NoDeferred c s ∧ ownArray s c.w = some a)
    (h2 : ∀ c s, cond c s → body c.f c s a = .done (eff c s)) : Completes i cond eff := by
  refine completes_of h1 fun c s h => ?_
  obtain ⟨hdef, ha⟩ := hown c s h
  rw [onArray_of_own hdef ha, h2 c s h]

/-- As `completes_onArray`, for an instruction that needs a configuration. -/
theorem completes_onConfig {k : Nat} {body : Fields → Ctx → State → ArrayBank → Nat → Act}
    (h1 : ∀ f s, exec (i f) s = issue (i f) f s fun c s => onConfig c s (body f c s))
    (hconf : ∀ c s, cond c s → Configured c s a k)
    (h2 : ∀ c s, cond c s → body c.f c s a k = .done (eff c s)) : Completes i cond eff :=
  completes_of h1 fun c s h => (onConfig_of_configured (hconf c s h)).trans (h2 c s h)

/-- Without an array a matrix instruction takes the illegal-operand trap (R277). -/
theorem traps_of_noArray {body : Fields → Ctx → State → ArrayBank → Act}
    (h1 : ∀ f s, exec (i f) s = issue (i f) f s fun c s => onArray c s (body f c s)) :
    Traps i (fun c s => NoDeferred c s ∧ ownArray s c.w = none) kILLOPND :=
  traps_of h1 fun _ _ ⟨hdef, ha⟩ => onArray_of_none hdef ha

end

/-! ### Clearing (R287) -/

/-- A count that is not 0 passes the test of `mclr` for one (R287). -/
theorem count_bne_zero {n : Word} (h : n ≠ 0) : ¬ (n.toNat == 0) = true := by
  simpa [BitVec.toNat_eq] using h

/-! ### Streaming (R288 to R290) -/

/-- The stream whose rows an `mstr` takes: the one bound to the queue that A names (R289). -/
def rowStream (c : Ctx) (s : State) : Option Nat := match c.a with | some (.q n) => rowQueue s c.w n [4, 5] | _ => none

/-- The stream whose scales an `mstr` takes: the one bound to its scale queue, under a configuration with AMX (R289). -/
def scaleStream (c : Ctx) (s : State) (k : Nat) : Option Nat :=
  if (arrCfg k).amx then rowQueue s c.w (c.f.e 23 21) [if (arrCfg k).sparse then 5 else 4] else none

/-- Whether an `mstr` has a source (R289): the scratchpad, or a queue of rows and, with AMX alone, one of scales. -/
def hasSource (c : Ctx) (s : State) (k : Nat) : Bool :=
  c.f.m 0 0 == 1 || ((rowStream c s).isSome && (if (arrCfg k).amx then (scaleStream c s k).isSome else c.f.e 23 21 == 0))

theorem rowStream_of_queue {c : Ctx} {s : State} {n : Nat} (h : c.a = some (.q n)) : rowStream c s = rowQueue s c.w n [4, 5] := by
  simp only [rowStream, h]

theorem rowStream_of_no_queue {c : Ctx} {s : State} (h : (match c.a with | some (.q _) => false | _ => true) = true) :
    rowStream c s = none := by
  unfold rowStream
  split
  case h_1 n hq => simp [hq] at h
  case h_2 => rfl

theorem scaleStream_of_amx {c : Ctx} {s : State} {k : Nat} (h : (arrCfg k).amx = true) :
    scaleStream c s k = rowQueue s c.w (c.f.e 23 21) [if (arrCfg k).sparse then 5 else 4] := if_pos h

theorem scaleStream_of_not_amx {c : Ctx} {s : State} {k : Nat} (h : (arrCfg k).amx = false) : scaleStream c s k = none :=
  if_neg (Bool.eq_false_iff.1 h)

/-- An `mstr` whose checks pass and that has a source puts its stream of rows in the queue (R288 to R290). -/
theorem mstr_completes {cond : Ctx → State → Prop} {eff : Ctx → State → State} {a : ArrayBank} {k : Nat}
    (hchecks : ∀ c s, cond c s → Configured c s a k ∧ Streams c a k ∧ hasSource c s k = true)
    (heff : ∀ c s, cond c s → eff c s = queued c s a k (.str (c.f.m 0 0 == 1) c.vd.scalar.toNat
      (if c.f.m 0 0 == 1 then c.va.scalar.toNat else 0) c.vb.scalar.toNat (c.f.e 12 0) (16 * c.f.e 20 13) (rowStream c s)
      (scaleStream c s k))) : Completes .mstr cond eff := by
  refine completes_onConfig (fun f s => show _ = execMstr f s from rfl) (fun c s h => (hchecks c s h).1) fun c s h => ?_
  obtain ⟨⟨⟨_, _, hroom⟩, _⟩, ⟨htag, hpos, hrows, haccs, hopen⟩, hsrc⟩ := hchecks c s h
  have hlegal : (!tagOk a (arrCfg k) || !hasSource c s k || decide (c.vb.scalar.toNat > 128)
      || !accsOk a (arrCfg k) c.vd.scalar.toNat c.vb.scalar.toNat (c.f.e 12 0) 128) ≠ true := by
    rw [htag, hsrc, haccs, decide_eq_false (Nat.not_lt.2 hrows)]
    decide
  rw [heff c s h]
  refine (if_neg hlegal).trans ((if_neg ?rows).trans ((if_neg ?openers).trans (enqueue_of_room hroom)))
  case rows => simpa using Nat.ne_of_gt hpos
  case openers => simpa [imp_iff_not_or] using hopen

/-- Settles O25: where its checks pass the body of each instruction is one `enqueue`, which has room (`enqueue_of_room`); what it reads
of the array is common to all (`completes_onArray`, `completes_onConfig`, `traps_of_noArray`). -/
theorem matrixInstructionsEnterTheQueue : Obligations.MatrixInstructionsEnterTheQueue := by
  unfold Obligations.MatrixInstructionsEnterTheQueue
  refine ⟨?mcfg, ?mlds, ?mswp, ?mclr, ?anchored, ?anchoredF32, ?rows, ?queue, ?scaled, ?mrd, ?mst, ?mbnd, ?mcfgNone, ?mstNone⟩
  case mcfg =>
    intro a
    refine completes_onArray (fun f s => show _ = execMcfg f s from rfl) (fun c s ⟨⟨hdef, ha, _⟩, _⟩ => ⟨hdef, ha⟩)
      fun c s ⟨⟨_, _, hroom⟩, hok⟩ => ?_
    exact (if_pos hok).trans (enqueue_of_room hroom)
  case mlds =>
    intro a k
    refine completes_onConfig (fun f s => show _ = execMlds f s from rfl) (fun _ _ h => h.1) fun c s h => ?_
    obtain ⟨⟨⟨_, _, hroom⟩, _⟩, hbase, hpitch, hneed⟩ := h
    refine (if_neg ?_).trans (enqueue_of_room hroom)
    rw [hbase, hpitch, decide_eq_false (Nat.not_lt.2 hneed)]
    decide
  case mswp =>
    exact fun a => completes_onArray (fun f s => show _ = execMswp f s from rfl) (fun _ _ ⟨hdef, ha, _⟩ => ⟨hdef, ha⟩)
      fun _ _ ⟨_, _, hroom⟩ => enqueue_of_room hroom
  case mclr =>
    intro a
    refine completes_onArray (fun f s => show _ = execMclr f s from rfl) (fun c s ⟨⟨hdef, ha, _⟩, _⟩ => ⟨hdef, ha⟩) fun c s h => ?_
    obtain ⟨⟨_, _, hroom⟩, hanc, hpolicy, hunits, hgrant, hcount⟩ := h
    refine (if_neg ?legal).trans ((if_neg (count_bne_zero hcount)).trans ?_)
    case legal =>
      rw [hanc, hgrant]
      by_cases hf32 : c.f.m 0 0 = 1
      · obtain ⟨hfirst, hunits⟩ := hunits.resolve_left (by omega)
        simp [hf32, hfirst, hunits]
      · have hwide := hpolicy.resolve_left hf32
        cases hk : viewCfg a with
        | none => simp [hf32]
        | some k => simpa [hk, hf32] using hwide
    rw [hanc]
    exact enqueue_of_room hroom
  case anchored =>
    intro a k
    refine completes_onArray (fun f s => show _ = execMclr f s from rfl) (fun c s ⟨⟨⟨hdef, ha, _⟩, _⟩, _⟩ => ⟨hdef, ha⟩) fun c s h => ?_
    obtain ⟨⟨⟨_, _, hroom⟩, hk⟩, hanc, hwide, hpreset, hlo, hhi, hgrant, hcount⟩ := h
    refine (if_neg ?legal).trans ((if_neg (count_bne_zero hcount)).trans ?_)
    case legal => simp [hk, hanc, hwide, hpreset, hlo, hhi, hgrant]
    rw [hanc, hwide, hk]
    exact enqueue_of_room hroom
  case anchoredF32 =>
    refine traps_of (fun f s => show _ = execMclr f s from rfl) fun c s ⟨hdef, hanc, hf32⟩ => ?_
    cases ha : ownArray s c.w with
    | none => exact onArray_of_none hdef ha
    | some a => simp [onArray_of_own hdef ha, hanc, hf32, Act.illopnd]
  case rows =>
    intro a k
    refine mstr_completes (fun c s ⟨hconf, hchecks, hsp, _⟩ => ⟨hconf, hchecks, ?_⟩) fun c s ⟨_, _, hsp, hsrc⟩ => ?_
    · simp [hasSource, hsp]
    · rw [hsp, rowStream_of_no_queue hsrc]
      rfl
  case queue =>
    intro a k n sid
    refine mstr_completes (fun c s ⟨hconf, hchecks, _, hsrc, hsid, hamx, hzero⟩ => ⟨hconf, hchecks, ?_⟩)
      fun c s ⟨_, _, hsp, hsrc, hsid, hamx, _⟩ => ?_
    · simp [hasSource, rowStream_of_queue hsrc, hsid, hamx, hzero]
    · rw [hsp, rowStream_of_queue hsrc, hsid, scaleStream_of_not_amx hamx]
      rfl
  case scaled =>
    intro a k n sid sc
    refine mstr_completes (fun c s ⟨hconf, hchecks, _, hsrc, hsid, hamx, hsc⟩ => ⟨hconf, hchecks, ?_⟩)
      fun c s ⟨_, _, hsp, hsrc, hsid, hamx, hsc⟩ => ?_
    · simp [hasSource, rowStream_of_queue hsrc, hsid, hamx, scaleStream_of_amx hamx, hsc]
    · rw [hsp, rowStream_of_queue hsrc, hsid, scaleStream_of_amx hamx, hsc]
      rfl
  case mrd =>
    intro a k r
    refine completes_onConfig (fun f s => show _ = execMrd f s from rfl) (fun _ _ h => h.1) fun c s h => ?_
    obtain ⟨⟨⟨_, _, hroom⟩, _⟩, hd, hmode, haccs, heven, hbound, hfull, hpair⟩ := h
    -- The claim compares an output's bytes with 8 as a proposition, the model as a Boolean.
    simp only [← beq_iff_eq (b := 8)] at heven hbound hpair ⊢
    refine (if_neg ?legal).trans ?_
    case legal =>
      rw [haccs]
      simpa [imp_iff_not_or] using hmode
    rw [hd]
    refine (if_neg ?even).trans ((if_neg (Nat.not_lt.2 hbound)).trans ((if_neg ?free).trans ?_))
    case even => simpa using heven
    case free => simpa [hfull, arrQueueCap, hroom, imp_iff_not_or] using hpair
    exact enqueue_of_room (s := pendingLand (openLanding s.fresh.2 _ _ _ _ _ _) _) hroom
  case mst =>
    intro a k
    refine completes_onConfig (fun f s => show _ = execMst f s from rfl) (fun _ _ h => h.1) fun c s h => ?_
    obtain ⟨⟨⟨_, _, hroom⟩, _⟩, hmode, hsr, hdst, hpitch, haccs, houtst⟩ := h
    refine (if_neg ?legal).trans ((if_neg ?room).trans (enqueue_of_room hroom))
    case legal =>
      rw [hdst, hpitch, haccs]
      obtain hnearest | ⟨hsize, hrm⟩ := hsr
      · simpa [hnearest, imp_iff_not_or] using hmode
      · simp [hsize, hrm]
    case room =>
      rw [houtst]
      simpa [arrQueueCap] using hroom
  case mbnd =>
    intro a
    refine completes_onArray (fun f s => show _ = execMbnd f s from rfl) (fun c s ⟨hdef, ha, _⟩ => ⟨hdef, ha⟩) fun c s ⟨_, _, hempty⟩ => ?_
    simp [hempty]
  case mcfgNone => exact traps_of_noArray fun f s => show _ = execMcfg f s from rfl
  case mstNone => exact traps_of_noArray fun f s => show _ = execMst f s from rfl

end Sys2Proof.Claims
end

section
/-! SUPPORT. Nodes that `tnew` creates (O29): when a die's store has a slot to give, and what is answered to each kind of record. -/

namespace Sys2Proof.Machine

/-! ### Node slots (R300, R302) -/

/-- A die's store has a free slot as long as fewer than its slots are in use, and only then. -/
theorem freeSlot_eq_none {n start : Nat} {used : List Nat} : freeSlot n start used = none ↔ n ≤ used.length := by
  unfold freeSlot
  split
  case isTrue h => simpa using h
  case isFalse h =>
    refine iff_of_false (fun hnone => h ?_) h
    split at hnone
    · have hsub : List.range n ⊆ used := fun k hk => by simpa using List.find?_eq_none.1 hnone k hk
      simpa using (List.nodup_range.subperm hsub).length_le
    · cases hnone

/-- A slot that is given is one of the store's, and was free. -/
theorem freeSlot_eq_some {n start k : Nat} {used : List Nat} (hn : 0 < n) (h : freeSlot n start used = some k) :
    k < n ∧ used.contains k = false := by
  unfold freeSlot at h
  split at h
  · cases h
  · split at h
    · have hmem := List.mem_of_find?_eq_some h
      have hfree := List.find?_some h
      simp at hmem hfree
      simp [hmem, hfree]
    · rename_i hfree
      cases h
      exact ⟨Nat.mod_lt _ hn, by simpa using hfree⟩

/-- A context whose quota is used creates no node. -/
theorem addNode_of_quota {s : State} {x : Context} (n : Node)
    (h : x.quota ≤ (s.nodes.filter fun m => m.asid == x.asid && m.kind != .cont).length) : addNode s x n = none := by
  simp [addNode, h]

/-- The node that takes a slot of its queue's die. -/
def slotted (s : State) (x : Context) (n : Node) (slot : Nat) : Node :=
  { n with nid := s.nextId, die := queueDie x n.queue, slot := slot, tag := s.tagOf (queueDie x n.queue) slot }

/-- A node is created in the free slot of its die, where the context has quota left. -/
theorem addNode_of_room {s : State} {x : Context} (n : Node)
    (h : (s.nodes.filter fun m => m.asid == x.asid && m.kind != .cont).length < x.quota) :
    addNode s x n = (freeSlot Config.nodeSlots (Config.freeNat s.free) (usedSlots s (queueDie x n.queue))).map fun slot =>
      (slotted s x n slot, { s with free := s.free + 1, nextId := s.nextId + 1, nodes := s.nodes ++ [slotted s x n slot] }) := by
  simp only [addNode, ge_iff_le, Nat.not_le.2 h, if_false, State.takeFree]
  rw [show usedSlots { s with free := s.free + 1 } (queueDie x n.queue) = usedSlots s (queueDie x n.queue) from rfl]
  cases freeSlot Config.nodeSlots (Config.freeNat s.free) (usedSlots s (queueDie x n.queue)) <;> rfl

/-- A node of a context with quota left is refused where its die's store is full, and only there. -/
theorem addNode_eq_none {s : State} {x : Context} (n : Node)
    (h : (s.nodes.filter fun m => m.asid == x.asid && m.kind != .cont).length < x.quota) :
    addNode s x n = none ↔ Config.nodeSlots ≤ (usedSlots s (queueDie x n.queue)).length := by
  rw [addNode_of_room n h, Option.map_eq_none_iff, freeSlot_eq_none]

/-- A node that is created is the one given, in a slot that is free. -/
theorem addNode_eq_some {s t : State} {x : Context} {n m : Node} (h : addNode s x n = some (m, t)) : ∃ slot,
    m = slotted s x n slot ∧ t.nodes = s.nodes ++ [m] ∧ slot < Config.nodeSlots
      ∧ (usedSlots s (queueDie x n.queue)).contains slot = false := by
  by_cases hquota : (s.nodes.filter fun m => m.asid == x.asid && m.kind != .cont).length < x.quota
  · rw [addNode_of_room n hquota] at h
    obtain ⟨slot, hslot, heq⟩ := Option.map_eq_some_iff.1 h
    obtain ⟨hlt, hfree⟩ := freeSlot_eq_some (by decide) hslot
    cases heq
    exact ⟨slot, rfl, rfl, hlt, hfree⟩
  · rw [addNode_of_quota n (Nat.not_lt.1 hquota)] at h
    cases h

end Sys2Proof.Machine

namespace Sys2Proof.Claims

open Sys2Proof.Machine

/-! ### `tnew` (R302, R304) -/

/-- What a creation answers: the handle of its node, or NOSPACE. -/
def created (c : Ctx) (s : State) (x : Context) (n : Node) : State :=
  match addNode s x n with
  | none => c.putScalar s 1 (2 ^ 31 + 2)
  | some (m, t) => c.putScalar t 1 (handleOf m)

theorem newNode_eq (c : Ctx) (s : State) (x : Context) (n : Node) : newNode c s x n = .done (created c s x n) := by
  unfold newNode created
  cases addNode s x n <;> rfl

theorem created_of_none {c : Ctx} {s : State} {x : Context} {n : Node} (h : addNode s x n = none) :
    created c s x n = c.putScalar s 1 (2 ^ 31 + 2) := by
  rw [created, h]

theorem created_of_some {c : Ctx} {s t : State} {x : Context} {n m : Node} (h : addNode s x n = some (m, t)) :
    created c s x n = c.putScalar t 1 (handleOf m) := by
  rw [created, h]

/-- The queue is enabled and the record that `tnew` names is read. -/
abbrev RecordRead (c : Ctx) (s : State) (x : Context) (bs : List Byte) (u : State) : Prop :=
  s.ctx? c.w.asid = some x ∧ queueEnabled x c.vb.scalar.toNat = true ∧ c.va.scalar64 % 64 = 0 ∧ readOwn c s c.va.scalar64 64 = .ok bs u

/-- An effect that a condition makes another one. -/
theorem Completes.of_eq {i : Fields → Instr} {p q : Ctx → State → Prop} {g k : Ctx → State → State} (h : Completes i p g)
    (hq : ∀ c s, q c s → p c s ∧ g c s = k c s) : Completes i q k := by
  intro f s c hready hc
  obtain ⟨hp, heq⟩ := hq c (start s) hc
  rw [h f s c hready hp, heq]

section
variable (x : Context) (bs : List Byte) (u : State)

theorem tnew_of_kernel (tb : List Byte) (v : State) : Completes .tnew (fun c s => RecordRead c s x bs u ∧ c.f.m 1 0 = 0 ∧ launchOk bs = true
      ∧ readOwn c u (c.va.scalar64 + 64) (16 * (launchOf bs).tiles) = .ok tb v)
    fun c _ =>
      let tiles := (List.range (launchOf bs).tiles).map fun i => (tb.drop (16 * i)).take 16
      if tiles.all tileOk = false then c.putScalar v 1 (2 ^ 31 + 1)
      else if gangFits (launchOf bs) = false then c.putScalar v 1 (2 ^ 31 + 7)
      else created c v x { childNode c v c.vb.scalar.toNat .krn c.va.scalar64 (launchOf bs) with tileDescs := tiles } := by
  refine completes_of (fun f s => show _ = execTnew f s from rfl) fun c s ⟨⟨hx, hq, ha, hread⟩, hkind, hok, htiles⟩ => ?_
  simp only [hx, hq, ha, withRead, hread, hkind, hok, htiles, newNode_eq, bne_self_eq_false, Bool.not_true,
    Bool.not_eq_true', Bool.false_eq_true, if_false]
  split
  · rfl
  · split <;> rfl

theorem tnew_of_card : Completes .tnew (fun c s => RecordRead c s x bs u ∧ c.f.m 1 0 = 1 ∧ cardOk c.va.scalar64 bs [1, 2, 3, 4] = true)
    fun c _ => created c u x { childNode c u c.vb.scalar.toNat .eng c.va.scalar64 { prio := c.node.launch.prio } with card := bs } := by
  refine completes_of (fun f s => show _ = execTnew f s from rfl) fun c s ⟨⟨hx, hq, ha, hread⟩, hkind, hok⟩ => ?_
  simp [hx, hq, ha, withRead, hread, hkind, hok, newNode_eq]

theorem tnew_of_block : Completes .tnew (fun c s => RecordRead c s x bs u ∧ c.f.m 1 0 = 2 ∧ blockOk c.va.scalar64 bs = true)
    fun c _ => created c u x { childNode c u c.vb.scalar.toNat .red c.va.scalar64 { prio := c.node.launch.prio } with card := bs } := by
  refine completes_of (fun f s => show _ = execTnew f s from rfl) fun c s ⟨⟨hx, hq, ha, hread⟩, hkind, hok⟩ => ?_
  simp [hx, hq, ha, withRead, hread, hkind, hok, newNode_eq]

/-- A record, card or block that fails its checks is refused. -/
theorem tnew_of_bad : Completes .tnew (fun c s => RecordRead c s x bs u
      ∧ (c.f.m 1 0 = 0 ∧ launchOk bs = false ∨ c.f.m 1 0 = 1 ∧ cardOk c.va.scalar64 bs [1, 2, 3, 4] = false
        ∨ c.f.m 1 0 = 2 ∧ blockOk c.va.scalar64 bs = false)) fun c _ => c.putScalar u 1 (2 ^ 31 + 1) := by
  refine completes_of (fun f s => show _ = execTnew f s from rfl) fun c s ⟨⟨hx, hq, ha, hread⟩, hbad⟩ => ?_
  obtain ⟨hkind, hbad⟩ | ⟨hkind, hbad⟩ | ⟨hkind, hbad⟩ := hbad
  all_goals simp [hx, hq, ha, withRead, hread, hkind, hbad, failWord, fRECORD]

end

/-- Settles O29: what is read and checks gives a node by `addNode`, and each check that fails its own failure word. -/
theorem nodesAreCreated : Obligations.NodesAreCreated := by
  unfold Obligations.NodesAreCreated
  refine ⟨?kernel, ?card, ?block, ?queue, ?misaligned, ?bad, ?answers, ?full,
    fun s x n => addNode_eq_none n, fun s x n => addNode_of_quota n, ?slot⟩
  case kernel =>
    refine fun x bs u tb v n t => (tnew_of_kernel x bs u tb v).of_eq fun c s ⟨hx, hq, ha, hread, hkind, hok, htb, htiles, hgang, hadd⟩ =>
      ⟨⟨⟨hx, hq, ha, hread⟩, hkind, hok, htb⟩, ?_⟩
    simp only [htiles, hgang, created_of_some hadd, Bool.true_eq_false, if_false]
  case card =>
    exact fun x bs u n t => (tnew_of_card x bs u).of_eq fun c s ⟨hx, hq, ha, hread, hkind, hok, hadd⟩ =>
      ⟨⟨⟨hx, hq, ha, hread⟩, hkind, hok⟩, created_of_some hadd⟩
  case block =>
    exact fun x bs u n t => (tnew_of_block x bs u).of_eq fun c s ⟨hx, hq, ha, hread, hkind, hok, hadd⟩ =>
      ⟨⟨⟨hx, hq, ha, hread⟩, hkind, hok⟩, created_of_some hadd⟩
  case queue =>
    refine fun x => completes_of (fun f s => show _ = execTnew f s from rfl) fun c s ⟨hx, hq⟩ => ?_
    simp [hx, hq, failWord, fQUEUE]
  case misaligned =>
    refine fun x => completes_of (fun f s => show _ = execTnew f s from rfl) fun c s ⟨hx, hq, ha⟩ => ?_
    simp [hx, hq, ha, failWord, fRECORD]
  case bad =>
    exact fun x bs u => (tnew_of_bad x bs u).of_eq fun c s ⟨hx, hq, ha, hread, hbad⟩ => ⟨⟨⟨hx, hq, ha, hread⟩, hbad⟩, rfl⟩
  case answers =>
    exact fun x bs u tb v => (tnew_of_kernel x bs u tb v).of_eq fun c s ⟨hx, hq, ha, hread, hkind, hok, htb⟩ =>
      ⟨⟨⟨hx, hq, ha, hread⟩, hkind, hok, htb⟩, rfl⟩
  case full =>
    intro x bs u f s c h ⟨hx, hq, ha, hread, hfull⟩
    obtain ⟨hkind, hok, hadd⟩ | ⟨hkind, hok, hadd⟩ := hfull
    · exact (tnew_of_card x bs u f s c h ⟨⟨hx, hq, ha, hread⟩, hkind, hok⟩).trans
        (congrArg (fun t => Host.Outcome.next (ends c t)) (created_of_none hadd))
    · exact (tnew_of_block x bs u f s c h ⟨⟨hx, hq, ha, hread⟩, hkind, hok⟩).trans
        (congrArg (fun t => Host.Outcome.next (ends c t)) (created_of_none hadd))
  case slot =>
    intro s x n m t h
    obtain ⟨slot, rfl, hnodes, hlt, hfree⟩ := addNode_eq_some h
    exact ⟨hnodes, hlt, hfree, rfl, rfl, rfl⟩

end Sys2Proof.Claims
end

section
/-! SUPPORT. Edges, submission, grants, allocation and abort (O30, O31): each answer from the first check that fails. -/

namespace Sys2Proof.Machine

/-- Submitting a node gives it the next INDEX of its queue. -/
theorem submit_of_queue {s : State} {x : Context} {n : Node} {tq : TQueue} (h : x.queues[n.queue]? = some tq) :
    submit s x n = (let m := { n with index := some tq.next, stage := if n.preds.isEmpty then .ready else .waiting, readyAt := s.ns }
      (m, (s.setNode m).setCtx { x with queues := x.queues.set n.queue { tq with next := tq.next + 1 } })) := by
  simp only [submit, h]

/-- `tabort` of a task that owns no speculative version ends its children and then the task alone (R308). -/
theorem abortSelf_of_alone {s : State} {n : Node} (h : ∀ g, n.fam.bind s.fam? = some g → g.owner ≠ n.nid ∨ g.st = .direct) :
    abortSelf s n = abortAlone (abortChildren s n.nid) n := by
  unfold abortSelf
  cases hf : n.fam.bind s.fam? with
  | none => rfl
  | some g =>
    have hc : (g.owner == n.nid && g.st != .direct) = false := by simpa [imp_iff_not_or] using h g hf
    simp only [hc, Bool.false_eq_true, if_false]

/-- `tabort` of the owner of a version that has not committed discards the version, after its range masks are reported (R308). -/
theorem abortSelf_of_owner {s : State} {n : Node} {g : Family} (hf : n.fam.bind s.fam? = some g) (howner : g.owner = n.nid)
    (hst : g.st ≠ .direct) : abortSelf s n =
      (let t := s.cancelMembers n.nid n.fam
       let t := t.cancelNodes ((t.nodes.filter fun m => m.birth == some g.fid || (m.creator == some n.nid && m.stage == .unsubmitted)).map (·.nid))
       let t := (t.rangeRecs n.nid).foldl (fun t r => t.appendRec r .nothing) t
       ((t.dropWaves fun w => w.node == n.nid).discardFamily g.fid).setNode { n with fam := none, status := 1, stage := .complete }) := by
  have hc : (g.owner == n.nid && g.st != .direct) = true := by simp [howner, hst]
  simp only [abortSelf, hf, hc, if_true]

end Sys2Proof.Machine

namespace Sys2Proof.Claims

open Sys2Proof.Machine

/-! ### `tdep`, `tsub` and `tgrow` (R305 to R307, R309) -/

/-- DET admits the `tgrow` of no unit alone. -/
theorem not_growsUnderDet {c : Ctx} (h : c.det = false ∨ c.va.scalar = 0) : (c.det && c.va.scalar.toNat != 0) = false := by
  simpa [BitVec.toNat_eq, imp_iff_not_or] using h

/-- Settles O30: each answer is that of the first check that fails, or of none. -/
theorem nodesAreLinkedSubmittedAndGranted : Obligations.NodesAreLinkedSubmittedAndGranted := by
  unfold Obligations.NodesAreLinkedSubmittedAndGranted
  refine ⟨?edge, ?retired, ?order, ?bad, ?full, ?depHandle, ?submitted, ?window, ?subHandle, ?grown, ?grant, ?array⟩
  case edge =>
    refine fun m x p => completes_of (fun f s => show _ = execTdep f s from rfl) fun c s ⟨hm, hx, hp, hedge, hroom⟩ => ?_
    simp only [hm, hx, hp, hedge, ge_iff_le, Nat.not_le.2 hroom, Bool.false_eq_true, if_false]
  case retired =>
    refine fun m x => completes_of (fun f s => show _ = execTdep f s from rfl) fun c s ⟨hm, hx, hp⟩ => ?_
    simp only [hm, hx, hp]
  case order =>
    refine fun m x p => completes_of (fun f s => show _ = execTdep f s from rfl) fun c s ⟨hm, hx, hp, hedge⟩ => ?_
    simp only [hm, hx, hp, hedge, if_true, failWord, fORDER]
  case bad =>
    refine fun m x k => completes_of (fun f s => show _ = execTdep f s from rfl) fun c s ⟨hm, hx, hp⟩ => ?_
    simp only [hm, hx, hp, failWord]
  case full =>
    refine fun m x p => completes_of (fun f s => show _ = execTdep f s from rfl) fun c s ⟨hm, hx, hp, hedge, hfull⟩ => ?_
    simp only [hm, hx, hp, hedge, ge_iff_le, hfull, Bool.false_eq_true, if_false, if_true, failWord, fNOSPACE]
  case depHandle =>
    refine completes_of (fun f s => show _ = execTdep f s from rfl) fun c s hm => ?_
    simp only [hm, failWord, fHANDLE]
  case submitted =>
    refine fun m x tq => completes_of (fun f s => show _ = execTsub f s from rfl) fun c s ⟨hm, hx, hpreds, hroom, hq⟩ => ?_
    simp only [hm, hx, hpreds, ge_iff_le, Nat.not_le.2 hroom, submit_of_queue hq, Bool.false_eq_true, if_false]
  case window =>
    refine fun m x => completes_of (fun f s => show _ = execTsub f s from rfl) fun c s ⟨hm, hx, hpreds, hfull⟩ => ?_
    simp only [hm, hx, hpreds, ge_iff_le, hfull, Bool.false_eq_true, if_false, if_true, failWord, fWINDOW]
  case subHandle =>
    refine completes_of (fun f s => show _ = execTsub f s from rfl) fun c s hm => ?_
    simp only [hm, failWord, fHANDLE]
  case grown =>
    refine fun a => completes_of (fun f s => show _ = execTgrow f s from rfl) fun c s ⟨hdet, ha, hholder, hgrant, hfits⟩ => ?_
    simp [not_growsUnderDet hdet, ha, hholder, hgrant, hfits]
  case grant =>
    refine fun a => completes_of (fun f s => show _ = execTgrow f s from rfl) fun c s ⟨hdet, ha, hrefused⟩ => ?_
    have hno : (a.holder == c.w.node && a.grant ≥ 1
        && decide (unitsGranted s c.w.core c.w.quad + c.va.scalar.toNat ≤ Config.accUnits)) = false := by
      obtain hholder | hgrant | hover := hrefused
      · simp [hholder]
      · simp [hgrant]
      · simp [Nat.not_le.2 hover]
    simp only [not_growsUnderDet hdet, ha, hno, Bool.false_eq_true, if_false, failWord, fGRANT]
  case array =>
    refine completes_of (fun f s => show _ = execTgrow f s from rfl) fun c s ⟨hdet, ha⟩ => ?_
    simp only [not_growsUnderDet hdet, ha, Bool.false_eq_true, if_false, failWord, fGRANT]

/-! ### `talloc` and `tabort` (R308, R310, R328) -/

/-- Settles O31: `talloc` checks its turn before its address, and `tabort` of a task turns on whether the task owns a version that has
not committed. -/
theorem allocationAndAbortActOnTheTask : Obligations.AllocationAndAbortActOnTheTask := by
  unfold Obligations.AllocationAndAbortActOnTheTask
  refine ⟨?issued, ?turn, ?continuation, ?node, ?handle, ?alone, ?owner⟩
  case issued =>
    intro r f s c h ⟨hcont, hturn, hd, hmatch, halign, hcheck, hroom⟩
    rw [show exec (.talloc f) s = execTalloc f s from rfl, execTalloc, issueOr_ready h]
    have hturn : (c.det && !tallocTurn (start s) c.w) = false := by simpa [imp_iff_not_or] using hturn
    simp only [hcont, hturn, hmatch, halign, hcheck, hroom, hd, bne_self_eq_false, Bool.false_and, Bool.false_eq_true, if_false]
    rfl
  case turn =>
    intro f s c h ⟨hcont, hdet, hturn⟩
    rw [show exec (.talloc f) s = execTalloc f s from rfl, execTalloc, issueOr_ready h]
    simp only [hcont, hdet, hturn, Bool.not_false, Bool.and_self, Bool.false_eq_true, if_false, if_true]
    rfl
  case continuation =>
    intro f s c h hcont
    rw [show exec (.talloc f) s = execTalloc f s from rfl, execTalloc, issueOr_ready h]
    simp only [hcont, if_true]
    rfl
  case node =>
    refine fun n => completes_of (fun f s => show _ = execTabortNode f s from rfl) fun c s hn => ?_
    simp only [hn]
    rfl
  case handle =>
    refine completes_of (fun f s => show _ = execTabortNode f s from rfl) fun c s hn => ?_
    simp only [hn, failWord, fHANDLE]
  case alone =>
    intro f s c h halone hkind
    rw [show exec (.tabortSelf f) s = execTabortSelf f s from rfl, execTabortSelf, issue_ready h]
    have halone : ∀ g, (s.nodeOf c.w).fam.bind s.fam? = some g → g.owner ≠ (s.nodeOf c.w).nid ∨ g.st = .direct :=
      fun g hg => by simpa [hg] using halone
    have hself := abortSelf_of_alone (s := start s) halone
    rw [abortAlone, if_neg (by simpa using hkind)] at hself
    exact congrArg Host.Outcome.next hself
  case owner =>
    intro f s c g h hf howner hst
    rw [show exec (.tabortSelf f) s = execTabortSelf f s from rfl, execTabortSelf, issue_ready h]
    exact congrArg Host.Outcome.next (abortSelf_of_owner (s := start s) hf howner hst)

end Sys2Proof.Claims
end

section
/-! SUPPORT. What the part's own writes of memory, its event records and the release of units leave alone. -/

namespace Sys2Proof.Machine

/-! ### What the part's own writes of memory leave alone -/

/-- The machine without its memories, the lines at their homes and the state of the platform: what a write of the part's own, which
passes through those alone, leaves as it is. -/
def State.offMemory (s : State) : State :=
  { s with mem := [], homes := [], evicted := [], portWrites := [], parkedPuts := [], partWaits := [], plat := {} }

/-- What every step of a fold leaves alone, the whole fold leaves alone. -/
theorem offMemory_foldl {α : Type} {l : List α} {g : State → α → State} {s : State} (hg : ∀ s x, (g s x).offMemory = s.offMemory) :
    (l.foldl g s).offMemory = s.offMemory :=
  foldl_keeps (P := fun t : State => t.offMemory = s.offMemory) (fun t x h => (hg t x).trans h) l rfl

namespace State

theorem offMemory_noteTag (s : State) (pa : Nat) (bank : Bool) : (s.noteTag pa bank).offMemory = s.offMemory := by
  have ho := congrArg offMemory (noteTag_only s pa bank)
  exact ho

theorem offMemory_memPut (s : State) (pa : Nat) (bs : List Byte) (bank : Bool) : (s.memPut pa bs bank).offMemory = s.offMemory := by
  have ho := congrArg offMemory (memPut_only s pa bs bank)
  exact ho

theorem offMemory_noteWalk (s : State) (asid va : Nat) : (s.noteWalk asid va).offMemory = s.offMemory := by
  unfold noteWalk
  split
  · rfl
  · split
    · exact offMemory_foldl fun s pa => offMemory_noteTag s pa false
    · rfl

theorem offMemory_partTouch (s : State) (asid va : Nat) : (s.partTouch asid va).offMemory = s.offMemory := by
  unfold partTouch
  split
  · rfl
  · split
    · exact (offMemory_noteTag ..).trans (offMemory_noteWalk ..)
    · exact offMemory_noteWalk ..

theorem offMemory_writeCommitted (s : State) (asid va : Nat) (t : Trans) (bs : List Byte) :
    (s.writeCommitted asid va t bs).offMemory = s.offMemory := by
  unfold writeCommitted
  split
  · split
    · exact offMemory_memPut ..
    · dsimp only
      split
      · exact offMemory_memPut ..
      · rfl
  · exact offMemory_memPut ..

theorem offMemory_partWrite (s : State) (asid va : Nat) (bs : List Byte) : (s.partWrite asid va bs).offMemory = s.offMemory := by
  unfold partWrite
  split
  · rfl
  · refine (offMemory_foldl fun s ib => ?_).trans (offMemory_foldl fun s i => offMemory_partTouch s asid (va + i))
    split
    · exact offMemory_writeCommitted ..
    · rfl

theorem offMemory_evict (s : State) (h : HomeLine) : (s.evict h).offMemory = s.offMemory := by
  unfold evict writeBack
  split
  · exact offMemory_memPut ..
  · rfl

/-- Writes that a parked group has held back are writes of memory still (R461). -/
theorem offMemory_resumePuts (s : State) (p : Nat → Bool) : (s.resumePuts p).offMemory = s.offMemory :=
  offMemory_foldl (s := { s with parkedPuts := s.parkedPuts.filter fun x => !p x.1 }) fun _ _ => rfl

theorem offMemory_resumeWaits (s : State) : s.resumeWaits.offMemory = s.offMemory :=
  offMemory_foldl (s := { s with partWaits := [] }) fun s w => offMemory_partWrite s w.asid w.va w.bytes

theorem offMemory_raiseVector (s : State) (c : Context) : (s.raiseVector c).offMemory = s.offMemory := rfl

/-! ### What an event record, freed rays and freed nodes leave alone -/

/-- Event records change memory and the rings of their context alone (R322). -/
theorem flushEv_only (n asid : Nat) (s : State) : { (flushEv n s asid).offMemory with ctxs := s.ctxs } = s.offMemory := by
  have h : { (flushEv n s asid).offMemory with ctxs := [] } = { s.offMemory with ctxs := [] } := by
    induction n generalizing s with
    | zero => rfl
    | succ n ih =>
      unfold flushEv
      split
      · rfl
      · split
        · rfl
        · dsimp only
          have htouch (va : Nat) : { (s.partTouch asid va).offMemory with ctxs := [] } = { s.offMemory with ctxs := [] } :=
            congrArg (fun t : State => { t with ctxs := [] }) (offMemory_partTouch s asid va)
          have hput (t : State) (c : Context) (a : Nat) (bs : List Byte) (b : Nat) (ds : List Byte) :
              { (((t.setCtx c).partWrite asid a bs).partWrite asid b ds).offMemory with ctxs := [] } = { t.offMemory with ctxs := [] } :=
            congrArg (fun t : State => { t with ctxs := [] }) ((offMemory_partWrite ..).trans (offMemory_partWrite (t.setCtx c) asid a bs))
          split
          · exact htouch _
          · rw [ih]
            split
            · exact (hput ..).trans (htouch _)
            · exact (hput ..).trans (htouch _)
  have hs := congrArg (fun t : State => { t with ctxs := s.ctxs }) h
  exact hs

theorem appendEv_only (s : State) (asid : Nat) (r : List Byte) : { (s.appendEv asid r).offMemory with ctxs := s.ctxs } = s.offMemory := by
  unfold appendEv
  split
  · rfl
  · exact congrArg (fun t : State => { t with ctxs := s.ctxs }) (flushEv_only _ asid (s.setCtx _))

/-- Freeing rays changes memory and the rays alone (R378). -/
theorem freeRays_only (s : State) (p : Ray → Bool) : { (s.freeRays p).offMemory with rays := s.rays } = s.offMemory := by
  have h : ((s.rays.filter p).foldl (fun s r => match s.ctx? r.asid with
      | some c => s.partWrite r.asid (c.raybase + 0x400 + 4 * r.num) (leBytes 4 0xFFFFFFFF)
      | none => s) s).offMemory = s.offMemory := by
    refine offMemory_foldl fun s r => ?_
    split
    · exact offMemory_partWrite ..
    · rfl
  exact congrArg (fun t : State => { t with rays := s.rays }) h

/-- Where there is no ray, nothing is written for one. -/
theorem freeRays_of_nil {s : State} (p : Ray → Bool) (h : s.rays = []) : s.freeRays p = s := by
  simp only [freeRays, h, List.filter_nil, List.foldl_nil]
  rw [← h]

/-- Releasing units changes memory and what the units hold alone (R254, R276, R354, R372, R378). -/
theorem releaseUnits_only (s : State) (gone : Nat → Bool) : { (s.releaseUnits gone).offMemory with
    rays := s.rays, arrays := s.arrays, pchs := s.pchs, bcmds := s.bcmds, entries := s.entries, jobs := s.jobs } = s.offMemory :=
  congrArg (fun t : State => { t with arrays := s.arrays, pchs := s.pchs, bcmds := s.bcmds, entries := s.entries, jobs := s.jobs })
    (freeRays_only s _)

end State

end Sys2Proof.Machine
end

section
/-! SUPPORT. The Puppeteers (O42): one equation for each case in which an event is due, and what a retirement leaves. -/

namespace Sys2Proof.Machine

/-! ### Records (R322) -/

/-- A number that is written at the head of some bytes is read there. -/
theorem bytesNat_head (n v : Nat) (l : List Byte) : bytesNat (leBytes n v ++ l) 0 n = v % 256 ^ n := by
  rw [bytesNat, List.drop_zero, List.take_left' (leBytes_length n v), leNat_leBytes]

/-- What is read behind some bytes is read in what follows them. -/
theorem bytesNat_tail {bs l : List Byte} {i : Nat} (n : Nat) (h : bs.length ≤ i) : bytesNat (bs ++ l) i n = bytesNat l (i - bs.length) n := by
  rw [bytesNat, bytesNat, List.drop_append, List.drop_of_length_le h, List.nil_append]

/-- The fields of a record lie where R322 has them. -/
theorem fields_eventBytes (task status flags kind time source reruns : Nat) :
    let r := State.eventBytes task status flags kind time source reruns
    r.length = 32 ∧ bytesNat r 0 4 = task % 2 ^ 32 ∧ bytesNat r 4 2 = status % 2 ^ 16 ∧ bytesNat r 6 1 = flags % 2 ^ 8
      ∧ bytesNat r 7 1 = kind % 2 ^ 8 ∧ bytesNat r 8 8 = time % 2 ^ 64 ∧ bytesNat r 0x10 8 = source % 2 ^ 64
      ∧ bytesNat r 0x18 2 = reruns % 2 ^ 16 ∧ bytesNat r 0x1A 6 = 0 := by
  have hlast : bytesNat (leBytes 6 0) 0 6 = 0 := by decide
  simp [State.eventBytes, List.append_assoc, bytesNat_tail, bytesNat_head, hlast]

/-! ### Ring slots (R451, R454) -/

/-- How far a ring's doorbell is ahead of the slot that the part reads next. -/
def ringAhead (r : Ring) : Nat := (r.door + 2 ^ 32 - r.next) % 2 ^ 32

theorem execRingSlotRead_eq {asid q : Nat} {s : State} {c : Context} {r : Ring} (hc : s.ctx? asid = some c) (hr : c.rings[q]? = some r) :
    execRingSlotRead asid q s = .next (if queueEnabled c q && !r.overrun && ringAhead r != 0 && decide (ringAhead r < 2 ^ 31)
      && ctxRuns s asid && !mustRerun s asid && !s.anyParked then readSlot s c q r else s) := by
  rw [execRingSlotRead, hc]
  dsimp -zeta only
  rw [hr]
  rfl

theorem execRingSlotRead_of_ahead {asid q : Nat} {s : State} {c : Context} {r : Ring} (hc : s.ctx? asid = some c) (hr : c.rings[q]? = some r)
    (hq : queueEnabled c q = true) (hover : r.overrun = false) (hne : ringAhead r ≠ 0) (hlt : ringAhead r < 2 ^ 31)
    (hruns : ctxRuns s asid = true) (hrerun : mustRerun s asid = false) (hpark : s.anyParked = false) :
    execRingSlotRead asid q s = .next (readSlot s c q r) := by
  rw [execRingSlotRead_eq hc hr, hq, hover, bne_iff_ne.2 hne, decide_eq_true hlt, hruns, hrerun, hpark]
  rfl

/-- A slot is refused where its number is not the next, and otherwise its packet is accepted where there is room. -/
theorem readSlot_eq (s : State) (c : Context) (q : Nat) (r : Ring) : readSlot s c q r =
    (let p := physBytes s (r.base + 128 * (r.next % r.slots)) 128
     let u := touchSource (physTouch s (r.base + 128 * (r.next % r.slots)) 128) c p
     if leNat (p.take 4) ≠ r.next then u.setCtx { c with rings := c.rings.set q { r with overrun := true } }
     else (acceptPacket u c q r p).getD u) := by
  unfold readSlot
  dsimp only
  generalize physBytes s (r.base + 128 * (r.next % r.slots)) 128 = p
  rw [show bytesNat p 0 4 = leNat (p.take 4) from rfl]
  by_cases h : leNat (p.take 4) = r.next
  · rw [if_neg (by simpa using h), if_neg (not_not.2 h)]
  · rw [if_pos (by simpa using h), if_pos h]

theorem execRingSlotRead_of_rerun {asid : Nat} {s : State} (q : Nat) (h : mustRerun s asid = true) : execRingSlotRead asid q s = .next s := by
  cases hc : s.ctx? asid with
  | none => simp only [execRingSlotRead, hc]
  | some c => cases hr : c.rings[q]? with
    | none => simp only [execRingSlotRead, hc, hr]
    | some r => simp [execRingSlotRead_eq hc hr, h]

/-! ### Dispatch and placement (R311, R313) -/

theorem execNodeDispatch_of_served {nid : Nat} {s : State} {n : Node} (hn : s.node? nid = some n) (hmay : mayDispatch s n = true)
    (hcan : canServe s n = true) (hfirst : firstServed s n = true) : execNodeDispatch nid s = .next (dispatchNode s n) := by
  simp only [execNodeDispatch, hn, hmay, hcan, hfirst, Bool.and_self, if_true]

theorem execNodeDispatch_of_not_served {nid : Nat} {s : State} {n : Node} (hn : s.node? nid = some n)
    (h : mayDispatch s n = false ∨ canServe s n = false ∨ firstServed s n = false) : execNodeDispatch nid s = .next s := by
  have hno : (mayDispatch s n && canServe s n && firstServed s n) = false := by
    obtain h | h | h := h <;> simp [h]
  simp only [execNodeDispatch, hn, hno, Bool.false_eq_true, if_false]

theorem execNodePassedOver_of_due {nid : Nat} {s : State} {n : Node} (hn : s.node? nid = some n) (hmay : mayDispatch s n = true)
    (hdue : n.readyAt + Config.passedOverNs ≤ s.ns) : execNodePassedOver nid s = .next (s.setNode { n with passed := true }) := by
  simp only [execNodePassedOver, hn, hmay, ge_iff_le, decide_eq_true hdue, Bool.and_self, if_true]

theorem execWavePlacement_of_quad {nid core quad : Nat} {s : State} {n : Node} (hn : s.node? nid = some n) (hkind : n.kind = .krn)
    (hstage : n.stage = .running) (hgang : n.launch.gang = false) (hplaced : n.placed < n.launch.waves) (hplaces : ctxPlaces s n.asid = true)
    (hres : reserved s n.die (some n.nid) = false) (hquad : bestQuad s n n.die = some (core, quad)) :
    execWavePlacement nid s = .next (placeWave s n core quad) := by
  simp [execWavePlacement, hn, hkind, hstage, hgang, hplaced, hplaces, hres, hquad]

@[simp] theorem giveSpad_waves (s : State) (n : Node) (core : Nat) : (giveSpad s n core).waves = s.waves := by
  unfold giveSpad
  split <;> rfl

@[simp] theorem giveGrant_waves (s : State) (n : Node) (core quad bank : Nat) : (giveGrant s n core quad bank).waves = s.waves := by
  unfold giveGrant
  split <;> rfl

/-- The wave that a placement adds (R92, R313). -/
def nextWave (s : State) (n : Node) (core quad : Nat) : Wave :=
  newWave n s.nextId s.cc n.placed core quad (activeBank s core quad) ((freeSlot Config.slots (Config.freeNat s.free)
    ((bankWaves s core quad (activeBank s core quad)).map (·.slot))).getD 0) n.startMark

theorem placeWave_waves (s : State) (n : Node) (core quad : Nat) : (placeWave s n core quad).waves = s.waves ++ [nextWave s n core quad] := by
  simp only [placeWave, giveGrant_waves, giveSpad_waves]
  rfl

/-- The lanes of wave j of n indices that have an index (R92). -/
theorem getLsbD_initExec (count j : Nat) {l : Nat} (hl : l < 32) : (initExec count j).getLsbD l = decide (32 * j + l < count) := by
  rw [initExec, maskOf_getLsbD, decide_eq_true hl, Bool.true_and]

/-- A wave starts with its task's arguments in s0 and s1, the registers of its record, and its lanes in `exec` (R92). -/
theorem newWave_start (n : Node) (wid age j core quad bank slot mark : Nat) : let w := newWave n wid age j core quad bank slot mark
    w.s.length = 64 ∧ w.s.getD 0 0 = n.launch.args.extractLsb' 0 32 ∧ w.s.getD 1 0 = n.launch.args.extractLsb' 32 32
      ∧ w.allot = 16 * n.launch.regs ∧ (n.kind ≠ .cont → w.exec = initExec n.launch.count j) := by
  refine ⟨by simp [newWave], ?_, ?_, by simp [newWave, Wave.allot], fun hkind => by simp [newWave, hkind]⟩
  · refine BitVec.eq_of_toNat_eq ?_
    simp [newWave]
  · refine BitVec.eq_of_toNat_eq ?_
    simp [newWave, Nat.shiftRight_eq_div_pow]

/-! ### Commits (R321, R323) -/

theorem execHoldCommit_of_hold {fid : Nat} {s : State} {f : Family} {o : Node} (hf : s.fam? fid = some f) (ho : s.node? f.owner = some o)
    (hst : f.st = .hold) (hold : isOldest s o = true) (hstop : queueStopped s o.asid o.queue = false) (hruns : ctxRuns s o.asid = true)
    (hpark : s.anyParked = false) : execHoldCommit fid s = .next (goDirect (commitFam s f) f.fid) := by
  simp [execHoldCommit, hf, ho, hst, hold, hstop, hruns, hpark]

theorem execHoldCommit_of_not_hold {fid : Nat} {s : State} {f : Family} (hf : s.fam? fid = some f) (hst : f.st ≠ .hold) :
    execHoldCommit fid s = .next s := by
  simp only [execHoldCommit, hf, bne_iff_ne.2 hst, Bool.true_or, if_true]
  split <;> rfl

/-- A committed byte has a GWCT no earlier than those before it. -/
theorem le_commitByte (asid : Nat) (r : State × Nat) (x : Nat × Byte) : r.2 ≤ (commitByte asid r x).2 := by
  unfold commitByte
  split
  · exact le_max_left ..
  · split
    · exact le_max_left ..
    · exact le_rfl

theorem le_foldl_commitByte (asid : Nat) (l : List (Nat × Byte)) (r : State × Nat) : r.2 ≤ (l.foldl (commitByte asid) r).2 :=
  foldl_keeps (P := fun t : State × Nat => r.2 ≤ t.2) (fun t x h => h.trans (le_commitByte asid t x)) l le_rfl

/-- A family that commits in HOLD is DIRECT with nothing left to commit, and holds its writes until the clock has passed the commit. -/
theorem fams_goDirect_commitFam {s : State} {f g : Family} (hg : g ∈ (goDirect (commitFam s f) f.fid).fams) (hfid : g.fid = f.fid) :
    g.st = .direct ∧ g.writes = [] ∧ g.committed = true ∧ s.ns + 2 ≤ g.holdTo := by
  have hle := le_foldl_commitByte f.asid f.writes (s, s.ns)
  simp only [goDirect, commitFam, State.setFam, modify, List.map_map, List.mem_map, Function.comp] at hg
  obtain ⟨x, -, rfl⟩ := hg
  by_cases hx : x.fid = f.fid
  · simpa [hx] using hle
  · simp [hx] at hfid

/-! ### Retirement (R321, R322) -/

/-- A task of whose waves none is left retires in its turn, unless something stops its queue. -/
theorem execTaskRetirement_of_due {asid q : Nat} {s : State} {n : Node} {c : Context} (hn : oldestNode s.settle asid q = some n)
    (hc : s.settle.ctx? asid = some c) (hstage : n.stage = .complete) (hstop : queueStopped s.settle asid q = false)
    (hruns : ctxRuns s.settle asid = true) (hpark : s.settle.anyParked = false)
    (hwaves : (s.settle.waves.any fun w => w.node == n.nid) = false) : execTaskRetirement asid q s = .next
      (if versionWork s.settle n then settleVersion s.settle n
       else if versionSettled s.settle n && s.settle.evRoom c then retireNode s.settle n else s.settle) := by
  have hno : (n.stage != .complete || queueStopped s.settle asid q || !ctxRuns s.settle asid || s.settle.anyParked
      || s.settle.waves.any fun w => w.node == n.nid) = false := by simp [hstage, hstop, hruns, hpark, hwaves]
  simp only [execTaskRetirement, hn, hc, hno, Bool.false_eq_true, if_false]
  split <;> rfl

/-- A node's successors wait for it no more. -/
theorem State.notMem_preds_releaseDependents {s : State} {nid : Nat} {m : Node} (h : m ∈ (s.releaseDependents nid).nodes) : nid ∉ m.preds := by
  obtain ⟨x, -, rfl⟩ := List.mem_map.1 h
  dsimp only
  split <;> simp

/-- A node that waits for one predecessor alone is ready once that is released. -/
theorem State.ready_releaseDependents {s : State} {nid : Nat} {m : Node} (hm : m ∈ s.nodes) (hst : m.stage = .waiting)
    (hpreds : ∀ p ∈ m.preds, p = nid) : { m with preds := [], stage := .ready, readyAt := s.ns } ∈ (s.releaseDependents nid).nodes := by
  have hnil : (m.preds.filter fun p => p != nid) = [] := by simpa [List.filter_eq_nil_iff] using hpreds
  exact List.mem_map.2 ⟨m, hm, by simp [hnil, hst]⟩

/-- Freeing a node takes it out of the list of nodes, and leaves the families and the others alone (R301). -/
theorem State.freeNode_nodes (s : State) (n : Node) : (s.freeNode n).nodes = s.nodes.filter fun x => x.nid != n.nid := by
  have ho := congrArg State.nodes (s.releaseUnits_only fun x => x == n.nid)
  exact congrArg (List.filter fun x => x.nid != n.nid) ho

theorem State.freeNode_fams (s : State) (n : Node) : (s.freeNode n).fams = s.fams := by
  have ho := congrArg State.fams (s.releaseUnits_only fun x => x == n.nid)
  exact ho

/-- Where there is no ray, freeing a node writes nothing. -/
theorem State.freeNode_mem_homes {s : State} (n : Node) (h : s.rays = []) : (s.freeNode n).mem = s.mem ∧ (s.freeNode n).homes = s.homes := by
  unfold freeNode releaseUnits
  rw [s.freeRays_of_nil _ h]
  exact ⟨rfl, rfl⟩

/-- The completion record of a task (R322). -/
def completion (s : State) (n : Node) : List Byte :=
  State.eventBytes (State.taskId n) n.status (n.redoFlags % 128) (recordKind n) s.ns n.source n.checked

/-- A member of a family that the owner's retirement ends belongs to none any more (R330). -/
def settledMember (s : State) (nid : Nat) (m : Node) : Node :=
  if (match m.fam with | some f => (ownFams s nid).contains f | none => false) then { m with fam := none, birth := none, settled := true }
  else m

/-- The state once the record of a retirement is appended and the families of its task have ended. -/
def recorded (s : State) (n : Node) : State :=
  let u := s.appendEv n.asid (completion s n)
  { u with fams := u.fams.filter fun x => x.owner != n.nid, nodes := u.nodes.map (settledMember u n.nid) }

/-- After its record a retirement releases the dependents and frees the node, and the context's watchdog starts anew. -/
theorem retireNode_only (s : State) (n : Node) :
    { retireNode s n with ctxs := (((recorded s n).releaseDependents n.nid).freeNode n).ctxs }
      = ((recorded s n).releaseDependents n.nid).freeNode n := by
  have h : retireNode s n = (let v := ((recorded s n).releaseDependents n.nid).freeNode n
    match v.ctx? n.asid with | some c => v.setCtx { c with wdFrom := v.ns } | none => v) := rfl
  rw [h]
  generalize ((recorded s n).releaseDependents n.nid).freeNode n = v
  dsimp only
  split <;> rfl

theorem retireNode_nodes (s : State) (n : Node) :
    (retireNode s n).nodes = ((recorded s n).releaseDependents n.nid).nodes.filter fun x => x.nid != n.nid := by
  rw [← State.freeNode_nodes, ← retireNode_only]

theorem retireNode_fams (s : State) (n : Node) :
    (retireNode s n).fams = (s.appendEv n.asid (completion s n)).fams.filter fun x => x.owner != n.nid := by
  have h := congrArg State.fams (retireNode_only s n)
  exact h.trans (State.freeNode_fams ..)

/-- The nodes that stay wait for the retired one no more. -/
theorem mem_retireNode {s : State} {n m : Node} (h : m ∈ (retireNode s n).nodes) : m.nid ≠ n.nid ∧ n.nid ∉ m.preds := by
  rw [retireNode_nodes] at h
  obtain ⟨hmem, hne⟩ := List.mem_filter.1 h
  exact ⟨by simpa using hne, State.notMem_preds_releaseDependents hmem⟩

/-- A node that waited for the retired one alone is ready at once. -/
theorem ready_retireNode {s : State} {n m : Node} (hm : m ∈ s.nodes) (hne : m.nid ≠ n.nid) (hst : m.stage = .waiting)
    (hpreds : ∀ p ∈ m.preds, p = n.nid) : ∃ d ∈ (retireNode s n).nodes, d.nid = m.nid ∧ d.stage = .ready ∧ d.readyAt = s.ns := by
  have honly := s.appendEv_only n.asid (completion s n)
  have hnodes : (s.appendEv n.asid (completion s n)).nodes = s.nodes := by
    have ho := congrArg State.nodes honly
    exact ho
  have hns : (recorded s n).ns = s.ns := by
    have ho := congrArg State.ns honly
    exact ho
  have hkeep (u : State) : (settledMember u n.nid m).nid = m.nid ∧ (settledMember u n.nid m).stage = m.stage
      ∧ (settledMember u n.nid m).preds = m.preds := by
    unfold settledMember
    split <;> split <;> exact ⟨rfl, rfl, rfl⟩
  obtain ⟨hnid, hstage, hp⟩ := hkeep (s.appendEv n.asid (completion s n))
  have hrec : settledMember (s.appendEv n.asid (completion s n)) n.nid m ∈ (recorded s n).nodes :=
    List.mem_map.2 ⟨m, hnodes ▸ hm, rfl⟩
  have hready := State.ready_releaseDependents hrec (hstage.trans hst) (hp ▸ hpreds)
  rw [retireNode_nodes]
  exact ⟨_, List.mem_filter.2 ⟨hready, by simpa [hnid] using hne⟩, hnid, rfl, hns⟩

/-- Where there is no ray, a retirement writes its record alone. -/
theorem retireNode_mem_homes {s : State} {n : Node} (h : s.rays = []) : (retireNode s n).mem = (s.appendEv n.asid (completion s n)).mem
    ∧ (retireNode s n).homes = (s.appendEv n.asid (completion s n)).homes := by
  have hrays : ((recorded s n).releaseDependents n.nid).rays = [] := by
    have ho := congrArg State.rays (s.appendEv_only n.asid (completion s n))
    exact ho.trans h
  obtain ⟨hmem, hhomes⟩ := State.freeNode_mem_homes n hrays
  have hm := congrArg State.mem (retireNode_only s n)
  have hh := congrArg State.homes (retireNode_only s n)
  exact ⟨hm.trans hmem, hh.trans hhomes⟩

end Sys2Proof.Machine

namespace Sys2Proof.Claims

open Sys2Proof.Machine

/-- Settles O42: each event by the equation of the case in which it is due, and a retirement by the state that its record leaves. -/
theorem puppeteersRunTheTaskGraph : Obligations.PuppeteersRunTheTaskGraph := by
  unfold Obligations.PuppeteersRunTheTaskGraph
  refine ⟨?slot, fun _ q _ => execRingSlotRead_of_rerun q, fun _ _ _ => execNodeDispatch_of_served, fun _ _ _ => execNodeDispatch_of_not_served
    , fun _ _ _ _ _ => execWavePlacement_of_quad, ?start, fun _ _ _ => execNodePassedOver_of_due, fun _ _ _ _ => execHoldCommit_of_hold, ?direct
    , fun _ _ _ => execHoldCommit_of_not_hold, ?settle, ?retire, ?retired, fields_eventBytes⟩
  case slot =>
    intro asid q s c r hc hr hq hover hne hlt hruns hrerun hpark
    rw [← readSlot_eq]
    exact execRingSlotRead_of_ahead hc hr hq hover hne hlt hruns hrerun hpark
  case start =>
    intro s n core quad
    obtain ⟨hlen, h0, h1, hallot, hexec⟩ := newWave_start n s.nextId s.cc n.placed core quad (activeBank s core quad) ((freeSlot Config.slots
      (Config.freeNat s.free) ((bankWaves s core quad (activeBank s core quad)).map (·.slot))).getD 0) n.startMark
    refine ⟨nextWave s n core quad, placeWave_waves .., rfl, rfl, rfl, rfl, rfl, hlen, h0, h1, hallot, fun hkind l hl => ?_⟩
    exact (congrArg (fun m : Word => m.getLsbD l) (hexec hkind)).trans (getLsbD_initExec n.launch.count n.placed hl)
  case direct => exact fun s f => ⟨rfl, fun g hg hfid => fams_goDirect_commitFam hg hfid⟩
  case settle =>
    intro asid q s n c hn hc hstage hstop hruns hpark hwaves hwork
    refine (execTaskRetirement_of_due hn hc hstage hstop hruns hpark hwaves).trans ?_
    rw [if_pos hwork]
  case retire =>
    intro asid q s n c hn hc hstage hstop hruns hpark hwaves hwork hsettled hroom
    refine (execTaskRetirement_of_due hn hc hstage hstop hruns hpark hwaves).trans ?_
    rw [hwork, hsettled, hroom]
    rfl
  case retired =>
    refine fun s n => ⟨fun m hm => mem_retireNode hm, fun m hm hne hst hpreds => ready_retireNode hm hne hst hpreds, fun f hf => ?_,
      fun hrays => retireNode_mem_homes hrays⟩
    rw [retireNode_fams] at hf
    simpa using (List.mem_filter.1 hf).2

end Sys2Proof.Claims
end

section
/-! SUPPORT. What ends with a task leaves the cores' copies alone and adds none, through records and machine checks. -/

namespace Sys2Proof.Machine

/-! ### What the release of units leaves of waves, accesses and arrays -/

/-- A state in which units have given up what they held, and nodes their slots, as far as waves, accesses, arrays and the copies of the
cores go: only arrays are gone. -/
structure Releases (s t : State) : Prop where
  waves : t.waves = s.waves
  accs : t.accs = s.accs
  arrays : ∀ a ∈ t.arrays, a ∈ s.arrays
  deadCores : t.deadCores = s.deadCores
  l1 : t.l1 = s.l1
  ilines : t.ilines = s.ilines

theorem Releases.refl (s : State) : Releases s s := ⟨rfl, rfl, fun _ h => h, rfl, rfl, rfl⟩

theorem Releases.trans {s t u : State} (h : Releases s t) (k : Releases t u) : Releases s u :=
  ⟨k.waves.trans h.waves, k.accs.trans h.accs, fun a ha => h.arrays a (k.arrays a ha), k.deadCores.trans h.deadCores, k.l1.trans h.l1,
    k.ilines.trans h.ilines⟩

theorem Releases.foldl {α : Type} {g : State → α → State} (h : ∀ s x, Releases s (g s x)) (l : List α) (s : State) :
    Releases s (l.foldl g s) :=
  foldl_keeps (P := Releases s) (fun t x ht => ht.trans (h t x)) l (.refl s)

theorem Releases.freeRays (s : State) (p : Ray → Bool) : Releases s (s.freeRays p) where
  waves := (congrArg State.waves (s.freeRays_only p) :)
  accs := (congrArg State.accs (s.freeRays_only p) :)
  arrays _ ha := (congrArg State.arrays (s.freeRays_only p) :) ▸ ha
  deadCores := (congrArg State.deadCores (s.freeRays_only p) :)
  l1 := (congrArg State.l1 (s.freeRays_only p) :)
  ilines := (congrArg State.ilines (s.freeRays_only p) :)

theorem Releases.releaseUnits (s : State) (gone : Nat → Bool) : Releases s (s.releaseUnits gone) := by
  have h := Releases.freeRays s (State.rayGone gone)
  exact ⟨h.waves, h.accs, fun a ha => h.arrays a (List.mem_of_mem_filter ha), h.deadCores, h.l1, h.ilines⟩

theorem Releases.freeNode (s : State) (n : Node) : Releases s (s.freeNode n) := by
  have h := Releases.releaseUnits s fun x => x == n.nid
  exact ⟨h.waves, h.accs, h.arrays, h.deadCores, h.l1, h.ilines⟩

theorem Releases.endHolding (s : State) (nid : Nat) : Releases s (s.endHolding nid) := by
  unfold State.endHolding
  split
  · split
    · have h := Releases.releaseUnits s fun x => x == nid
      exact ⟨h.waves, h.accs, h.arrays, h.deadCores, h.l1, h.ilines⟩
    · exact .refl s
  · exact .refl s

theorem Releases.markDone (s : State) (n : Node) : Releases s (s.markDone n) := by
  unfold State.markDone
  split
  · exact .freeNode s n
  · have h := Releases.releaseUnits s fun x => x == n.nid
    exact ⟨h.waves, h.accs, h.arrays, h.deadCores, h.l1, h.ilines⟩

theorem Releases.settle (s : State) : Releases s s.settle := by
  have h (k : Nat) (s : State) : Releases s (State.settleN k s) := by
    induction k generalizing s with
    | zero => exact .refl s
    | succ k ih =>
      unfold State.settleN
      split
      · exact (Releases.markDone s _).trans (ih _)
      · exact .refl s
  exact h s.nodes.length s

/-! ### What the end of a task leaves of the cores' copies -/

/-- A state in which no core has stopped and no core has a copy or an instruction line that it had not before. -/
structure NoFills (s t : State) : Prop where
  deadCores : t.deadCores = s.deadCores
  l1 : ∀ x ∈ t.l1, x ∈ s.l1
  ilines : ∀ x ∈ t.ilines, x ∈ s.ilines

theorem NoFills.refl (s : State) : NoFills s s := ⟨rfl, fun _ h => h, fun _ h => h⟩

theorem NoFills.trans {s t u : State} (h : NoFills s t) (k : NoFills t u) : NoFills s u :=
  ⟨k.deadCores.trans h.deadCores, fun x hx => h.l1 x (k.l1 x hx), fun x hx => h.ilines x (k.ilines x hx)⟩

theorem NoFills.foldl {α : Type} {g : State → α → State} (h : ∀ s x, NoFills s (g s x)) (l : List α) (s : State) : NoFills s (l.foldl g s) :=
  foldl_keeps (P := NoFills s) (fun t x ht => ht.trans (h t x)) l (.refl s)

theorem Releases.noFills {s t : State} (h : Releases s t) : NoFills s t := ⟨h.deadCores, fun _ hx => h.l1 ▸ hx, fun _ hx => h.ilines ▸ hx⟩

/-- A change of other fields fills nothing. -/
theorem NoFills.of_eq {s t : State} (hd : t.deadCores = s.deadCores) (hl : t.l1 = s.l1) (hi : t.ilines = s.ilines) : NoFills s t :=
  ⟨hd, fun _ hx => hl ▸ hx, fun _ hx => hi ▸ hx⟩

/-- A write of the part's own fills nothing. -/
theorem NoFills.of_offMemory {s t : State} (h : t.offMemory = s.offMemory) : NoFills s t :=
  ⟨(congrArg State.deadCores h :), fun _ hx => (congrArg State.l1 h :) ▸ hx, fun _ hx => (congrArg State.ilines h :) ▸ hx⟩

theorem NoFills.setNode (s : State) (n : Node) : NoFills s (s.setNode n) := .of_eq rfl rfl rfl

theorem NoFills.setCtx (s : State) (c : Context) : NoFills s (s.setCtx c) := .of_eq rfl rfl rfl

theorem NoFills.releaseDependents (s : State) (nid : Nat) : NoFills s (s.releaseDependents nid) := .of_eq rfl rfl rfl

theorem NoFills.stopWaves (s : State) (p : Nat → Bool) : NoFills s (s.stopWaves p) := .of_eq rfl rfl rfl

theorem NoFills.releaseUnits (s : State) (gone : Nat → Bool) : NoFills s (s.releaseUnits gone) := (Releases.releaseUnits s gone).noFills

theorem NoFills.dropWaves (s : State) (p : Wave → Bool) : NoFills s (s.dropWaves p) := by
  have h := NoFills.releaseUnits s fun n => ((s.waves.filter p).map (·.node)).contains n
  exact ⟨h.deadCores, h.l1, h.ilines⟩

theorem NoFills.cancelNodes (s : State) (ids : List Nat) : NoFills s (s.cancelNodes ids) := by
  unfold State.cancelNodes
  have h := NoFills.dropWaves s fun w => ids.contains w.node
  generalize s.dropWaves (fun w => ids.contains w.node) = t at h ⊢
  refine h.trans (.foldl (fun s n => ?_) _ t)
  exact (NoFills.releaseDependents s n.nid).trans (Releases.freeNode _ n).noFills

theorem NoFills.dropVersion (s : State) (fid : Nat) : NoFills s (s.dropVersion fid) :=
  ⟨rfl, fun _ hx => List.mem_of_mem_filter hx, fun _ hx => hx⟩

theorem NoFills.discardFamily (s : State) (fid : Nat) : NoFills s (s.discardFamily fid) :=
  (((NoFills.dropWaves s _).trans (.releaseUnits _ _)).trans (.cancelNodes _ _)).trans (.dropVersion _ fid)

theorem NoFills.stopQueue (s : State) (n : Node) (status : Nat) : NoFills s (s.stopQueue n status) := by
  unfold State.stopQueue
  have h := NoFills.setNode s { n with stage := .stopped, status := status }
  dsimp only
  split
  · exact h
  · split
    · exact h.trans (.setCtx ..)
    · exact h

theorem NoFills.rerunNode (s : State) (o : Node) (avoid : List Nat) (checked : Bool) : NoFills s (s.rerunNode o avoid checked) := .setNode ..

theorem NoFills.stopConts (s : State) (owner : Nat) : NoFills s (s.stopConts owner) := by
  unfold State.stopConts
  dsimp only
  exact ((Releases.freeRays s _).noFills.trans (.cancelNodes _ _)).trans (.stopWaves ..)

theorem NoFills.endDirect (s : State) (n : Node) (rerunIdem checked : Bool) (avoid : List Nat) :
    NoFills s (s.endDirect n rerunIdem checked avoid) := by
  unfold State.endDirect
  split
  · exact .refl s
  · have hstop : NoFills s ((s.stopConts n.nid).stopWaves fun nid => nid == n.nid) := (NoFills.stopConts s n.nid).trans (.stopWaves ..)
    generalize (s.stopConts n.nid).stopWaves (fun nid => nid == n.nid) = t at hstop ⊢
    have hmsgs : NoFills s { t with gangMsgs := t.gangMsgs.filter fun m => m.node != n.nid } := hstop.trans (.of_eq rfl rfl rfl)
    refine NoFills.trans ?_ (Releases.endHolding _ n.nid).noFills
    split
    · exact hmsgs.trans (.rerunNode ..)
    · exact hmsgs.trans (.stopQueue ..)

theorem NoFills.endFamily (s : State) (n : Node) (rerunSpec rerunIdem : Bool) (avoid : List Nat) :
    NoFills s (s.endFamily n rerunSpec rerunIdem avoid) := by
  unfold State.endFamily
  dsimp only
  split
  · have hunits (o : Node) : NoFills s (((s.cancelMembers o.nid o.fam).dropWaves fun w => w.node == o.nid).releaseUnits fun x => x == o.nid) :=
      ((NoFills.cancelNodes s _).trans (.dropWaves _ _)).trans (.releaseUnits _ _)
    have hunits := hunits (s.ownerNode n)
    generalize ((s.cancelMembers (s.ownerNode n).nid (s.ownerNode n).fam).dropWaves fun w => w.node == (s.ownerNode n).nid).releaseUnits
      (fun x => x == (s.ownerNode n).nid) = t at hunits ⊢
    have hpads : NoFills s { t with spads := t.spads.filter fun p => p.node != (s.ownerNode n).nid } := hunits.trans (.of_eq rfl rfl rfl)
    split
    · refine NoFills.trans ?_ (.rerunNode ..)
      split
      · exact hpads.trans (.discardFamily ..)
      · exact hpads
    · refine NoFills.trans ?_ (.stopQueue ..)
      split
      · exact hpads.trans (.discardFamily ..)
      · exact hpads
  · split
    · exact .refl s
    · generalize (if (n.kind == .cont) = true then n.owner.getD n.nid else n.nid) = task
      split
      · exact .endDirect ..
      · split
        · exact (NoFills.endDirect ..).trans (.endDirect ..)
        · exact .endDirect ..

theorem NoFills.endFamilyChecked (s : State) (n : Node) : NoFills s (s.endFamilyChecked n) := .endFamily ..

theorem NoFills.endTrapped (s : State) (wt : Waiter) : NoFills s (s.endTrapped wt) := by
  unfold State.endTrapped
  split
  · split
    · split
      · exact .endFamily ..
      · exact .refl s
    · exact .refl s
  · exact .refl s

/-! ### Records (R424, R427) -/

theorem NoFills.flushFq (n asid : Nat) (s : State) : NoFills s (State.flushFq n s asid) := by
  induction n generalizing s with
  | zero => exact .refl s
  | succ n ih =>
    unfold State.flushFq
    split
    · exact .refl s
    · split
      · exact .refl s
      · have htouch (va : Nat) : NoFills s (s.partTouch asid va) := .of_offMemory (State.offMemory_partTouch s asid va)
        have hput (t : State) (c : Context) (a : Nat) (bs : List Byte) (b : Nat) (ds : List Byte) :
            NoFills t (((t.setCtx c).partWrite asid a bs).partWrite asid b ds) :=
          ((NoFills.setCtx t c).trans (.of_offMemory (State.offMemory_partWrite ..))).trans (.of_offMemory (State.offMemory_partWrite ..))
        dsimp only
        split
        · exact htouch _
        · refine NoFills.trans ?_ (ih _)
          refine NoFills.trans ?_ (.endTrapped _ _)
          split
          · exact ((htouch _).trans (hput ..)).trans (.of_offMemory (State.offMemory_raiseVector ..))
          · exact (htouch _).trans (hput ..)

theorem NoFills.appendRec (s : State) (r : FaultRec) (wt : Waiter) : NoFills s (s.appendRec r wt) := by
  unfold State.appendRec
  split
  · exact .refl s
  · exact (NoFills.setCtx s _).trans (.flushFq ..)

/-! ### Machine checks (R434) -/

theorem NoFills.checkNodes (s : State) (ids : List Nat) : NoFills s (checkNodes s ids) := by
  refine .foldl (fun s nid => ?_) ids s
  split
  · exact .endFamilyChecked s _
  · exact .refl s

end Sys2Proof.Machine
end

section
/-! SUPPORT. Failures, saves and heat (O46): what a lost read gives up, what a stopped core loses, and one equation for each event that is
due. -/

namespace Sys2Proof.Machine

/-! ### Lost reads (R435) -/

/-- The first record with one property is the first with two where it has the second one too. -/
theorem find?_and_of_find? {α : Type} {p q : α → Bool} {l : List α} {a : α} (h : l.find? p = some a) (hq : q a = true) :
    (l.find? fun x => p x && q x) = some a := by
  obtain ⟨hp, bs, cs, rfl, hbs⟩ := List.find?_eq_some_iff_append.1 h
  exact List.find?_eq_some_iff_append.2 ⟨by simp [hp, hq], bs, cs, rfl, fun x hx => by
    have hx := hbs x hx
    simp only [Bool.not_eq_true'] at hx
    simp [hx]⟩

/-- What an access that has been issued reads may be lost, which its instruction's task is told of. -/
theorem lossOf_of_acc? {s : State} {id : Nat} {a : Access} (ha : s.acc? id = some a) (hst : a.st = .issued) :
    lossOf s id = some (waveLoss s (if a.kind matches .line _ _ then 3 else 0) a.node a.wid a.pc a.addr) := by
  have hfind : (s.accs.find? fun a => a.id == id && a.st == .issued) = some a := find?_and_of_find? ha (by simp [hst])
  unfold lossOf
  rw [hfind]
  rfl

theorem execDataloss_of_loss {id : Nat} {s : State} {l : Loss} {n : Node} (hl : lossOf s id = some l) (hn : s.node? l.node = some n) :
    execDataloss id s = .next
      (let t := (nodeRecord { s with free := s.free + 1 } n l.at_).endFamily n false false
       if s.nonSpec n || (s.passNo id).isSome then giveUp t id else t) := by
  simp only [execDataloss, hl, hn]

theorem lessOutst_only (s : State) (wid n : Nat) : { lessOutst s wid n with waves := s.waves } = s := by
  unfold lessOutst
  split <;> rfl

/-- A state in which commands and streams have been discarded, and nothing else that reads. -/
structure Discards (s t : State) : Prop where
  accs : t.accs = s.accs
  jobs : t.jobs = s.jobs
  entries : t.entries = s.entries
  streams : ∀ x ∈ t.streams, x ∈ s.streams
  bcmds : ∀ c ∈ t.bcmds, c ∈ s.bcmds

theorem Discards.refl (s : State) : Discards s s := ⟨rfl, rfl, rfl, fun _ h => h, fun _ h => h⟩

theorem Discards.trans {s t u : State} (h : Discards s t) (k : Discards t u) : Discards s u :=
  ⟨k.accs.trans h.accs, k.jobs.trans h.jobs, k.entries.trans h.entries, fun x hx => h.streams x (k.streams x hx),
    fun c hc => h.bcmds c (k.bcmds c hc)⟩

theorem Discards.lessOutst (s : State) (wid n : Nat) : Discards s (lessOutst s wid n) where
  accs := (congrArg State.accs (lessOutst_only s wid n) :)
  jobs := (congrArg State.jobs (lessOutst_only s wid n) :)
  entries := (congrArg State.entries (lessOutst_only s wid n) :)
  streams _ hx := (congrArg State.streams (lessOutst_only s wid n) :) ▸ hx
  bcmds _ hc := (congrArg State.bcmds (lessOutst_only s wid n) :) ▸ hc

theorem Discards.discardCmd (s : State) (a : ArrayBank) (h : ArrCmd) : Discards s (discardCmd s a h) := by
  have hpop : Discards s (popCmd s a) := ⟨rfl, rfl, rfl, fun _ h => List.mem_of_mem_filter h, fun _ h => h⟩
  unfold Machine.discardCmd
  split
  · exact hpop.trans (.lessOutst ..)
  · exact hpop

/-- A discarded bank command is gone from its wave's commands (R358). -/
theorem discards_discardBank (s : State) (c : BankCmd) :
    Discards s (discardBank s c) ∧ ∀ x ∈ (discardBank s c).bcmds, x.cid ≠ c.cid := by
  have hless : Discards { s with bcmds := s.bcmds.filter fun x => x.cid != c.cid } (discardBank s c) := by
    unfold discardBank
    dsimp only
    generalize { s with bcmds := s.bcmds.filter fun x => x.cid != c.cid } = u
    have hu : Discards u (if c.op.counted = true then lessOutst u c.wid 1 else u) := by
      split
      · exact .lessOutst ..
      · exact .refl u
    split
    · exact ⟨hu.accs, hu.jobs, hu.entries, hu.streams, hu.bcmds⟩
    · exact hu
  exact ⟨⟨hless.accs, hless.jobs, hless.entries, hless.streams, fun x hx => List.mem_of_mem_filter (hless.bcmds x hx)⟩,
    fun x hx => by simpa using (List.mem_filter.1 (hless.bcmds x hx)).2⟩

/-- A pass that fails changes memory, the passes and their appends alone (R416). -/
theorem failPass_only (p : Pass) (s : State) : { (failPass p s).offMemory with appends := s.appends, passes := s.passes } = s.offMemory := by
  let u : State := { s with appends := s.appends.filter fun x => !(x.asid == p.asid && x.desc == p.desc) }
  have h : (putField (dropBuffers p u).2 p.asid p.desc 0x4D 1 3).offMemory = u.offMemory :=
    (State.offMemory_partWrite ..).trans (offMemory_foldl State.offMemory_evict)
  exact congrArg (fun t : State => { t with appends := s.appends, passes := s.passes }) h

theorem Discards.failPass (p : Pass) (s : State) : Discards s (failPass p s) := by
  have h := failPass_only p s
  generalize Sys2Proof.Machine.failPass p s = t at h ⊢
  exact {
    accs := (congrArg State.accs h :)
    jobs := (congrArg State.jobs h :)
    entries := (congrArg State.entries h :)
    streams := fun _ hx => (congrArg State.streams h :) ▸ hx
    bcmds := fun _ hc => (congrArg State.bcmds h :) ▸ hc }

/-- The state without the stream and the job of a name, whose entry has ended with FAULT (R346). -/
def endReader (s : State) (id : Nat) : State :=
  { s with entries := modify (fun e => e.eid == id) (fun e => { e with stopped := false, performed := true, status := some 1 }) s.entries
           jobs := s.jobs.filter fun j => j.jid != id, streams := s.streams.filter fun t => t.sid != id }

/-- The command of a name at the head of an array's queue is discarded. -/
def endArrayCmd (s : State) (id : Nat) : State :=
  match s.arrays.findSome? fun a => a.queue.head?.bind fun h => if h.id == id then some (a, h) else none with
  | some (a, h) => discardCmd s a h
  | none => s

/-- The bank command of a name is discarded. -/
def endBankCmd (s : State) (id : Nat) : State :=
  match s.bcmds.find? fun c => c.cid == id with
  | some c => discardBank s c
  | none => s

/-- The pass of a name ends with status 1. -/
def endPassNo (s : State) (id : Nat) : State :=
  match s.passNo id with
  | some p => failPass p s
  | none => s

theorem giveUp_of_not_acc {s : State} {id : Nat} (h : s.acc? id = none) :
    giveUp s id = endPassNo (endBankCmd (endArrayCmd (endReader s id) id) id) id := by
  rw [State.acc?] at h
  simp only [giveUp, h]
  rfl

theorem Discards.endArrayCmd (s : State) (id : Nat) : Discards s (endArrayCmd s id) := by
  unfold Machine.endArrayCmd
  split
  · exact .discardCmd ..
  · exact .refl s

theorem discards_endBankCmd (s : State) (id : Nat) : Discards s (endBankCmd s id) ∧ ∀ c ∈ (endBankCmd s id).bcmds, c.cid ≠ id := by
  unfold endBankCmd
  split
  case h_1 c hc =>
    have hcid : c.cid = id := by simpa using List.find?_some hc
    exact hcid ▸ discards_discardBank s c
  case h_2 hnone => exact ⟨.refl s, by simpa using hnone⟩

theorem Discards.endPassNo (s : State) (id : Nat) : Discards s (endPassNo s id) := by
  unfold Machine.endPassNo
  split
  · exact .failPass ..
  · exact .refl s

/-- A lost read that is no access ends its stream, job, entry or command. -/
theorem giveUp_of_reader {s : State} {id : Nat} (h : s.acc? id = none) :
    Discards (endReader s id) (giveUp s id) ∧ ∀ c ∈ (giveUp s id).bcmds, c.cid ≠ id := by
  rw [giveUp_of_not_acc h]
  obtain ⟨hbank, hgone⟩ := discards_endBankCmd (endArrayCmd (endReader s id) id) id
  have hpass := Discards.endPassNo (endBankCmd (endArrayCmd (endReader s id) id) id) id
  exact ⟨((Discards.endArrayCmd _ id).trans hbank).trans hpass, fun c hc => hgone c (hpass.bcmds c hc)⟩

/-- A lost read of an access drops the access, and with it what was to land of its instruction. -/
theorem giveUp_of_acc? {s : State} {id : Nat} {a : Access} (h : s.acc? id = some a) :
    (giveUp s id).accs = s.accs.filter (fun x => x.id != id) ∧ (giveUp s id).lands = s.lands.filter fun l => l.gid != a.gid := by
  rw [State.acc?] at h
  simp only [giveUp, h]
  split
  · exact ⟨rfl, rfl⟩
  · exact ⟨(congrArg State.accs (lessOutst_only _ a.wid a.items) :), (congrArg State.lands (lessOutst_only _ a.wid a.items) :)⟩

/-- No access, stream, job or command of the name of a lost read is left, and an entry of it has ended with FAULT. -/
theorem giveUp_ends {s : State} {id : Nat} (h : s.acc? id = none) :
    (∀ j ∈ (giveUp s id).jobs, j.jid ≠ id) ∧ (∀ t ∈ (giveUp s id).streams, t.sid ≠ id) ∧ (∀ c ∈ (giveUp s id).bcmds, c.cid ≠ id)
      ∧ ∀ e ∈ (giveUp s id).entries, e.eid = id → e.performed = true ∧ e.status = some 1 := by
  obtain ⟨hd, hcmds⟩ := giveUp_of_reader h
  refine ⟨fun j hj => ?_, fun t ht => ?_, hcmds, fun e he hid => ?_⟩
  · rw [hd.jobs] at hj
    simpa using (List.mem_filter.1 hj).2
  · simpa using (List.mem_filter.1 (hd.streams t ht)).2
  · rw [hd.entries] at he
    obtain ⟨x, -, rfl⟩ := List.mem_map.1 he
    dsimp only at hid ⊢
    split
    · exact ⟨rfl, rfl⟩
    · rename_i hx
      rw [if_neg hx] at hid
      exact absurd (by simpa using hid) hx

theorem giveUp_accs (s : State) (id : Nat) : ∀ a ∈ (giveUp s id).accs, a.id ≠ id := by
  intro x hx
  cases h : s.acc? id with
  | some a =>
    rw [(giveUp_of_acc? h).1] at hx
    simpa using (List.mem_filter.1 hx).2
  | none =>
    rw [(giveUp_of_reader h).1.accs] at hx
    simpa using List.find?_eq_none.1 h x hx

/-! ### Cores that stop (R434) -/

/-- The state once what tasks have on a core that has stopped is gone. -/
def withoutCore (s : State) (core : Nat) : State :=
  let gone (w : Wave) : Bool := w.core == core && onCores s w.node
  let wids := (s.waves.filter gone).map (·.wid)
  { s with
    waves := s.waves.filter fun w => !gone w
    streams := s.streams.filter fun t => !wids.contains t.wid
    accs := s.accs.filter fun a => !wids.contains a.wid
    lands := s.lands.filter fun l => !wids.contains l.wid
    unitQ := s.unitQ.filter fun u => !wids.contains u.wid
    bcmds := s.bcmds.filter fun c => !wids.contains c.wid
    arrays := s.arrays.filter fun a => !(a.core == core && onCores s a.holder)
    spads := s.spads.filter fun p => !(p.core == core && onCores s p.node) }

/-- After that, tasks that have ended give up what they still hold. -/
theorem releases_dropCore (s : State) (core : Nat) : Releases (withoutCore s core) (dropCore s core) := by
  refine Releases.trans ?_ (Releases.settle _)
  refine Releases.trans ?_ (Releases.foldl Releases.endHolding _ _)
  exact ⟨rfl, rfl, fun _ h => h, rfl, rfl, rfl⟩

theorem NoFills.dropCore (s : State) (core : Nat) : NoFills s (dropCore s core) :=
  (NoFills.of_eq rfl rfl rfl : NoFills s (withoutCore s core)).trans (releases_dropCore s core).noFills

/-- Nothing that tasks have on a core stays there once it has stopped, but for what lies in save areas (R318, R434, R440). -/
theorem dropCore_gone (s : State) (core : Nat) : (∀ w ∈ (dropCore s core).waves, w.core ≠ core ∨ onCores s w.node = false)
    ∧ (∀ a ∈ (dropCore s core).arrays, a.core ≠ core ∨ onCores s a.holder = false)
    ∧ (∀ x ∈ (dropCore s core).accs, ∀ w, s.wave? x.wid = some w → w.core ≠ core ∨ onCores s w.node = false) := by
  have h := releases_dropCore s core
  refine ⟨fun w hw => ?_, fun a ha => ?_, fun x hx w hw => ?_⟩
  · rw [h.waves] at hw
    simpa [imp_iff_not_or] using (List.mem_filter.1 hw).2
  · simpa [imp_iff_not_or] using (List.mem_filter.1 (h.arrays a ha)).2
  · rw [h.accs] at hx
    have hwid := State.wid_of_wave? hw
    have hkeep := (List.mem_filter.1 hx).2
    by_contra hc
    have hgone : w ∈ s.waves.filter fun w => w.core == core && onCores s w.node :=
      List.mem_filter.2 ⟨List.mem_of_find?_eq_some hw, by simpa [not_or] using hc⟩
    have hmem : x.wid ∈ (s.waves.filter fun w => w.core == core && onCores s w.node).map (·.wid) := List.mem_map.2 ⟨w, hgone, hwid⟩
    simp only [List.contains_iff_mem.2 hmem] at hkeep
    cases hkeep

/-- A core that stops and is none of those that have stopped before is one of them, and its copies and instruction lines are gone. -/
theorem execCoreMachineCheck_of_live {core : Nat} {cause : McCause} {s : State} (hcore : core < 128) (hlive : s.deadCores.contains core = false) :
    execCoreMachineCheck core cause s = .next
      (let t : State := { s with
        deadCores := core :: s.deadCores, l1 := s.l1.filter fun x => x.core != core, ilines := s.ilines.filter fun x => x.core != core }
       (ctxsOnCore s core).foldl (coreRecord core cause) (dropCore (checkNodes t (nodesOnCore s core)) core)) := by
  have hno : (decide (core ≥ Config.cores) || s.deadCores.contains core) = false := by
    rw [hlive, Bool.or_false]
    exact decide_eq_false (Nat.not_le.2 hcore)
  simp only [execCoreMachineCheck, hno, Bool.false_eq_true, if_false]

theorem execCoreMachineCheck_of_dead {core : Nat} {s : State} (cause : McCause) (hdead : s.deadCores.contains core = true) :
    execCoreMachineCheck core cause s = .next s := by
  simp only [execCoreMachineCheck, hdead, Bool.or_true, if_true]

/-- A machine check takes its core's copies and instruction lines, and nothing that follows from it brings others. -/
theorem machineCheck_copies (s : State) (core : Nat) (cause : McCause) (ids asids : List Nat) :
    let t : State := { s with
      deadCores := core :: s.deadCores, l1 := s.l1.filter fun x => x.core != core, ilines := s.ilines.filter fun x => x.core != core }
    let u := asids.foldl (coreRecord core cause) (dropCore (checkNodes t ids) core)
    u.deadCores = core :: s.deadCores ∧ (∀ x ∈ u.l1, x.core ≠ core) ∧ ∀ x ∈ u.ilines, x.core ≠ core := by
  intro t u
  have h : NoFills t u :=
    ((NoFills.checkNodes t ids).trans (.dropCore _ core)).trans (.foldl (fun s asid => NoFills.appendRec s _ .nothing) asids _)
  exact ⟨h.deadCores, fun x hx => by simpa using (List.mem_filter.1 (h.l1 x hx)).2,
    fun x hx => by simpa using (List.mem_filter.1 (h.ilines x hx)).2⟩

/-! ### Channels (R355, R374, R461, R462) -/

theorem execBankParityError_of_holder {stack ch i : Nat} {s : State} {p : Pch} {n : Node} (hp : s.pch? (stack * 64 + ch * 2 + i % 2) = some p)
    (hn : s.node? p.holder = some n) : execBankParityError stack ch i s = .next
      ((nodeRecord (dropPch s (stack * 64 + ch * 2 + i % 2)) n { cause := 18, source := 4 }).endFamilyChecked n) := by
  simp only [execBankParityError, hp, hn]

/-- A channel that fails parks its group, which retires both of its pseudo-channels; the reserve serves the first failure (R461). -/
theorem execChannelFailure_of_live {stack ch : Nat} {s : State} (hstack : stack < 8) (hch : ch < 32)
    (hlive : (s.groupOr stack (ch / 16)).dead.contains ch = false) : execChannelFailure stack ch s = .next
      (let g := s.groupOr stack (ch / 16)
       let t := s.setGroup (if g.mode = .reserve ∨ g.mode = .test then
           { g with dead := ch :: g.dead, parked := true, mode := .recovery, tags := [], saved := some (ch % 16) }
         else { g with dead := ch :: g.dead, parked := true, recon := true })
       retirePch (retirePch t (stack * 64 + ch * 2)) (stack * 64 + ch * 2 + 1)) := by
  have hno : (decide (stack ≥ 8) || decide (ch ≥ 32)) = false := by simp [hstack, hch]
  simp only [execChannelFailure, hno, hlive, Bool.false_eq_true, if_false, Bool.or_eq_true, beq_iff_eq]
  rfl

/-- The writes that a parked group has held back change no context. -/
theorem ctxs_resumed (s : State) (g : Group) (p : Nat → Bool) : ((s.setGroup g).resumePuts p).resumeWaits.ctxs = s.ctxs :=
  (congrArg State.ctxs ((State.offMemory_resumeWaits _).trans (State.offMemory_resumePuts (s.setGroup g) p)) :)

theorem execChannelTrafficResume_of_parked {stack g : Nat} {s : State} (h : (s.groupOr stack g).parked = true) :
    execChannelTrafficResume stack g s = .next
      (let u := ((s.setGroup { s.groupOr stack g with parked := false }).resumePuts (s.groupOr stack g).holds).resumeWaits
       let t := (s.ctxs.map (·.asid)).foldl (fun t asid => releaseParked t asid fun _ => true) u
       if (t.plat.groups.any fun g => g.parked) = true then t else resumeRegs t) := by
  simp only [execChannelTrafficResume, h, if_true, resumeAll, ctxs_resumed]

theorem execChannelTrafficResume_of_not_parked {stack g : Nat} {s : State} (h : (s.groupOr stack g).parked = false) :
    execChannelTrafficResume stack g s = .next s := by
  simp only [execChannelTrafficResume, h, Bool.false_eq_true, if_false]

theorem execRebuildComplete_of_recovery {stack g : Nat} {s : State} (hmode : (s.groupOr stack g).mode = .recovery)
    (hpark : (s.groupOr stack g).parked = false) :
    execRebuildComplete stack g s = .next (s.setGroup { s.groupOr stack g with mode := .home, tags := [] }) := by
  simp [execRebuildComplete, hmode, hpark]

/-! ### Watchdogs, saves and restores (R439 to R441) -/

theorem execWatchdogExpiry_of_due {asid : Nat} {s : State} {c : Context} (hc : s.ctx? asid = some c) (hpaused : wdPaused s c = false)
    (hdue : c.wdFrom + c.wdogMs * 1000000 ≤ s.ns) : execWatchdogExpiry asid s = .next (wdExpire s c) := by
  simp only [execWatchdogExpiry, hc, hpaused, ge_iff_le, decide_eq_true hdue, Bool.not_false, Bool.and_self, if_true]

theorem execSaveComplete_of_ready {asid : Nat} {s : State} {c : Context} (hc : s.ctx? asid = some c) (hwd : c.wd = .saving)
    (htime : s.ns ≤ c.saveFrom + Config.saveNs) (hready : saveReady s asid = true) (hpark : s.anyParked = false) :
    execSaveComplete asid s = .next (stopIfHot (((spillAll s asid).setCtx { c with wd := .saved }).contextEvent c 16)) := by
  simp [execSaveComplete, hc, hwd, htime, hready, hpark]

theorem execSaveTimeout_of_late {asid : Nat} {s : State} {c : Context} (hc : s.ctx? asid = some c) (hwd : c.wd = .saving)
    (htime : c.saveFrom + Config.saveNs < s.ns) : execSaveTimeout asid s = .next
      (stopIfHot (((loseContext s c).setCtx { ((loseContext s c).ctx? asid).getD c with wd := .lost }).contextEvent
        (((loseContext s c).ctx? asid).getD c) 18)) := by
  simp [execSaveTimeout, hc, hwd, htime]

theorem execRestoreComplete_of_placed {asid : Nat} {s t : State} {c : Context} (hc : s.ctx? asid = some c) (hrest : c.restoring = true)
    (hhot : s.plat.hot = false) (hstop : s.plat.stopped = false) (hpark : s.anyParked = false)
    (ht : placeCores c.benched ((s.waves.filter fun w => w.asid == asid && w.spilled).map (·.wid))
      ((s.waves.filter fun w => w.asid == asid && w.spilled).map (·.core)).dedup s = some t) : execRestoreComplete asid s = .next
        ((t.setCtx { c with wd := .armed, restoring := false, wdFrom := s.ns }).contextEvent c 17) := by
  simp only [execRestoreComplete, hc, hrest, hhot, hstop, hpark, Bool.not_false, Bool.and_self, if_true, ht]

/-- A saved core returns to itself where it fits (R441). -/
theorem restoreCore_of_fits {s : State} {ws : List Wave} {src : Nat} (h : coreFits s ws src src = true) : restoreCore s ws src = some src :=
  List.find?_cons_of_pos h

/-- No saved core goes to a core that has stopped (R434, R441). -/
theorem live_of_coreFits {s : State} {ws : List Wave} {src dst : Nat} (h : coreFits s ws src dst = true) : s.deadCores.contains dst = false := by
  simp only [coreFits, Bool.and_eq_true, and_assoc] at h
  obtain ⟨hlive, -⟩ := h
  simpa using hlive

/-! ### Heat (R465) -/

theorem execThermalThrottle_of_fast {s : State} (h : 100 < s.plat.clockMHz) :
    execThermalThrottle s = .next { s with plat := { s.plat with clockMHz := s.plat.clockMHz - 100 } } := by
  simp only [execThermalThrottle, gt_iff_lt, h, if_true]

/-- A shutdown saves the contexts that are armed, once no restore is in progress. -/
theorem execThermalShutdown_eq (s : State) : execThermalShutdown s = .next
    (let cs := s.ctxs.map fun c => { c with restoring := false }
     stopIfHot ((cs.filter fun c => c.wd == .armed).foldl wdExpire { s with plat := { s.plat with hot := true }, ctxs := cs })) := by
  have hfilter (l : List Context) : ((l.map fun c => { c with restoring := false }).filter fun c => c.wd == .armed && !c.restoring)
      = (l.map fun c => { c with restoring := false }).filter fun c => c.wd == .armed := by
    refine List.filter_congr fun c hc => ?_
    obtain ⟨x, -, rfl⟩ := List.mem_map.1 hc
    simp
  simp only [execThermalShutdown, hfilter]

end Sys2Proof.Machine

namespace Sys2Proof.Claims

open Sys2Proof.Machine

/-- Settles O46: each event by the equation of the case in which it is due, and what is lost with a read or with a core by the lists that
are filtered for it. -/
theorem failuresAndSavesActOnContexts : Obligations.FailuresAndSavesActOnContexts := by
  unfold Obligations.FailuresAndSavesActOnContexts
  refine ⟨?loss, ?lands, fun s id => ⟨giveUp_accs s id, fun hno => giveUp_ends (by simpa [State.acc?] using hno)⟩, ?access, ?copies
    , fun _ cause _ => execCoreMachineCheck_of_dead cause, dropCore_gone, fun _ _ _ => execCoreMachineCheck_of_live
    , fun _ _ _ _ _ _ => execBankParityError_of_holder, fun _ _ _ => execChannelFailure_of_live
    , fun _ _ _ => execChannelTrafficResume_of_parked, fun _ _ _ => execChannelTrafficResume_of_not_parked
    , fun _ _ _ => execRebuildComplete_of_recovery, fun _ _ _ => execWatchdogExpiry_of_due, fun _ _ _ => execSaveComplete_of_ready
    , fun _ _ _ => execSaveTimeout_of_late, fun _ _ _ _ => execRestoreComplete_of_placed, fun _ _ _ => restoreCore_of_fits, ?fits
    , fun _ => execThermalThrottle_of_fast, execThermalShutdown_eq⟩
  case loss =>
    intro id s l n hl hn t
    have h := execDataloss_of_loss hl hn
    refine ⟨fun hspec hpass => h.trans ?_, fun hlost => h.trans ?_⟩
    · rw [hspec, hpass]
      rfl
    · have hgive : (s.nonSpec n || (s.passNo id).isSome) = true := by simpa [Option.isSome_iff_ne_none] using hlost
      simp only [hgive, if_true]
      rfl
  case lands =>
    intro s id a ha l hl
    rw [(giveUp_of_acc? ha).2] at hl
    simpa using (List.mem_filter.1 hl).2
  case access => exact fun id s a ha hst => ⟨_, lossOf_of_acc? ha hst, rfl, rfl, rfl, rfl⟩
  case copies => exact fun core cause s hcore hlive => ⟨_, execCoreMachineCheck_of_live hcore hlive, machineCheck_copies ..⟩
  case fits =>
    intro s ws src dst h
    have hfits : coreFits s ws src dst = true := List.find?_some h
    exact ⟨hfits, live_of_coreFits hfits⟩

end Sys2Proof.Claims
end

section
/-! SUPPORT. Traps, their return and breakpoints (O8 to O10): what the trap path and a debug stop come to once their one choice is made. -/

namespace Sys2Proof.Machine

/-! ### The trap path (R430, R431) -/

/-- Outside a handler FLAGS says no more than whether the family is non-speculative (R424). -/
theorem State.waveFlags_of_not_hnd (s : State) {w : Wave} (h : w.hnd = false) : s.waveFlags w = if s.nonSpec (s.nodeOf w) = true then 2 else 0 := by
  simp [State.waveFlags, h]

/-- Outside a handler, in a task that has one, the trap path goes to the handler. -/
theorem State.takeTrap_of_handled {s : State} {w : Wave} (r : FaultRec) (epc : Word64) (hhnd : w.hnd = false) (hh : s.handlerOf w ≠ 0) :
    s.takeTrap w r epc = (s.landFinished w).setWave
      { w with trapRec := { r with flags := if s.nonSpec (s.nodeOf w) = true then 2 else 0 }
               epc := epc, eexec := w.exec, exec := 0xFFFFFFFF, hnd := true, pc := s.handlerOf w
               st := .ready, rp := none, pending := none, waitCtr := 0, bndFrom := none } := by
  have hc : (w.hnd || s.handlerOf w == 0) = false := by simpa [hhnd] using hh
  rw [State.takeTrap, hc, ← s.waveFlags_of_not_hnd hhnd]
  rfl

/-! ### Debug stops (R437) -/

section

variable {s : State} {w : Wave} {k : Context} (cause : Nat) (mask : Word) (info : Nat) (pc : Word64)

/-- A context marked for debugging stops its wave and reports the stop. -/
theorem State.debugStop_of_debugged (hk : s.ctx? w.asid = some k) (hd : k.debug = true) : s.debugStop w cause mask info pc =
    (s.setWave { w with stepping := false, st := .debugStop, pc := pc, waitCtr := 0 }).appendRec (s.waveRec w kBREAK cause 0 mask 0 info)
      (.debug w.wid) := by
  simp only [State.debugStop, hk, hd, if_true]
  rfl

/-- In another context the stop is a trap. -/
theorem State.debugStop_of_not_debugged (hk : s.ctx? w.asid = some k) (hd : k.debug = false) : s.debugStop w cause mask info pc =
    s.takeTrap { w with stepping := false } (s.waveRec w kBREAK cause 0 mask 0 info) pc := by
  simp only [State.debugStop, hk, hd, Bool.false_eq_true, if_false]
  rfl

end

end Sys2Proof.Machine

namespace Sys2Proof.Claims

open Sys2Proof.Machine

/-- Settles O9: the trap path of a task with a handler; the lanes that land are those of the load whose replay ends. -/
theorem takingATrapEntersTheHandler : Obligations.TakingATrapEntersTheHandler := by
  unfold Obligations.TakingATrapEntersTheHandler
  exact fun _ _ r epc hhnd hh => State.takeTrap_of_handled r epc hhnd hh

/-- Settles O8: `trap` answers the trap with code TRAP, which returns after the instruction, and `tret` a jump to the saved PC. -/
theorem trapsAndTheirReturn : Obligations.TrapsAndTheirReturn := by
  unfold Obligations.TrapsAndTheirReturn
  refine ⟨?trap, ?tret, ?illegal⟩
  case trap =>
    intro f s c h
    obtain rfl := ready_f h
    rw [show exec (.trap c.f) s = execTrap c.f s from rfl, execTrap, issue_ready h]
    rfl
  case tret =>
    intro f s c h hhnd
    rw [show exec (.tret f) s = execTret f s from rfl, execTret, issue_ready h]
    simp only [hhnd, if_true]
    rfl
  case illegal =>
    refine traps_of (fun f s => show _ = execTret f s from rfl) fun c s hhnd => ?_
    simp only [hhnd, Bool.false_eq_true, if_false]
    rfl

/-- Settles O10: `brk` is a debug stop of its wave after the instruction, which is a trap where the context is not debugged. -/
theorem breakpointsStopOrTrap : Obligations.BreakpointsStopOrTrap := by
  unfold Obligations.BreakpointsStopOrTrap
  refine ⟨fun f s c k h hk hd => ?stop, fun f s c k h hk hd => ?trap⟩
  case stop =>
    obtain rfl := ready_f h
    refine exec_of_final (show _ = execBrk c.f s from rfl) h ?_
    exact congrArg Act.final (State.debugStop_of_debugged _ _ _ _ hk hd)
  case trap =>
    obtain rfl := ready_f h
    refine exec_of_final (show _ = execBrk c.f s from rfl) h ?_
    exact congrArg Act.final (State.debugStop_of_not_debugged _ _ _ _ hk hd)

end Sys2Proof.Claims
end

section
/-! SUPPORT. Engine queues and leases (O26, O27): what a queue with room takes, and what `bkmode` answers to each holder. -/

namespace Sys2Proof.Machine

/-! ### Engine queues (R334 to R336) -/

/-- An engine queue with room takes the entry, and the ticket register is empty until it completes. -/
theorem sendEntry_of_room {c : Ctx} {s : State} {r : Nat} (op : EngOp) (hd : c.d = some (.v r))
    (hroom : (s.entries.filter fun e => e.asid == c.w.asid && e.queue == some (c.f.m 3 0)).length < 64) :
    sendEntry c s op = .done (Claims.entered c s r op) := by
  have hfull : ¬ (s.entries.filter fun e => e.asid == c.w.asid && e.queue == some (c.f.m 3 0)).length ≥ engineCap := Nat.not_le.2 hroom
  have hnames : { s with nextId := s.nextId + 2 } = s.fresh.2.fresh.2 := rfl
  simp only [sendEntry, hfull, if_false, hd, Claims.entered, hnames, State.fresh_fst, State.fresh_nextId]
  generalize openLanding s.fresh.2.fresh.2 c.w s.nextId (.vec r 1) false false [] = t
  rfl

/-! ### Leases (R354, R359) -/

section

variable {s : State} {num node wid op : Nat} {p : Pch}

/-- A free pseudo-channel goes to the task that acquires it. -/
theorem bkmodeAt_acquire (h : s.pch? num = none) :
    bkmodeAt s num node wid 0 = (0, { s with pchs := { num := num, holder := node, acqWave := wid } :: s.pchs }) := by
  simp only [bkmodeAt, h]
  rfl

/-- The other operations find no lease at a free pseudo-channel. -/
theorem bkmodeAt_of_free (h : s.pch? num = none) (hop : 1 ≤ op) : bkmodeAt s num node wid op = (2, s) := by
  have hne : (op == 0) = false := by simpa using Nat.ne_of_gt hop
  simp only [bkmodeAt, h, hne, Bool.false_eq_true, if_false]

/-- What another task holds stays as it is: an acquisition is BUSY, the others have no lease. -/
theorem bkmodeAt_of_other (h : s.pch? num = some p) (hne : p.holder ≠ node) :
    bkmodeAt s num node wid op = (if op = 0 then 1 else 2, s) := by
  have hother : (p.holder != node) = true := by simpa using hne
  simp only [bkmodeAt, h, hother, if_true, beq_iff_eq]

/-- The holder's operations set the mode of its lease, or end it. -/
theorem bkmodeAt_of_holder (h : s.pch? num = some p) (hheld : p.holder = node) :
    bkmodeAt s num node wid 0 = (0, s) ∧ bkmodeAt s num node wid 1 = (0, s.setPch { p with all := true })
      ∧ bkmodeAt s num node wid 2 = (0, s.setPch { p with all := false }) ∧ bkmodeAt s num node wid 3 = (0, s.freePch num) := by
  have hmine : (p.holder != node) = false := by simpa using hheld
  simp only [bkmodeAt, h, hmine, Bool.false_eq_true, if_false, and_self]

end

section

variable {c : Ctx} {s : State} {op : Nat} {x : Trans}

/-- Where A lies in no bank page in service, `bkmode` answers 3. -/
theorem bkmode_of_no_bank (hfault : bankFault s c.w.wid = none) (hcheck : s.laneCheck c.w.asid c.va.scalar64 1 .read = none)
    (hx : s.lookup c.w.asid c.va.scalar64 .read = some x)
    (hno : x.bank = false ∨ 2 ^ 39 ≤ x.pa ∨ s.deadPchs.contains (pchOf x.pa) = true) : bkmode c s op = .done (c.putScalar s 1 3) := by
  have hc : (!x.bank || decide (x.pa ≥ Config.hbmEnd) || s.deadPchs.contains (pchOf x.pa)) = true := by
    obtain h | h | h := hno
    · simp only [h, Bool.not_false, Bool.true_or]
    · have hend : x.pa ≥ Config.hbmEnd := h
      simp only [hend, decide_true, Bool.or_true, Bool.true_or]
    · simp only [h, Bool.or_true]
  rw [bkmode, withDelivery_of_no_bankFault _ hfault]
  simp only [hcheck, hx, hc, if_true]

/-- Once no command on the pseudo-channel is left, `bkmode` does its operation there; a task under DET may not see that another one
holds it (R359). -/
theorem bkmode_of_bank (hfault : bankFault s c.w.wid = none) (hcheck : s.laneCheck c.w.asid c.va.scalar64 1 .read = none)
    (hx : s.lookup c.w.asid c.va.scalar64 .read = some x) (hbank : x.bank = true) (hpa : x.pa < 2 ^ 39)
    (hlive : s.deadPchs.contains (pchOf x.pa) = false)
    (hidle : (s.bcmds.any fun y => (y.wid == c.w.wid || !cmdHeld s y) && pchsMeet (cmdPchs s y) (some [pchOf x.pa])) = false)
    (hdet : c.det = false ∨ (bkmodeAt s (pchOf x.pa) c.w.node c.w.wid op).1 ≠ 1) : bkmode c s op =
      .done (c.putScalar (bkmodeAt s (pchOf x.pa) c.w.node c.w.wid op).2 1 (bkmodeAt s (pchOf x.pa) c.w.node c.w.wid op).1) := by
  have hend : ¬ x.pa ≥ Config.hbmEnd := Nat.not_le.2 hpa
  have hc : (!x.bank || decide (x.pa ≥ Config.hbmEnd) || s.deadPchs.contains (pchOf x.pa)) = false := by
    simp only [hbank, hend, hlive, Bool.not_true, decide_false, Bool.or_self]
  have hbusy : (c.det && op == 0 && (bkmodeAt s (pchOf x.pa) c.w.node c.w.wid op).1 == 1) = false := by
    obtain h | h := hdet
    · simp only [h, Bool.false_and]
    · simp only [beq_eq_false_iff_ne.2 h, Bool.and_false]
  rw [bkmode, withDelivery_of_no_bankFault _ hfault]
  simp only [hcheck, hx, hc, hidle, hbusy, Bool.false_eq_true, if_false]

end

end Sys2Proof.Machine

namespace Sys2Proof.Claims

open Sys2Proof.Machine

/-- An engine instruction whose body sends an entry enters its queue. -/
theorem enters_of {i : Fields → Instr} {op : Ctx → EngOp} {body : Fields → Ctx → State → Act}
    (h1 : ∀ f s, exec (i f) s = issue (i f) f s (body f)) (h2 : ∀ c s, body c.f c s = sendEntry c s (op c)) : Enters i op :=
  fun _ => completes_of h1 fun c s ⟨hd, hroom⟩ => (h2 c s).trans (sendEntry_of_room (op c) hd hroom)

/-- Settles O26: the commands share `sendEntry`, and `ewait` looks at the ticket register alone. -/
theorem engineInstructionsEnterTheirQueue : Obligations.EngineInstructionsEnterTheirQueue := by
  unfold Obligations.EngineInstructionsEnterTheirQueue
  refine ⟨enters_of (fun f s => show _ = execEcpy f s from rfl) fun _ _ => rfl, enters_of (fun f s => show _ = execEgat f s from rfl) fun _ _ => rfl
    , enters_of (fun f s => show _ = execEdcp f s from rfl) fun _ _ => rfl, enters_of (fun f s => show _ = execEfence f s from rfl) fun _ _ => rfl
    , fun r => ?read, fun r => ?pass, fun r => ?empty⟩
  case read =>
    refine completes_of (fun f s => show _ = execEwait f s from rfl) fun c s ⟨ha, hfull, hmod⟩ => ?_
    simp only [ha, hfull, hmod, Bool.not_true, Bool.false_eq_true, if_false, beq_self_eq_true, if_true]
  case pass =>
    refine completes_of (fun f s => show _ = execEwait f s from rfl) fun c s ⟨ha, hfull, hmod⟩ => ?_
    simp only [ha, hfull, hmod, Bool.not_true, Bool.false_eq_true, if_false]
    rfl
  case empty =>
    refine blocks_of (fun f s => show _ = execEwait f s from rfl) fun c s ⟨ha, hfull⟩ => ?_
    simp only [ha, hfull, Bool.not_false, if_true]

/-- An instruction whose body is `bkmode` answers as `bkmode` does. -/
theorem bankMode_of {i : Fields → Instr} {op : Nat} (h1 : ∀ f s, exec (i f) s = issue (i f) f s fun c s => bkmode c s op) : BankMode i op :=
  ⟨fun _ => completes_of h1 fun _ _ ⟨hfault, hcheck, hx, hno⟩ => bkmode_of_no_bank hfault hcheck hx hno
    , fun _ => completes_of h1 fun _ _ ⟨hfault, hcheck, hx, hbank, hpa, hlive, hidle, hdet⟩ =>
      bkmode_of_bank hfault hcheck hx hbank hpa hlive hidle hdet⟩

/-- Settles O27: the four operations share `bkmode`, and the lease decides by its holder. -/
theorem bankModesAnswerTheLease : Obligations.BankModesAnswerTheLease := by
  unfold Obligations.BankModesAnswerTheLease
  exact ⟨bankMode_of fun _ _ => rfl, bankMode_of fun _ _ => rfl, bankMode_of fun _ _ => rfl, bankMode_of fun _ _ => rfl
    , fun _ _ _ _ => bkmodeAt_acquire, fun _ _ _ _ _ => bkmodeAt_of_free, fun _ _ _ _ _ _ => bkmodeAt_of_other
    , fun _ _ _ _ _ => bkmodeAt_of_holder⟩

end Sys2Proof.Claims
end

section
/-! SUPPORT. Kite microinstructions (O36, O37): how a claim about one follows from its body, and what the bodies that several share come to. -/

namespace Sys2Proof.Machine

/-! ### Sorting -/

/-- Insertion keeps a list in the order of a total and transitive comparison. -/
theorem insertBy_pairwise {α : Type} {le : α → α → Bool} (htotal : ∀ a b, le a b = true ∨ le b a = true)
    (htrans : ∀ a b c, le a b = true → le b c = true → le a c = true) (x : α) {l : List α} (h : l.Pairwise fun a b => le a b = true) :
    (insertBy le x l).Pairwise fun a b => le a b = true := by
  induction l with
  | nil => exact List.pairwise_singleton _ x
  | cons y l ih =>
    obtain ⟨hy, hl⟩ := List.pairwise_cons.1 h
    unfold insertBy
    split
    case isTrue hxy => exact List.pairwise_cons.2 ⟨List.forall_mem_cons.2 ⟨hxy, fun z hz => htrans x y z hxy (hy z hz)⟩, h⟩
    case isFalse hxy =>
      refine List.pairwise_cons.2 ⟨fun z hz => ?_, ih hl⟩
      obtain rfl | hz := List.mem_cons.1 ((insertBy_perm le x l).mem_iff.1 hz)
      · exact (htotal z y).resolve_left hxy
      · exact hy z hz

/-- Sorting puts a list in the order of a total and transitive comparison. -/
theorem sortBy_pairwise {α : Type} {le : α → α → Bool} (htotal : ∀ a b, le a b = true ∨ le b a = true)
    (htrans : ∀ a b c, le a b = true → le b c = true → le a c = true) (l : List α) : (sortBy le l).Pairwise fun a b => le a b = true := by
  induction l with
  | nil => exact List.Pairwise.nil
  | cons x l ih => exact insertBy_pairwise htotal htrans x ih

/-! ### The frame of a microinstruction (R388, R389) -/

section

variable {i : Instr} {s : State} {r : Ray} {body : Binding → Ray → State → KAct}

/-- A microinstruction that is ready does what its body says. -/
theorem kiteStep_of_ready {b : Binding} (h : Claims.KiteReady i s r b) :
    kiteStep i s body = .next (kiteFinish (Claims.kiteStart s) r (body b r (Claims.kiteStart s))) := by
  obtain ⟨hr, hb, hok⟩ := h
  have hb' : State.binding? { s with curRay := none } r.asid r.slot = some b := hb
  simp only [kiteStep, hr, hb', hok, if_true]
  rfl

/-- Fields that are not legal for the microinstruction end the ray with ILLEGAL. -/
theorem kiteStep_of_reserved (hr : s.curRay.bind s.ray? = some r) (hb : s.binding? r.asid r.slot ≠ none) (hok : kiteFieldsOk i = false) :
    kiteStep i s body = .next (endRay (Claims.kiteStart s) r 4) := by
  obtain ⟨b, hb⟩ := Option.ne_none_iff_exists'.1 hb
  have hb' : State.binding? { s with curRay := none } r.asid r.slot = some b := hb
  simp only [kiteStep, hr, hb', hok, Bool.false_eq_true, if_false]
  rfl

end

/-! ### Labels and the stack (R389, R392) -/

section

variable {b : Binding} {r : Ray} {s : State} {k : KFields}

theorem kiteLabel_of_taken (h : k.imm.toNat < b.plen) : kiteLabel b r s k true = .jump s r k.imm.toNat := by
  simp [kiteLabel, h]

theorem kiteLabel_of_not_taken (h : k.imm.toNat < b.plen) : kiteLabel b r s k false = .go s r := by
  simp [kiteLabel, h]

/-- A label outside the program is illegal, taken or not (log entry 18). -/
theorem kiteLabel_of_outside {taken : Bool} (h : b.plen ≤ k.imm.toNat) : kiteLabel b r s k taken = .stop r 4 := by
  simp only [kiteLabel, ge_iff_le, h, if_true]
  rfl

theorem pushEntry_of_room {x : Nat} (h : r.stack.length < 12) : pushEntry r s x = .go s { r with stack := r.stack ++ [x] } := by
  simp [pushEntry, h]

theorem pushEntry_of_full {x : Nat} (h : 12 ≤ r.stack.length) : pushEntry r s x = .stop r 3 := by
  simp [pushEntry, h]

end

/-! ### Reads of a ray (R389, R394, R401) -/

/-- A read of bytes that software has left alone gives what stands at the homes. -/
theorem rayRead_of_not_written {s : State} {r : Ray} {fam : Option Nat} {a n : Nat}
    (h : ∀ bs t, homeRead s r.asid fam a n = .ok (bs, t) → t.writtenSince r.asid a n r.rid = false) :
    rayRead s r fam a n = homeRead s r.asid fam a n := by
  unfold rayRead
  split
  case h_1 bs t hread => rw [hread, State.openBytes, h bs t hread, if_neg Bool.false_ne_true]
  case h_2 e hread => exact hread.symm

section

variable {b : Binding} {r : Ray} {s : State} {a : Nat}

/-- A node that is read stands in the node buffer. -/
theorem loadNode_of_read {bs : List Byte} {t : State} (ha : a % 16 = 0)
    (hread : rayRead s r (s.specFam r.owner) a b.lay.nodeSize = .ok (bs, t)) :
    loadNode b r s a = .go t { r with node := a, nb := true, buf := bs } := by
  simp only [loadNode, ha, hread, bne_self_eq_false, Bool.false_eq_true, if_false]

/-- A node stands at a multiple of 16 bytes. -/
theorem loadNode_of_misaligned (ha : a % 16 ≠ 0) : loadNode b r s a = .stop r 4 := by
  simp only [loadNode, bne_iff_ne, ne_eq, ha, not_false_eq_true, if_true]
  rfl

end

end Sys2Proof.Machine

namespace Sys2Proof.Claims

open Sys2Proof.Machine

/-! ### Forms of a claim about a microinstruction -/

section

variable {i : KFields → Instr} {cond : KFields → Binding → Ray → Prop} {eff : KFields → Binding → Ray → Ray}
  {body : KFields → Binding → Ray → State → KAct}

theorem kiteGoes_of (h1 : ∀ k s, exec (i k) s = kiteStep (i k) s (body k)) (h2 : ∀ k b r s, cond k b r → body k b r s = .go s (eff k b r)) :
    KiteGoes i cond eff := by
  intro k s r b h hc
  rw [h1, kiteStep_of_ready h, h2 k b r _ hc]
  rfl

theorem kiteJumps_of {pc : KFields → Ray → Nat} (h1 : ∀ k s, exec (i k) s = kiteStep (i k) s (body k))
    (h2 : ∀ k b r s, cond k b r → body k b r s = .jump s (eff k b r) (pc k r)) : KiteJumps i cond eff pc := by
  intro k s r b h hc
  rw [h1, kiteStep_of_ready h, h2 k b r _ hc]
  rfl

theorem kiteEnds_of {status : Nat} (h1 : ∀ k s, exec (i k) s = kiteStep (i k) s (body k))
    (h2 : ∀ k b r s, cond k b r → body k b r s = .stop (eff k b r) status) : KiteEnds i cond eff status := by
  intro k s r b h hc
  rw [h1, kiteStep_of_ready h, h2 k b r _ hc]
  rfl

/-- A microinstruction whose body is `loadNode` at an address, where it has one, loads a node. -/
theorem kiteLoads_of {addr : KFields → Binding → Ray → Option Nat} (h1 : ∀ k s, exec (i k) s = kiteStep (i k) s (body k))
    (h2 : ∀ k b r s a, addr k b r = some a → body k b r s = loadNode b r s a) : KiteLoads i addr := by
  refine ⟨fun k s r b a bs t h haddr ha hread => ?_, kiteEnds_of h1 fun k b r s ⟨a, haddr, ha⟩ => ?_⟩
  · rw [h1, kiteStep_of_ready h, h2 k b r _ a haddr, loadNode_of_read ha hread]
    rfl
  · rw [h2 k b r s a haddr, loadNode_of_misaligned ha]

end

/-! ### The obligations -/

/-- Settles O36: each microinstruction by the branch of its body that its hypotheses choose. -/
theorem kiteInstructionsLoadTestAndStack : Obligations.KiteInstructionsLoadTestAndStack := by
  unfold Obligations.KiteInstructionsLoadTestAndStack
  refine ⟨?node, ?root, ?child, ?childNone, fun t => ?box, ?boxMiss, ?boxIllegal, fun t uv => ?tri, ?triMiss, ?triIllegal, fun a => ?push
    , fun a => ?pushFull, ?pushNone, ?pushTag, ?pushTagFull, fun s r fam a n => rayRead_of_not_written, ?popEmpty, fun l x => ?popTag
    , fun l x => ?popNode⟩
  case node =>
    refine kiteLoads_of (fun k s => show _ = execKiteNld k s from rfl) fun k b r s a haddr => ?_
    cases haddr
    rfl
  case root =>
    refine kiteLoads_of (fun k s => show _ = execKiteNldRoot k s from rfl) fun k b r s a haddr => ?_
    cases haddr
    rfl
  case child =>
    refine kiteLoads_of (fun k s => show _ = execKiteNldChild k s from rfl) fun k b r s a haddr => ?_
    simp only [Ray.index, haddr]
  case childNone =>
    refine kiteEnds_of (fun k s => show _ = execKiteNldChild k s from rfl) fun k b r s haddr => ?_
    simp only [Ray.index, haddr]
    rfl
  case box =>
    refine kiteGoes_of (fun k s => show _ = execKiteBxi k s from rfl) fun k b r s ⟨hnb, hfmt, hlt, hhit⟩ => ?_
    simp [Ray.index, hnb, hfmt, hlt, hhit]
  case boxMiss =>
    refine kiteGoes_of (fun k s => show _ = execKiteBxi k s from rfl) fun k b r s ⟨hnb, hfmt, hmiss⟩ => ?_
    have hnone : (if r.index k.ka < b.lay.nBox then boxHit b.lay r (boxOf b.lay r.buf (r.index k.ka)) else none) = none :=
      ite_eq_right_iff.2 hmiss
    simp [hnb, hfmt, hnone]
  case boxIllegal =>
    refine kiteEnds_of (fun k s => show _ = execKiteBxi k s from rfl) fun k b r s h => ?_
    have hc : (!r.nb || b.lay.boxFmt == 0) = true := by simpa using h
    simp only [hc, if_true]
    rfl
  case tri =>
    refine kiteGoes_of (fun k s => show _ = execKiteTxi k s from rfl) fun k b r s ⟨hnb, hfmt, hlt, hhit⟩ => ?_
    have hsome : (if r.index k.ka < b.lay.nLeaf then triHit b.lay r ((List.range 9).map fun j =>
        bytesNat r.buf (b.lay.leafOff + 40 * r.index k.ka + 4 * j) 4) else none) = some (t, uv) := (if_pos hlt).trans hhit
    simp only [hnb, hfmt, hsome, Bool.not_true, bne_self_eq_false, Bool.or_self, Bool.false_eq_true, if_false]
    rfl
  case triMiss =>
    refine kiteGoes_of (fun k s => show _ = execKiteTxi k s from rfl) fun k b r s ⟨hnb, hfmt, hmiss⟩ => ?_
    have hnone : (if r.index k.ka < b.lay.nLeaf then triHit b.lay r ((List.range 9).map fun j =>
        bytesNat r.buf (b.lay.leafOff + 40 * r.index k.ka + 4 * j) 4) else none) = none := ite_eq_right_iff.2 hmiss
    simp only [hnb, hfmt, hnone, Bool.not_true, bne_self_eq_false, Bool.or_self, Bool.false_eq_true, if_false]
  case triIllegal =>
    refine kiteEnds_of (fun k s => show _ = execKiteTxi k s from rfl) fun k b r s h => ?_
    have hc : (!r.nb || b.lay.leafFmt != 1) = true := by simpa using h
    simp only [hc, if_true]
    rfl
  case push =>
    refine kiteGoes_of (fun k s => show _ = execKitePush k s from rfl) fun k b r s ⟨haddr, hroom⟩ => ?_
    simp only [Ray.index, haddr, pushEntry_of_room hroom]
  case pushFull =>
    refine kiteEnds_of (fun k s => show _ = execKitePush k s from rfl) fun k b r s ⟨haddr, hfull⟩ => ?_
    simp only [Ray.index, haddr, pushEntry_of_full hfull]
  case pushNone =>
    refine kiteEnds_of (fun k s => show _ = execKitePush k s from rfl) fun k b r s haddr => ?_
    simp only [Ray.index, haddr]
    rfl
  case pushTag => exact kiteGoes_of (fun k s => show _ = execKitePushTag k s from rfl) fun _ _ _ _ => pushEntry_of_room
  case pushTagFull => exact kiteEnds_of (fun k s => show _ = execKitePushTag k s from rfl) fun _ _ _ _ => pushEntry_of_full
  case popEmpty =>
    refine kiteGoes_of (fun k s => show _ = execKitePop k s from rfl) fun k b r s hempty => ?_
    simp only [hempty, List.getLast?_nil]
  case popTag =>
    refine kiteGoes_of (fun k s => show _ = execKitePop k s from rfl) fun k b r s ⟨hstack, htag⟩ => ?_
    simp only [hstack, List.getLast?_concat, List.dropLast_concat, beq_iff_eq, htag, if_false]
  case popNode =>
    refine kiteGoes_of (fun k s => show _ = execKitePop k s from rfl) fun k b r s ⟨hstack, htag⟩ => ?_
    simp only [hstack, List.getLast?_concat, List.dropLast_concat, htag, beq_self_eq_true, if_true]
    rfl

/-- Settles O37: each microinstruction by the branch of its body that its hypotheses choose; the three branches to a label share
`kiteLabel`. -/
theorem kiteInstructionsComputeJumpAndAccept : Obligations.KiteInstructionsComputeJumpAndAccept := by
  unfold Obligations.KiteInstructionsComputeJumpAndAccept
  refine ⟨?sort, ?cmp, ?cmpImm, ?br, ?brNot, ?brn, ?brnNot, ?jmp, ?label, ?jmpRegOut, ?jmpReg, ?call, ?acpt, ?hit, ?accepted, ?ixf, ?ixfIllegal
    , ?itl, ?mov, ?movImm, ?movN, ?movNIllegal, ?movT, ?add, ?addImm, ?end_, ?reserved⟩
  case sort =>
    intro k s r b h
    refine ⟨sortBy (fun a b : Word => decide (a.toNat ≤ b.toNat)) ((r.k.drop k.kd.toNat).take k.imm.toNat), sortBy_perm _ _, ?_, ?_⟩
    · refine (sortBy_pairwise (fun a b => ?_) (fun a b c hab hbc => ?_) _).imp of_decide_eq_true
      · simpa using Nat.le_total a.toNat b.toNat
      · exact decide_eq_true ((of_decide_eq_true hab).trans (of_decide_eq_true hbc))
    · exact (show _ = execKiteSrt k s from rfl).trans (kiteStep_of_ready h)
  case cmp => exact kiteGoes_of (fun k s => show _ = execKiteCmp k s from rfl) fun _ _ _ _ _ => rfl
  case cmpImm => exact kiteGoes_of (fun k s => show _ = execKiteCmpImm k s from rfl) fun _ _ _ _ _ => rfl
  case br =>
    refine kiteJumps_of (fun k s => show _ = execKiteBr k s from rfl) fun k b r s ⟨hlt, hcond⟩ => ?_
    rw [hcond, kiteLabel_of_taken hlt]
  case brNot =>
    refine kiteGoes_of (fun k s => show _ = execKiteBr k s from rfl) fun k b r s ⟨hlt, hcond⟩ => ?_
    rw [hcond, kiteLabel_of_not_taken hlt]
  case brn =>
    refine kiteJumps_of (fun k s => show _ = execKiteBrn k s from rfl) fun k b r s ⟨hlt, hcond⟩ => ?_
    rw [hcond, Bool.not_false, kiteLabel_of_taken hlt]
  case brnNot =>
    refine kiteGoes_of (fun k s => show _ = execKiteBrn k s from rfl) fun k b r s ⟨hlt, hcond⟩ => ?_
    rw [hcond, Bool.not_true, kiteLabel_of_not_taken hlt]
  case jmp => exact kiteJumps_of (fun k s => show _ = execKiteJmp k s from rfl) fun _ _ _ _ => kiteLabel_of_taken
  case label =>
    rintro i (rfl | rfl | rfl | rfl)
    · exact kiteEnds_of (fun k s => show _ = execKiteBr k s from rfl) fun _ _ _ _ => kiteLabel_of_outside
    · exact kiteEnds_of (fun k s => show _ = execKiteBrn k s from rfl) fun _ _ _ _ => kiteLabel_of_outside
    · exact kiteEnds_of (fun k s => show _ = execKiteJmp k s from rfl) fun _ _ _ _ => kiteLabel_of_outside
    · exact kiteEnds_of (fun k s => show _ = execKiteCall k s from rfl) fun _ _ _ _ hout => if_pos hout
  case jmpRegOut => exact kiteEnds_of (fun k s => show _ = execKiteJmpReg k s from rfl) fun _ _ _ _ hout => if_pos hout
  case jmpReg => exact kiteJumps_of (fun k s => show _ = execKiteJmpReg k s from rfl) fun _ _ _ _ hlt => if_neg (Nat.not_le.2 hlt)
  case call => exact kiteJumps_of (fun k s => show _ = execKiteCall k s from rfl) fun _ _ _ _ hlt => if_neg (Nat.not_le.2 hlt)
  case acpt => exact kiteGoes_of (fun k s => show _ = execKiteAcpt k s from rfl) fun _ _ _ _ _ => rfl
  case hit => exact kiteEnds_of (fun k s => show _ = execKiteHit k s from rfl) fun _ _ _ _ _ => rfl
  case accepted =>
    refine fun b r ka => ⟨rfl, rfl, rfl, rfl, rfl, fun hinst => ?_⟩
    simp only [acceptHit, hinst, Bool.false_eq_true, if_false]
  case ixf =>
    intro k s r b bs t i a h hnb hinst hfmt hlt hread
    have hc : (!r.nb || r.inst || b.lay.leafFmt != 2 || decide (r.index k.ka ≥ b.lay.nLeaf)) = false := by
      have hi : ¬ r.index k.ka ≥ b.lay.nLeaf := Nat.not_le.2 hlt
      simp [hnb, hinst, hfmt, hi]
    have hread' : rayRead (kiteStart s) r ((kiteStart s).specFam r.owner) (bytesNat r.buf (b.lay.leafOff + 8 * r.index k.ka) 8) b.lay.instSize
        = .ok (bs, t) := hread
    rw [show exec (.kiteIxf k) s = execKiteIxf k s from rfl, execKiteIxf, kiteStep_of_ready h]
    simp only [hc, hread', Bool.false_eq_true, if_false]
    rfl
  case ixfIllegal =>
    refine kiteEnds_of (fun k s => show _ = execKiteIxf k s from rfl) fun k b r s h => ?_
    have hc : (!r.nb || r.inst || b.lay.leafFmt != 2 || decide (r.index k.ka ≥ b.lay.nLeaf)) = true := by
      simpa [Ray.index, or_assoc] using h
    simp only [hc, if_true]
    rfl
  case itl => exact kiteGoes_of (fun k s => show _ = execKiteItl k s from rfl) fun _ _ _ _ _ => rfl
  case mov => exact kiteGoes_of (fun k s => show _ = execKiteMov k s from rfl) fun _ _ _ _ _ => rfl
  case movImm => exact kiteGoes_of (fun k s => show _ = execKiteMovImm k s from rfl) fun _ _ _ _ _ => rfl
  case movN =>
    refine kiteGoes_of (fun k s => show _ = execKiteMovN k s from rfl) fun k b r s ⟨hnb, hlt⟩ => ?_
    simp [hnb, hlt]
  case movNIllegal =>
    refine kiteEnds_of (fun k s => show _ = execKiteMovN k s from rfl) fun k b r s h => ?_
    have hc : (!r.nb || decide (k.imm.toNat ≥ b.lay.nodeSize)) = true := by simpa using h
    simp only [hc, if_true]
    rfl
  case movT =>
    refine kiteGoes_of (fun k s => show _ = execKiteMovT k s from rfl) fun k b r s _ => ?_
    simp only [beq_iff_eq]
  case add => exact kiteGoes_of (fun k s => show _ = execKiteAdd k s from rfl) fun _ _ _ _ _ => rfl
  case addImm => exact kiteGoes_of (fun k s => show _ = execKiteAddImm k s from rfl) fun _ _ _ _ _ => rfl
  case end_ => exact kiteEnds_of (fun k s => show _ = execKiteEnd k s from rfl) fun _ _ _ _ _ => rfl
  case reserved =>
    intro i hi k s r hr hb hok
    have hkite : isKiteInstr (i k) = true := by
      obtain rfl | rfl | rfl | rfl := hi
      all_goals rfl
    obtain ⟨body, hbody⟩ := exec_eq_kiteStep hkite
    rw [hbody, kiteStep_of_reserved hr hb hok]

end Sys2Proof.Claims
end

section
/-! SUPPORT. Bindings and casts (O32): what a read at issue gives its instruction, when a halt goes through, and the ray that a lane casts. -/

namespace Sys2Proof.Machine

/-- An instruction goes on with the bytes that it has read (R304). -/
theorem withRead_of_ok {c : Ctx} {s t : State} {va n : Nat} {bs : List Byte} {body : List Byte → State → Act}
    (h : readOwn c s va n = .ok bs t) : withRead c s va n body = body bs t := by
  simp only [withRead, h]

/-- Writing the records of a ray leaves the rays on chip as they are (R381, R393). -/
theorem placeRay_rays (s : State) (r : Ray) : (placeRay s r).rays = s.rays := by
  have hwrite (s : State) (asid va : Nat) (bs : List Byte) : (s.partWrite asid va bs).rays = s.rays := by
    have ho := congrArg State.rays (State.offMemory_partWrite s asid va bs)
    exact ho
  unfold placeRay saveRay
  split
  · dsimp only
    split <;> simp only [hwrite]
  · rfl

/-- A halt goes through where its wave has nothing left to deliver, to repeat or to perform (R110, R116). -/
theorem haltAct_of_idle {c : Ctx} {s : State} {body : State → Act} (hdef : Claims.NoDeferred c s) (hstream : streamAgain s c.w = false)
    (hbank : bankAgain s c.w.wid = false) (hstop : stoppedStream s c.w = none) (hwork : releasedWork s c.w = false)
    (hleave : leaveHeld s (c.wave s) = false) : haltAct c s body = body s := by
  rw [haltAct, withDelivery_of_noDeferred _ hdef]
  simp only [hstream, hbank, hstop, hwork, hleave, Bool.or_self, Bool.false_eq_true, if_false]

section

variable {c : Ctx} {x : Context} {b : Binding} {base : Nat} {s : State}

/-- A cast whose registers, earlier stores and ray area let it go casts its rays (R381). -/
theorem traceWith_of_room {cont : Nat} (hx : s.ctx? c.w.asid = some x) (hb : s.binding? c.w.asid (c.f.m 3 0) = some b)
    (hd : c.d = some (.v base)) (hcont : cont % 4 = 0) (hacked : storesAcked s c.w.wid s.nextId = true)
    (hroom : (s.rays.filter fun r => r.asid == c.w.asid).length + maskCount c.m ≤ x.raycap)
    (hturn : unitTurn s (unitRays c.w.asid) c.w.wid = true) :
    traceWith c s cont = castRays c x b (BitVec.ofNat 64 cont) base s := by
  have hfree : ¬ (s.rays.filter fun r => r.asid == c.w.asid).length + maskCount c.m > x.raycap := Nat.not_lt.2 hroom
  simp only [traceWith, hx, hb, hd, hcont, hacked, hfree, hturn, bne_self_eq_false, Bool.not_true, decide_false, Bool.or_self,
    Bool.false_eq_true, if_false]

variable (c x b base s) in
/-- The state after the acting lanes have cast their rays, which have one name for their order. -/
def castAll (cont : Word64) : State :=
  (maskBits c.m).foldl (castRay c x b cont base s.nextId) { unitLeave s (unitRays c.w.asid) c.w.wid with nextId := s.nextId + 1 }

/-- A wave with a lane left goes on with those lanes. -/
theorem castRays_of_left {cont : Word64} (h : c.w.exec &&& ~~~c.m ≠ 0) : castRays c x b cont base s =
    .done ((castAll c x b base s cont).setWave { c.wave (castAll c x b base s cont) with exec := c.w.exec &&& ~~~c.m }) := by
  have hleft : (c.w.exec &&& ~~~c.m == 0) = false := beq_eq_false_iff_ne.2 h
  simp only [castRays, hleft, Bool.false_eq_true, if_false]
  rfl

/-- A wave with no lane left halts. -/
theorem castRays_of_none_left {cont : Word64} (h : c.w.exec &&& ~~~c.m = 0) : castRays c x b cont base s = haltAct c s fun s =>
    .final (haltWave (popAll (castAll c x b base s cont) c.w c.m c.pops)
      { c.wave (popAll (castAll c x b base s cont) c.w c.m c.pops) with exec := 0 }) := by
  simp only [castRays, h, beq_self_eq_true, if_true]
  rfl

/-- The ray of a lane stands behind the others, with what the instruction has read; an empty one has ended at once (R381, R383). -/
theorem castRay_rays (c : Ctx) (x : Context) (b : Binding) (cont : Word64) (base ord : Nat) (s : State) (l : Nat) :
    ∃ r : Ray, (castRay c x b cont base ord s l).rays = s.rays ++ [r] ∧ r.asid = c.w.asid
      ∧ r.owner = rayOwner c.node ∧ r.node = b.root ∧ r.pc = 0 ∧ r.cont = cont ∧ r.mask = c.vb.scalar ∧ r.stack = []
      ∧ r.origin = [(c.va.w l 0).toNat, (c.va.w l 1).toNat, (c.va.w l 2).toNat] ∧ r.tmin = (c.va.w l 3).toNat
      ∧ r.dir = [(c.va.w l 4).toNat, (c.va.w l 5).toNat, (c.va.w l 6).toNat] ∧ r.tmax = (c.va.w l 7).toNat
      ∧ r.live = (maskBits c.vb.scalar).map (fun i => c.w.vl (base + i) l)
      ∧ (r.place = .ended ∧ r.status = 6 ∨ r.place = .queued ∧ rayEmpty r.tmin r.tmax = false) := by
  refine ⟨_, placeRay_rays _ _, rfl, rfl, rfl, rfl, rfl, rfl, rfl, rfl, rfl, rfl, rfl, rfl, ?_⟩
  dsimp only
  cases hempty : rayEmpty (c.va.w l 3).toNat (c.va.w l 7).toNat with
  | true => exact .inl ⟨rfl, rfl⟩
  | false => exact .inr ⟨rfl, rfl⟩

end

end Sys2Proof.Machine

namespace Sys2Proof.Claims

open Sys2Proof.Machine

/-- A cast whose instruction resumes its rays at an address casts them, and its wave goes on with the lanes left or halts (R381). -/
theorem trace_casts {i : Fields → Instr} {at_ : Ctx → Nat} (h1 : ∀ f s, exec (i f) s = issue (i f) f s fun c s => traceWith c s (at_ c))
    {f : Fields} {s : State} {c : Ctx} {x : Context} {b : Binding} {base : Nat} (h : ready (i f) f s = some c)
    (hx : (start s).ctx? c.w.asid = some x) (hb : (start s).binding? c.w.asid (f.m 3 0) = some b) (hd : c.d = some (.v base))
    (hcont : at_ c % 4 = 0) (hacked : storesAcked s c.w.wid s.nextId = true)
    (hroom : (s.rays.filter fun r => r.asid == c.w.asid).length + maskCount c.m ≤ x.raycap)
    (hturn : unitTurn s (unitRays c.w.asid) c.w.wid = true) :
    exec (i f) s = .next (finish c (start s) (castRays c x b (BitVec.ofNat 64 (at_ c)) base (start s))) := by
  obtain rfl := ready_f h
  rw [h1, issue_ready h]
  exact congrArg (fun a => Host.Outcome.next (finish c (start s) a)) (traceWith_of_room hx hb hd hcont hacked hroom hturn)

/-- Settles O32: `kbind` by the first of its checks that decides, and both casts by `traceWith`. -/
theorem raysAreBoundAndCast : Obligations.RaysAreBoundAndCast := by
  unfold Obligations.RaysAreBoundAndCast
  refine ⟨fun x bs u lb v => ?bound, fun x bs u lb v => ?busy, fun x bs u => ?refused, ?casts, castRay_rays⟩
  case bound =>
    refine completes_of (fun f s => show _ = execKbind f s from rfl) fun c s ⟨hbs, hx, hcap, hranges, hlb, hlay, hidle⟩ => ?_
    simp only [withRead_of_ok hbs, hx, beq_eq_false_iff_ne.2 hcap, hranges, withRead_of_ok hlb, hlay, hidle, Bool.not_true, Bool.or_self,
      Bool.false_eq_true, if_false]
  case busy =>
    refine completes_of (fun f s => show _ = execKbind f s from rfl) fun c s ⟨hbs, hx, hcap, hranges, hlb, hlay, hdet, hbusy⟩ => ?_
    simp only [withRead_of_ok hbs, hx, beq_eq_false_iff_ne.2 hcap, hranges, withRead_of_ok hlb, hlay, hdet, hbusy, Bool.not_true, Bool.or_self,
      Bool.false_eq_true, if_false, if_true]
  case refused =>
    refine completes_of (fun f s => show _ = execKbind f s from rfl) fun c s ⟨hbs, hx, hbad⟩ => ?_
    have hc : (x.raycap == 0 || !blockRanges bs) = true := by simpa using hbad
    simp only [withRead_of_ok hbs, hx, hc, if_true]
  case casts =>
    intro i hi f s c x b base h cont hx hb hd hcont _ hacked hroom hturn
    have hexec : exec (i f) s = .next (finish c (start s) (castRays c x b (BitVec.ofNat 64 cont) base (start s))) := by
      obtain rfl | rfl := hi
      · have hat : cont = (c.w.pc + 12).toNat := if_pos rfl
        rw [hat] at hcont ⊢
        exact trace_casts (at_ := fun c => (c.w.pc + 12).toNat) (fun _ _ => rfl) h hx hb hd hcont hacked hroom hturn
      · have hat : cont = c.vc.scalar64 := if_neg (fun heq => by cases heq)
        rw [hat] at hcont ⊢
        exact trace_casts (at_ := fun c => c.vc.scalar64) (fun _ _ => rfl) h hx hb hd hcont hacked hroom hturn
    refine ⟨fun hleft => ?left, fun hnone hdef hstream hbank hstop hwork hleave => ?none⟩
    case left =>
      rw [hexec, castRays_of_left hleft]
      rfl
    case none =>
      have hwave : c.wave (start s) = c.w := by rw [Ctx.wave, (ready_wave h).1, Option.getD_some]
      rw [hexec, castRays_of_none_left hnone, haltAct_of_idle hdef hstream hbank hstop hwork (hwave ▸ hleave)]
      rfl

end Sys2Proof.Claims
end

section
/-! SUPPORT. Reads of textures and passes, emission and tiles (O34, O35): what a valid descriptor and lanes without a fault come to. -/

namespace Sys2Proof.Machine

/-! ### Lanes without a fault -/

theorem mem_maskBits {m : Word} {l : Nat} : l ∈ maskBits m ↔ l < 32 ∧ lane m l = true := by
  simp [maskBits, laneList]

/-- Where no lane of a mask has a cause, no lane fails. -/
theorem maskOf_failing_eq_zero {α : Type} {m : Word} {why : Nat → Option α} (h : ∀ l ∈ maskBits m, why l = none) :
    maskOf (fun l => lane m l && (why l).isSome) = 0 := by
  refine BitVec.eq_of_getLsbD_eq fun l hl => ?_
  rw [maskOf_getLsbD, show (0 : Word).getLsbD l = false from BitVec.getLsbD_zero]
  cases hlane : lane m l with
  | false => simp
  | true => simp [h l (mem_maskBits.2 ⟨hl, hlane⟩)]

/-! ### Descriptors (R406, R407, R410) -/

section

variable {c : Ctx} {s t : State} {n : Nat} {ok : List Byte → Bool} {bs : List Byte} {body : List Byte → State → Act}

/-- An instruction goes on with a valid descriptor. -/
theorem withDesc_of_described (h : Claims.Described c s n ok bs t) : withDesc c s n ok body = body bs t := by
  obtain ⟨ha, hread, hok⟩ := h
  simp only [withDesc, ha, withRead_of_ok hread, hok, bne_self_eq_false, Bool.false_eq_true, if_false, if_true]

/-- A descriptor stands at a multiple of its size. -/
theorem withDesc_of_misaligned (h : c.vc.scalar64 % n ≠ 0) : withDesc c s n ok body = .illopnd := by
  simp only [withDesc, bne_iff_ne, ne_eq, h, not_false_eq_true, if_true]

/-- A read of a pass goes on with the descriptor of one that is finished (R418). -/
theorem withDone_of_described (h : Claims.Described c s 128 passOk bs t) (hdone : pdState bs = 3) : withDone c s body = body bs t := by
  rw [withDone, withDesc_of_described h, hdone, beq_self_eq_true, if_pos rfl]

/-- An emission goes on with the descriptor that it has read at its home (R407). -/
theorem withPassDesc_of_read (h : Claims.PassRead c s bs t) : withPassDesc c s body = body bs t := by
  obtain ⟨ha, hparked, hmay, hread, hok⟩ := h
  simp only [withPassDesc, ha, hparked, hmay, hread, hok, bne_self_eq_false, Bool.not_true, Bool.or_self, Bool.false_eq_true, if_false, if_true]

/-- Lanes that read without a fault all land in D (R410). -/
theorem readLanes_of_readable {d count : Nat} {reads : Nat → List (Nat × Nat)} {val : Nat → List (List Byte) → Nat × Flags}
    (hd : c.d = some (.v d)) (h : Claims.Readable c s reads val) :
    readLanes c s count reads val = .done (landRead c (lanesRead c s reads val) d count).2 := by
  obtain ⟨hheld, hbad⟩ := h
  simp only [readLanes, hheld, hd, hbad, bne_self_eq_false, Bool.false_eq_true, if_false]

end

/-! ### Emission (R413, R414) -/

/-- Outside what software has spoiled, a pass leaves the value itself. -/
theorem passVal_of_not_spoiled {s : State} {asid desc n v : Nat} (h : ∀ p, s.livePass asid desc = some p → passSpoiled s p = false) :
    passVal s asid desc n v = (v % 2 ^ (8 * n), s) := by
  have hspoiled : (match s.livePass asid desc with | some p => passSpoiled s p | none => false) = false := by
    cases hp : s.livePass asid desc with
    | none => rfl
    | some p => exact h p hp
  have hopen : s.openBytes (match s.livePass asid desc with | some p => passSpoiled s p | none => false) (leBytes n v) = (leBytes n v, s) := by
    rw [hspoiled]
    rfl
  rw [show 2 ^ (8 * n) = 256 ^ n from Nat.pow_mul 2 8 n, ← leNat_leBytes]
  exact congrArg (fun x : List Byte × State => (leNat x.1, x.2)) hopen

/-- Emission that no fault stops answers which lanes' triangles were taken, and leaves the wave no lanes to go on with. -/
theorem emitInto_of_emitted {c : Ctx} {s t : State} {p q : Pass} {k n : Word} (hheld : p.held = false) (hpart : p.part = [])
    (hemit : emitLanes c p.desc p.bytes (maskBits c.m) 0#32 0#32 s = (k, n, .ok t)) (hq : t.livePass p.asid p.desc = some q) (hnone : q.part = []) :
    emitInto c s p = .done (c.putPred (passVal (t.setPass q) p.asid p.desc 4 n.toNat).2 c.m
      (BitVec.ofNat 32 (passVal (t.setPass q) p.asid p.desc 4 n.toNat).1)) := by
  have hsame : ({ q with part := [] } : Pass) = q := by rw [← hnone]
  have hall : c.m &&& ~~~0#32 = c.m := and_not_zero c.m
  simp only [emitInto, hheld, hpart, List.find?_nil, hall, hemit, hq, hnone, List.filter_nil, hsame, Bool.false_eq_true, if_false]

/-! ### Colour tiles (R419, R420) -/

/-- Lanes whose tiles exist and can be written all issue their conversion. -/
theorem convertTiles_of_clear {c : Ctx} {s u : State} {op : Nat} {bs : List Byte} (h : Claims.Described c s 32 texOk bs u)
    (hfmt : (texOf bs).fmt = 0) (hsurf : (texOf bs).surf ≠ 0)
    (hclear : ∀ l ∈ maskBits (tileLanes c (texOf bs)), tileFault u c (texOf bs) l = none)
    (hroom : outstFull c.w (maskCount (tileLanes c (texOf bs))) = false) : convertTiles c s op =
      .done (addOutst (issueTiles (groupOf u c.w).2 c (groupOf u c.w).1 (tileLanes c (texOf bs)) (texOf bs) op) c.w.wid
        (maskCount (tileLanes c (texOf bs)))) := by
  have hc : ((texOf bs).fmt != 0 || (texOf bs).surf == 0) = false := by simp [hfmt, hsurf]
  rw [convertTiles, withDesc_of_described h]
  simp only [hc, maskOf_failing_eq_zero hclear, and_not_zero, hroom, bne_self_eq_false, Bool.false_eq_true, if_false]

/-- The bytes of a pixel's channels are the bytes that they stand in. -/
theorem pixel_rawPixel {d : List Byte} (h : 4 ≤ d.length) : (rawPixel d 0).map (BitVec.ofNat 8 ·) = d.take 4 := by
  match d, h with
  | a :: b :: e :: f :: _, _ => simp [rawPixel, byteN, List.range_succ]

/-- A tile of one colour holds its pixel 64 times. -/
theorem convertTile_dec_uniform {colour m : Nat} {d : List Byte} (hm : m / 64 = 1) (hd : 4 ≤ d.length) :
    convertTile 0 colour m d = some (0, (List.replicate 64 (d.take 4)).flatten) := by
  simp only [convertTile, hm, tilePixels, pixelBytes, beq_self_eq_true, if_true, ← pixel_rawPixel hd, List.flatMap_def, List.map_replicate]
  rfl

end Sys2Proof.Machine

namespace Sys2Proof.Claims

open Sys2Proof.Machine

/-- Settles O34: each instruction reads its lanes by `readLanes` once its descriptor, and the material of `texn`, are read. -/
theorem samplingInstructionsReadTheirLanes : Obligations.SamplingInstructionsReadTheirLanes := by
  unfold Obligations.SamplingInstructionsReadTheirLanes
  refine ⟨fun bs u d => ?tex, fun bs u d => ?texg, fun bs u d x m v => ?texn, ?texOdd, ?texgOdd, ?texnOdd, fun ds u d => ?vbrd
    , fun ds u d => ?rpq⟩
  case tex =>
    refine completes_of (fun f s => show _ = execTex f s from rfl) fun c s ⟨hdesc, hd, hread⟩ => ?_
    rw [withDesc_of_described hdesc]
    exact readLanes_of_readable hd hread
  case texg =>
    refine completes_of (fun f s => show _ = execTexg f s from rfl) fun c s ⟨hdesc, hd, hread⟩ => ?_
    rw [withDesc_of_described hdesc]
    exact readLanes_of_readable hd hread
  case texn =>
    refine completes_of (fun f s => show _ = execTexn f s from rfl) fun c s ⟨hdesc, hd, hx, htab, hfmt, hm, hok, hread⟩ => ?_
    have hc : (decide ((texOf bs).fmt < 3) || x.mattab == 0) = false := by simp [Nat.not_lt.2 hfmt, htab]
    rw [withDesc_of_described hdesc]
    simp only [hx, hc, withRead_of_ok hm, hok, Bool.not_true, Bool.false_eq_true, if_false]
    exact readLanes_of_readable hd hread
  case texOdd => exact traps_of (fun f s => show _ = execTex f s from rfl) fun _ _ => withDesc_of_misaligned
  case texgOdd => exact traps_of (fun f s => show _ = execTexg f s from rfl) fun _ _ => withDesc_of_misaligned
  case texnOdd => exact traps_of (fun f s => show _ = execTexn f s from rfl) fun _ _ => withDesc_of_misaligned
  case vbrd =>
    refine completes_of (fun f s => show _ = execVbrd f s from rfl) fun c s ⟨hdesc, hdone, hd, hsample, hread⟩ => ?_
    rw [withDone_of_described hdesc hdone]
    simp only [ge_iff_le, Nat.not_le.2 hsample, if_false]
    exact readLanes_of_readable hd hread
  case rpq =>
    refine completes_of (fun f s => show _ = execRpq f s from rfl) fun c s ⟨hdesc, hdone, hd, hprev, hread⟩ => ?_
    rw [withDone_of_described hdesc hdone]
    simp only [beq_eq_false_iff_ne.2 hprev, Bool.false_eq_true, if_false]
    exact readLanes_of_readable hd hread

/-- Settles O35: each instruction by the branch that the state of its pass or its tiles chooses. -/
theorem passInstructionsEmitAndConvert : Obligations.PassInstructionsEmitAndConvert := by
  unfold Obligations.PassInstructionsEmitAndConvert
  refine ⟨fun ds u p k n t q => ?emit, fun _ _ _ _ _ => passVal_of_not_spoiled, fun ds u p f s c h hread hstate hnone hopen => ?opens
    , fun ds u p f s c h hread hp hpart => ?resumes, fun ds u => ?late, fun ds u p => ?close, fun ds u cb v kb w => ?attrs, ?tiles
    , fun colour m d => convertTile_dec_uniform, fun _ _ _ => rfl, ?encKeeps, ?decKeeps⟩
  case emit =>
    refine completes_of (fun f s => show _ = execPemit f s from rfl)
      fun c s ⟨hread, hp, hst, hheld, hpart, hasid, hdesc, hemit, hq, hnone⟩ => ?_
    have hc : (p.st == .opened || p.part.any fun x => x.1 == c.w.wid) = true := by rw [hst]; rfl
    rw [withPassDesc_of_read hread]
    simp only [hp, hc, if_true]
    rw [emitInto_of_emitted hheld hpart hemit (by rw [hasid, hdesc]; exact hq) hnone, hasid, hdesc]
  case opens =>
    rw [show exec (.pemit f) s = execPemit f s from rfl, execPemit, issue_ready h, withPassDesc_of_read hread]
    simp only [hnone, ge_iff_le, Nat.not_le.2 hstate, if_false, hopen]
  case resumes =>
    rw [show exec (.pemit f) s = execPemit f s from rfl, execPemit, issue_ready h, withPassDesc_of_read hread]
    simp only [hp, hpart, Bool.or_true, if_true]
  case late =>
    refine completes_of (fun f s => show _ = execPemit f s from rfl) fun c s ⟨hread, hlate⟩ => ?_
    rw [withPassDesc_of_read hread]
    obtain ⟨p, hp, hst, hpart⟩ | ⟨hnone, hstate⟩ := hlate
    · have hc : (p.st == .opened || p.part.any fun x => x.1 == c.w.wid) = false := by rw [hst, hpart]; rfl
      simp only [hp, hc, Bool.false_eq_true, if_false]
    · simp only [hnone, ge_iff_le, hstate, if_true]
  case close =>
    refine completes_of (fun f s => show _ = execPemitClose f s from rfl) fun c s ⟨hread, hp, hst⟩ => ?_
    rw [withPassDesc_of_read hread]
    simp only [hp, hst, beq_self_eq_true, if_true]
  case attrs =>
    refine completes_of (fun f s => show _ = execAemit f s from rfl) fun c s ⟨hdesc, hdone, hstride, hcb, hkb, hclear, hroom⟩ => ?_
    have hfault : ∀ l ∈ maskBits c.m, ((attrAddrs ds (c.f.e 15 12 + 1) (survPos (survKeys ds cb kb) (c.vb.w l).toNat)).findSome? fun a =>
        (w.laneCheck c.w.asid a 4 .write).map fun k => (k, a)) = none := by
      intro l hl
      simpa [List.findSome?_eq_none_iff] using hclear l hl
    rw [withDone_of_described hdesc hdone]
    simp only [Nat.not_lt.2 hstride, withRead_of_ok hcb, withRead_of_ok hkb, maskOf_failing_eq_zero hfault, and_not_zero, hroom,
      bne_self_eq_false, Bool.false_eq_true, if_false]
  case tiles =>
    rintro i op (⟨rfl, rfl⟩ | ⟨rfl, rfl⟩ | ⟨rfl, rfl⟩) bs u
    · exact completes_of (fun f s => show _ = execCcdcDec f s from rfl) fun _ _ ⟨h, hfmt, hsurf, hclear, hroom⟩ =>
        convertTiles_of_clear h hfmt hsurf hclear hroom
    · exact completes_of (fun f s => show _ = execCcdcEnc f s from rfl) fun _ _ ⟨h, hfmt, hsurf, hclear, hroom⟩ =>
        convertTiles_of_clear h hfmt hsurf hclear hroom
    · exact completes_of (fun f s => show _ = execCcfc f s from rfl) fun _ _ ⟨h, hfmt, hsurf, hclear, hroom⟩ =>
        convertTiles_of_clear h hfmt hsurf hclear hroom
  case encKeeps =>
    intro m d hm colour
    simp only [convertTile, beq_eq_false_iff_ne.2 hm, Bool.false_eq_true, if_false]
  case decKeeps =>
    intro m d hm colour
    simp only [convertTile, hm, beq_self_eq_true, if_true]

end Sys2Proof.Claims
end
